-- ==== Sys2Proof/Word.lean ====
section
/-! DEFINITION. The word types of the drive (00_scope R8) and the sparse byte memory. -/


namespace Sys2Proof

/-- A byte. -/
abbrev Byte := BitVec 8
/-- A 16-bit field. -/
abbrev W16 := BitVec 16
/-- A 32-bit word: a lane, an FP32 value, a handle, a command dword. -/
abbrev W32 := BitVec 32
/-- A 64-bit word: a scalar register, an instruction word, a register of BAR2. -/
abbrev W64 := BitVec 64
/-- A 128-bit word: a cairn, CREC, an extreme register, SRSTATE. -/
abbrev W128 := BitVec 128
/-- A 256-bit word: a stream descriptor, a result record. -/
abbrev W256 := BitVec 256

end Sys2Proof
end

