-- ==== Sys2Proof/Syntax.lean ====
section
/-! DEFINITION. The commands of the drive as plain data: operand types, then the one inductive `Instr`,
one constructor per row of spec/opcode_table.json. -/
namespace Sys2Proof

/-- An agent that issues Abasel instructions (R103): a sequencer core of a logical tile, or a hardware
context of a traversal engine. -/
inductive Agent where
  | core (tile : Fin 256) (core : Fin 4)
  | ctx (cluster : Fin 16) (ctx : Fin 512)
  deriving DecidableEq, Repr

/-- What the SECDED check of a word that a reader touches finds (R419, R420, R423): nothing, a single-bit
error in stored bit `bit` of the word at `addr`, or an uncorrectable error of the word at `addr`. -/
inductive EccHit where
  | clean
  | correctable (bit : BitVec 7) (addr : BitVec 40)
  | uncorrectable (addr : BitVec 40)
  deriving DecidableEq, Repr

/-- The form an instruction word is written in (R118, R119): the short form, or the long form with its
third source, modifiers and second word; or a word whose opcode names no instruction (R120), held as fetched: whichever
command carries it, its agent takes ILLEGAL_INSTR (log entry 144). -/
inductive Form where
  | short
  | long (srcC : BitVec 5) (mod : BitVec 21) (word1 : W64)
  | reserved (word : W64)
  deriving DecidableEq, Repr

/-- An Abasel instruction word as issued: every field of R118 but the opcode, which the command names,
the form it is written in (R119), and what the fetch finds in the instruction store (R423 kind 1). -/
structure IWord where
  dst : BitVec 5
  srcA : BitVec 5
  srcB : BitVec 5
  pred : BitVec 3
  pneg : Bool
  stamp : Bool
  imm : W32
  form : Form
  fetch : EccHit
  deriving DecidableEq, Repr

/-- One NVMe command as the drive fetches it (R395, R412): the controller and queue it came from, the
dwords, and the bytes of the host buffer that DPTR describes. -/
structure HostCmd where
  ctrl : Fin 33
  sqid : W16
  cid : W16
  psdt : BitVec 2
  fuse : BitVec 2
  nsid : W32
  cdw2to5 : W128
  cdw10 : W32
  cdw11 : W32
  cdw12 : W32
  cdw13 : W32
  cdw14 : W32
  cdw15 : W32
  data : List Byte
  deriving DecidableEq, Repr

/-- What the media, the memories or the peers report for a stream transfer (R158): it moves its bytes, it ends
with an outcome, or it meets an uncorrectable error of Tier D (R239) or of tile SRAM (R423). -/
inductive XferMedia where
  | good | impaired | uncorrectable | peerReset | memberMissing
  | tierD (stack : Fin 2) (addr : BitVec 40)
  | sram (addr : BitVec 40)
  | corrected (stack : Fin 2) (bit : BitVec 7) (addr : BitVec 40)
  | sramCorrected (bit : BitVec 7) (addr : BitVec 40)
  deriving DecidableEq, Repr

/-- One staged change of a setting (R198, R201, R412): number, key, value, and for a group create its
member list. -/
structure StagedChange where
  num : W16
  key : W64
  value : W64
  members : List W16
  deriving DecidableEq, Repr

/-- What a drive appends to the FORM probe (R460 step 2), and whether it is cabled as R458 requires. -/
structure DriveProbe where
  digest : W128
  atS8 : Bool
  holdsRecord : Bool
  penlaVersion : Byte
  stepPeriod : W32
  cabled : Bool
  deriving DecidableEq, Repr

/-- What an array read on a die serves. -/
inductive ReadFor where
  /-- sectors of an FREAD: the record operation it belongs to -/
  | fread (op : Nat)
  /-- a stored unit of copy `copy` of a sealed object -/
  | object (h : W32) (copy : Fin 2) (unit : Nat)
  /-- a unit of a mapped namespace -/
  | mapped (nsx : W16) (lua : W32)
  /-- media management's own reads -/
  | drive
  deriving DecidableEq, Repr

/-- A read that reaches a die's queue (R330, R331): the block and unit it reads, its mode, its arrival
instant in ns, and what it serves. -/
structure DieRead where
  block : Nat
  unit : Nat
  qlc : Bool
  at_ : Nat
  serves : ReadFor
  deriving DecidableEq, Repr

/-- How an array read ended (R336): the retry step that decoded, 8 when step 7 failed too; `corrupt` when
the sealed-object codec rejects a block (R233). -/
structure ReadOutcome where
  step : Fin 9
  corrupt : Bool
  deriving DecidableEq, Repr

/-- What the signed manifest of a firmware image says (R434): the slot and the SHAKE256 digest of the key that it carries, whether its signature
verifies under that key, its security version, and the digest of its body. -/
structure Manifest where
  keySlot : Fin 4
  keyDigest : BitVec 512
  sigValid : Bool
  svn : Byte
  digest : BitVec 512
  penlaVersion : Byte
  bytes : W32
  deriving DecidableEq, Repr, Inhabited

/-- What the boot ROM finds in the firmware slot (R453). -/
structure SlotFound where
  header : Bool
  readable : Bool
  man : Manifest
  deriving DecidableEq, Repr

/-- The pins at power good (R477, R490) and the reset cause's companions. -/
structure PowerPins where
  sense0 : Bool
  sense1 : Bool
  aux12 : Bool
  testN : Bool
  deriving DecidableEq, Repr

/-- The outcome of parallel training (R447); `meshFailed` counts the mesh links that failed. -/
structure Training where
  channels : W32
  badDies : List (Fin 512)
  dramOk : BitVec 2
  mapOk : Bool
  meshFailed : W16
  unreachable : Bool
  lanes0 : Byte
  lanes1 : Byte
  deriving DecidableEq, Repr

/-- The outcome of the firmware broadcast (R449, R450): packets sent, repair rounds used, the physical
tile and core of each receiver that still misses packets, and whether an engine does. -/
structure Broadcast where
  packets : W16
  rounds : Fin 4
  failedCores : List (Fin 272 × Fin 4)
  engineFails : Bool
  deriving DecidableEq, Repr

/-- What S6 finds on the dies (R451): unreadable one-time rows, packages on default trims, whether a key
share matches, closed blocks with unreadable summaries, and the rebuild's duration. -/
structure S6Found where
  otpBad : List (Fin 512)
  calDefault : List (Fin 32)
  mbk : Bool
  unreadable : W32
  durationMs : BitVec 27
  deriving DecidableEq, Repr

/-- What answers the join offers at S7 (R461): the members of a running chain that accept, with its
master's time, or the drives of the record that are in S7 too. -/
structure S7Found where
  running : Bool
  present : Byte
  masterTime : W64
  deriving DecidableEq, Repr

/-- The path of a recovery access (R456). -/
inductive MgmtPath where
  | bar2 | mi
  deriving DecidableEq, Repr

/-- One 1 ms reading of the sensors (R481), degrees Celsius in two's complement. -/
structure Readings where
  ctrl : Byte
  dram0 : Byte
  dram1 : Byte
  dies : List (Fin 512 × Byte)
  bank : Byte
  inlet : Byte
  outlet : Byte
  deriving DecidableEq, Repr

/-- The parameters a receiving member fans out (R283). -/
structure FanOutQuery where
  sender : Fin 8
  /-- the query's job number at the sender, and whether the sender withdraws the query, which was aborted (R210) -/
  query : BitVec 22
  cancel : Bool
  client : BitVec 6
  index : W32
  dim : Nat
  metric : Byte
  k : Nat
  pool : Nat
  beam : Nat
  width : Nat
  rounds : Bool
  labelMask : W256
  penalty : W16
  adapter : W32
  head : W32
  vec : List W32
  deriving DecidableEq, Repr

/-- The commands. -/
inductive Instr where
  /-- ADD (R141): Scalar add of two registers into a destination register, wrapping modulo 2^64. -/
  | add (a : Agent) (w : IWord)
  /-- SUB (R141): Scalar subtract of two registers, wrapping. -/
  | sub (a : Agent) (w : IWord)
  /-- AND (R141): Scalar bitwise AND of two registers. -/
  | and (a : Agent) (w : IWord)
  /-- OR (R141): Scalar bitwise OR of two registers. -/
  | or (a : Agent) (w : IWord)
  /-- XOR (R141): Scalar bitwise XOR of two registers. -/
  | xor (a : Agent) (w : IWord)
  /-- SHL (R141): Logical left shift by the low 6 bits of the source. -/
  | shl (a : Agent) (w : IWord)
  /-- SHR (R141): Logical right shift by the low 6 bits of the source. -/
  | shr (a : Agent) (w : IWord)
  /-- SRA (R141): Arithmetic right shift by the low 6 bits of the source. -/
  | sra (a : Agent) (w : IWord)
  /-- MUL (R141): Low 64 bits of the product of two registers. -/
  | mul (a : Agent) (w : IWord)
  /-- MULHU (R141): High 64 bits of the unsigned product of two registers. -/
  | mulhu (a : Agent) (w : IWord)
  /-- MIN (R141): Signed minimum of two registers. -/
  | min (a : Agent) (w : IWord)
  /-- MAX (R141): Signed maximum of two registers. -/
  | max (a : Agent) (w : IWord)
  /-- MINU (R141): Unsigned minimum of two registers. -/
  | minu (a : Agent) (w : IWord)
  /-- MAXU (R141): Unsigned maximum of two registers. -/
  | maxu (a : Agent) (w : IWord)
  /-- ADDI (R141): Add of a register and a sign-extended immediate. -/
  | addi (a : Agent) (w : IWord)
  /-- ANDI (R141): AND of a register and a sign-extended immediate. -/
  | andi (a : Agent) (w : IWord)
  /-- ORI (R141): OR of a register and a sign-extended immediate. -/
  | ori (a : Agent) (w : IWord)
  /-- XORI (R141): XOR of a register and a sign-extended immediate. -/
  | xori (a : Agent) (w : IWord)
  /-- SHLI (R141): Logical left shift by an immediate amount. -/
  | shli (a : Agent) (w : IWord)
  /-- SHRI (R141): Logical right shift by an immediate amount. -/
  | shri (a : Agent) (w : IWord)
  /-- SRAI (R141): Arithmetic right shift by an immediate amount. -/
  | srai (a : Agent) (w : IWord)
  /-- LI (R141): Loads a sign-extended immediate into a scalar register. -/
  | li (a : Agent) (w : IWord)
  /-- LIH (R141): Loads the immediate into bits 63:32 of a scalar register and keeps bits 31:0. -/
  | lih (a : Agent) (w : IWord)
  /-- LI64 (R119): Long-form instruction loading the 64-bit second word into a scalar register. -/
  | li64 (a : Agent) (w : IWord)
  /-- LD_B (R141): Zero-extending byte load from tile SRAM. -/
  | ldB (a : Agent) (w : IWord) (m : EccHit)
  /-- LD_H (R141): Zero-extending halfword load from tile SRAM. -/
  | ldH (a : Agent) (w : IWord) (m : EccHit)
  /-- LD_W (R141): Zero-extending word load from tile SRAM. -/
  | ldW (a : Agent) (w : IWord) (m : EccHit)
  /-- LD_D (R141): Doubleword load from tile SRAM, with MISALIGNED, ACCESS and DATA_ECC faults. -/
  | ldD (a : Agent) (w : IWord) (m : EccHit)
  /-- LD_BS (R141): Sign-extending byte load from tile SRAM. -/
  | ldBs (a : Agent) (w : IWord) (m : EccHit)
  /-- LD_HS (R141): Sign-extending halfword load from tile SRAM. -/
  | ldHs (a : Agent) (w : IWord) (m : EccHit)
  /-- LD_WS (R141): Sign-extending word load from tile SRAM. -/
  | ldWs (a : Agent) (w : IWord) (m : EccHit)
  /-- ST_B (R141): Stores the low byte of a register to tile SRAM. -/
  | stB (a : Agent) (w : IWord) (m : EccHit)
  /-- ST_H (R141): Stores the low halfword of a register to tile SRAM. -/
  | stH (a : Agent) (w : IWord) (m : EccHit)
  /-- ST_W (R141): Stores the low word of a register to tile SRAM. -/
  | stW (a : Agent) (w : IWord) (m : EccHit)
  /-- ST_D (R141): Stores a doubleword register to tile SRAM. -/
  | stD (a : Agent) (w : IWord)
  /-- SRD (R107): Reads a special register by number into a scalar register. -/
  | srd (a : Agent) (w : IWord)
  /-- SWR (R142): Writes a scalar register into a special register, with ordering rules for ACTL, SRSTATE, extremes and STATUS. -/
  | swr (a : Agent) (w : IWord)
  /-- NOP (R143): Does nothing for one cycle. -/
  | nop (a : Agent) (w : IWord)
  /-- J (R143): Relative jump by a sign-extended immediate. -/
  | j (a : Agent) (w : IWord)
  /-- JR (R143): Jump to the word index held in a register. -/
  | jr (a : Agent) (w : IWord)
  /-- JAL (R143): Relative jump that saves the index of the next word. -/
  | jal (a : Agent) (w : IWord)
  /-- END (R144): Stops the core or context after its issued work completes; the program ends when every core has ended or failed. -/
  | endProg (a : Agent) (w : IWord)
  /-- FSET (R116): Sets one of the program's event flags on the tile. -/
  | fset (a : Agent) (w : IWord)
  /-- FCLR (R116): Clears one of the program's event flags. -/
  | fclr (a : Agent) (w : IWord)
  /-- FWAIT (R116): Waits until an event flag is set. -/
  | fwait (a : Agent) (w : IWord)
  /-- FWAITC (R116): Waits until an event flag is set and clears it in the same action. -/
  | fwaitc (a : Agent) (w : IWord)
  /-- BAR (R116): Tile barrier over a core mask. -/
  | bar (a : Agent) (w : IWord)
  /-- BRK (R125): Breakpoint instruction raising the BREAK trap. -/
  | brk (a : Agent) (w : IWord)
  /-- TRAP (R125): Trap instruction raising the SOFTWARE trap. -/
  | trap (a : Agent) (w : IWord)
  /-- TRET (R127): Returns from a trap handler, clears INH and resumes at TPC. -/
  | tret (a : Agent) (w : IWord)
  /-- CMP_EQ (R145): Scalar equality compare writing a full predicate. -/
  | cmpEq (a : Agent) (w : IWord)
  /-- CMP_NE (R145): Scalar inequality compare writing a full predicate. -/
  | cmpNe (a : Agent) (w : IWord)
  /-- CMP_LT (R145): Signed less-than compare writing a full predicate. -/
  | cmpLt (a : Agent) (w : IWord)
  /-- CMP_LTU (R145): Unsigned less-than compare writing a full predicate. -/
  | cmpLtu (a : Agent) (w : IWord)
  /-- CMP_LE (R145): Signed less-or-equal compare writing a full predicate. -/
  | cmpLe (a : Agent) (w : IWord)
  /-- CMP_LEU (R145): Unsigned less-or-equal compare writing a full predicate. -/
  | cmpLeu (a : Agent) (w : IWord)
  /-- PAND (R145): Bitwise AND of two predicates. -/
  | pand (a : Agent) (w : IWord)
  /-- POR (R145): Bitwise OR of two predicates. -/
  | por (a : Agent) (w : IWord)
  /-- PXOR (R145): Bitwise XOR of two predicates. -/
  | pxor (a : Agent) (w : IWord)
  /-- PANDN (R145): Bitwise AND of a predicate with the inverse of another. -/
  | pandn (a : Agent) (w : IWord)
  /-- PNOT (R145): Bitwise inverse of a predicate. -/
  | pnot (a : Agent) (w : IWord)
  /-- PMOV (R145): Copies a scalar register into a predicate. -/
  | pmov (a : Agent) (w : IWord)
  /-- PRD (R145): Copies a predicate into a scalar register. -/
  | prd (a : Agent) (w : IWord)
  /-- PCNT (R145): Counts the set bits of a predicate. -/
  | pcnt (a : Agent) (w : IWord)
  /-- PFIRST (R145): Returns the index of the lowest set bit of a predicate, or 64. -/
  | pfirst (a : Agent) (w : IWord)
  /-- VADD (R146): FP32 lane-wise add. -/
  | vadd (a : Agent) (w : IWord)
  /-- VSUB (R146): FP32 lane-wise subtract. -/
  | vsub (a : Agent) (w : IWord)
  /-- VMUL (R146): FP32 lane-wise multiply. -/
  | vmul (a : Agent) (w : IWord)
  /-- VFMA (R146): FP32 lane-wise fused multiply-add into the destination. -/
  | vfma (a : Agent) (w : IWord)
  /-- VMAX (R146): IEEE lane-wise maximum. -/
  | vmax (a : Agent) (w : IWord)
  /-- VMIN (R146): IEEE lane-wise minimum. -/
  | vmin (a : Agent) (w : IWord)
  /-- VABS (R146): Clears the sign bit of each lane. -/
  | vabs (a : Agent) (w : IWord)
  /-- VNEG (R146): Inverts the sign bit of each lane. -/
  | vneg (a : Agent) (w : IWord)
  /-- VDIV (R148): Correctly rounded FP32 lane-wise divide, counting OVF for finite non-zero by zero. -/
  | vdiv (a : Agent) (w : IWord)
  /-- VSQRT (R146): Correctly rounded FP32 lane-wise square root. -/
  | vsqrt (a : Agent) (w : IWord)
  /-- VIADD (R146): 32-bit integer lane-wise add. -/
  | viadd (a : Agent) (w : IWord)
  /-- VISUB (R146): 32-bit integer lane-wise subtract. -/
  | visub (a : Agent) (w : IWord)
  /-- VAND (R146): 32-bit lane-wise AND. -/
  | vand (a : Agent) (w : IWord)
  /-- VOR (R146): 32-bit lane-wise OR. -/
  | vor (a : Agent) (w : IWord)
  /-- VXOR (R146): 32-bit lane-wise XOR. -/
  | vxor (a : Agent) (w : IWord)
  /-- VSHL (R146): 32-bit lane-wise shift left by the low 5 bits. -/
  | vshl (a : Agent) (w : IWord)
  /-- VLD (R146): Loads 256 bytes of tile SRAM into a vector register. -/
  | vld (a : Agent) (w : IWord) (m : EccHit)
  /-- VST (R146): Stores the active lanes of a vector register to tile SRAM. -/
  | vst (a : Agent) (w : IWord) (m : EccHit)
  /-- VMOV (R146): Copies a vector register. -/
  | vmov (a : Agent) (w : IWord)
  /-- VBCAST (R146): Broadcasts a scalar's low 32 bits to every lane. -/
  | vbcast (a : Agent) (w : IWord)
  /-- VACC_RD (R93): Reads 64 elements of an accumulator bank into a vector register, waiting while the bank is busy. -/
  | vaccRd (a : Agent) (w : IWord) (m : EccHit)
  /-- VACC_WR (R93): Writes 64 elements of an accumulator bank from a vector register, waiting while busy. -/
  | vaccWr (a : Agent) (w : IWord) (m : EccHit)
  /-- VGET (R146): Copies one lane into a scalar register. -/
  | vget (a : Agent) (w : IWord)
  /-- VPUT (R146): Writes a scalar into one lane. -/
  | vput (a : Agent) (w : IWord)
  /-- VCMP_EQ (R146): FP32 lane-wise equality compare into a predicate. -/
  | vcmpEq (a : Agent) (w : IWord)
  /-- VCMP_LT (R146): FP32 lane-wise less-than compare into a predicate. -/
  | vcmpLt (a : Agent) (w : IWord)
  /-- VCMP_LE (R146): FP32 lane-wise less-or-equal compare into a predicate. -/
  | vcmpLe (a : Agent) (w : IWord)
  /-- VRED_SUM (R147): Sums the active lanes by the pairwise tree into a scalar. -/
  | vredSum (a : Agent) (w : IWord)
  /-- VRED_MAX (R147): IEEE maximum over the active lanes. -/
  | vredMax (a : Agent) (w : IWord)
  /-- VRED_MIN (R147): IEEE minimum over the active lanes. -/
  | vredMin (a : Agent) (w : IWord)
  /-- CVT_F32_BF16 (R149): Convert instruction between FP32 and BF16 (minor 0x00), writing CREC and optionally an extreme register. -/
  | cvtF32Bf16 (a : Agent) (w : IWord)
  /-- CVT_F32_F16 (R149): Convert instruction between FP32 and FP16 (minor 0x01). -/
  | cvtF32F16 (a : Agent) (w : IWord)
  /-- CVT_F32_E5M2 (R149): Convert instruction between FP32 and E5M2 (minor 0x02). -/
  | cvtF32E5m2 (a : Agent) (w : IWord)
  /-- CVT_F32_Q8A (R149): Convert instruction between FP32 and Q8A with two metadata words (minor 0x03). -/
  | cvtF32Q8a (a : Agent) (w : IWord)
  /-- CVT_F32_Q4A (R149): Convert instruction between FP32 and Q4A (minor 0x04). -/
  | cvtF32Q4a (a : Agent) (w : IWord)
  /-- CVT_F32_Q2A (R149): Convert instruction between FP32 and Q2A (minor 0x05). -/
  | cvtF32Q2a (a : Agent) (w : IWord)
  /-- CVT_F32_TERN (R149): Convert instruction between FP32 and TERN (minor 0x06). -/
  | cvtF32Tern (a : Agent) (w : IWord)
  /-- CVT_F32_L4 (R149): Convert instruction between FP32 and L4 (minor 0x07). -/
  | cvtF32L4 (a : Agent) (w : IWord)
  /-- CVT_F32_MXFP4 (R149): Convert instruction between FP32 and MXFP4 (minor 0x08). -/
  | cvtF32Mxfp4 (a : Agent) (w : IWord)
  /-- CVT_BF16_F32 (R149): Convert instruction between BF16 and FP32 (minor 0x10), RNE or SR. -/
  | cvtBf16F32 (a : Agent) (w : IWord)
  /-- CVT_F16_F32 (R149): Convert instruction between FP16 and FP32 (minor 0x11). -/
  | cvtF16F32 (a : Agent) (w : IWord)
  /-- CVT_E5M2_F32 (R149): Convert instruction between E5M2 and FP32 (minor 0x12). -/
  | cvtE5m2F32 (a : Agent) (w : IWord)
  /-- CVT_Q8A_F32 (R149): Convert instruction between Q8A and FP32 (minor 0x13). -/
  | cvtQ8aF32 (a : Agent) (w : IWord)
  /-- CVT_Q4A_F32 (R149): Convert instruction between Q4A and FP32 (minor 0x14), RNE or SR. -/
  | cvtQ4aF32 (a : Agent) (w : IWord)
  /-- CVT_Q2A_F32 (R149): Convert instruction between Q2A and FP32 (minor 0x15), RNE or SR. -/
  | cvtQ2aF32 (a : Agent) (w : IWord)
  /-- CVT_TERN_F32 (R149): Convert instruction between TERN and FP32 (minor 0x16). -/
  | cvtTernF32 (a : Agent) (w : IWord)
  /-- CVT_L4_F32 (R149): Convert instruction between L4 and FP32 (minor 0x17), nearest or SR. -/
  | cvtL4F32 (a : Agent) (w : IWord)
  /-- CVT_MXFP4_F32 (R149): Convert instruction between MXFP4 and FP32 (minor 0x18). -/
  | cvtMxfp4F32 (a : Agent) (w : IWord)
  /-- MMA_Q4A (R152): Matrix instruction with Q4A activations and Q4A, Q2A or TERN weights, checked at issue and placed in the shared array queue. -/
  | mmaQ4a (a : Agent) (w : IWord)
  /-- MMA_Q2A (R152): Double-rate Q2A by Q2A matrix instruction placed in the shared array queue. -/
  | mmaQ2a (a : Agent) (w : IWord)
  /-- MMA_TERN (R152): Double-rate TERN by TERN matrix instruction placed in the shared array queue. -/
  | mmaTern (a : Agent) (w : IWord)
  /-- MMA_MXFP4 (R152): MXFP4 by MXFP4 matrix instruction placed in the shared array queue. -/
  | mmaMxfp4 (a : Agent) (w : IWord)
  /-- MMA_SPUR (R155): Arms, replaces or disarms the core's spur with a spur record. -/
  | mmaSpur (a : Agent) (w : IWord)
  /-- ARRAY_INSTRUCTION_START (R87): The array takes the next queued matrix instruction, draining and re-cutting its trees first when the form changes. -/
  | arrayInstructionStart (tile : Fin 256) (m : EccHit)
  /-- MATRIX_OUTPUT_WRITTEN (R93): A matrix instruction's last output is written, its bank leaves busy, its queue entry frees and CREC and its STAMP cairn are written. -/
  | matrixOutputWritten (tile : Fin 256)
  /-- STRM_GO (R158): Checks a stream descriptor and starts its transfer. -/
  | strmGo (a : Agent) (w : IWord)
  /-- STRM_WAIT (R157): Waits until a descriptor's transfer completes. -/
  | strmWait (a : Agent) (w : IWord)
  /-- DSC_WR (R157): Writes one field of a descriptor, waiting while it is busy. -/
  | dscWr (a : Agent) (w : IWord)
  /-- DSC_RD (R157): Reads one field of a descriptor into a scalar register. -/
  | dscRd (a : Agent) (w : IWord)
  /-- DSC_CLR (R157): Clears every field of a descriptor, waiting while it is busy. -/
  | dscClr (a : Agent) (w : IWord)
  /-- STREAM_TRANSFER_COMPLETE (R115): A stream transfer's last byte becomes visible; STATUS is written, BUSY clears and FLAG is set. -/
  | streamTransferComplete (tile : Fin 256) (core : Fin 4) (dsc : Fin 16) (media : XferMedia)
  /-- OBJ_INFO (R160): Requests an object's size, type, state and tiers through a completion record. -/
  | objInfo (a : Agent) (w : IWord)
  /-- OBJ_NEW (R160): Creates a transient object in Tier S or Tier D. -/
  | objNew (a : Agent) (w : IWord)
  /-- OBJ_DROP (R218): Drops an object the program created. -/
  | objDrop (a : Agent) (w : IWord)
  /-- OBJ_PIN (R221): Pins a copy of an object in Tier S or Tier D within the owner's quota. -/
  | objPin (a : Agent) (w : IWord)
  /-- OBJ_UNPIN (R220): Unpins an object's copy in a tier. -/
  | objUnpin (a : Agent) (w : IWord)
  /-- OBJ_SEAL (R220): Seals a ready object, or seals in place units written in an owned extent. -/
  | objSeal (a : Agent) (w : IWord)
  /-- OBJ_STAGE (R161): Stages replacement of one object by another for the next saddle. -/
  | objStage (a : Agent) (w : IWord)
  /-- RECORD_INSTRUCTION_COMPLETE (R140): An object, media, group, collective or staging instruction completes: its 32-byte record is written and its flag set. -/
  | recordInstructionComplete (tile : Fin 256) (core : Fin 4) (n : Nat) (answered : Byte)
  /-- FREAD (R163): Reads 2 KiB sectors of an extent unit into tile SRAM. -/
  | fread (a : Agent) (w : IWord)
  /-- FPROG (R164): Programs a 64 KiB unit of an extent at the write pointer. -/
  | fprog (a : Agent) (w : IWord)
  /-- FERASE (R346): Erases an extent block, clearing its write pointer on receipt. -/
  | ferase (a : Agent) (w : IWord)
  /-- FSYNC (R163): Waits until the core's earlier FPROGs into the extent are on flash. -/
  | fsync (a : Agent) (w : IWord)
  /-- FSTAT (R163): Reads an extent block's write pointer, erased bit, replacement bit and wear count. -/
  | fstat (a : Agent) (w : IWord)
  /-- MEDIA_CHECK (R347): Queued check after a MEDIA_NOT_ERASED refusal reads at the write pointer and advances it past written units. -/
  | mediaCheck (ext : W32) (block : Nat)
  /-- TRV_LAUNCH (R168): Starts a free traversal context at a word with s1 set. -/
  | trvLaunch (a : Agent) (w : IWord)
  /-- TRV_NODE (R168): Reads a node record into the context's slot and waits. -/
  | trvNode (a : Agent) (w : IWord) (m : EccHit)
  /-- TRV_DRD (R254): Reads a 64-byte line of an entry layer from Tier D and waits. -/
  | trvDrd (a : Agent) (w : IWord)
  /-- TRV_SCORE (R261): Scores the slot's neighbour codes against the distance tables. -/
  | trvScore (a : Agent) (w : IWord)
  /-- TRV_VISIT (R169): Tests and sets a node in the visited set. -/
  | trvVisit (a : Agent) (w : IWord)
  /-- TRV_TOMB (R271): Reads a node's tombstone bit from Tier D and waits. -/
  | trvTomb (a : Agent) (w : IWord)
  /-- TRV_PUSH (R261): Offers the scored neighbours to the queue locally or forwards them to other shards. -/
  | trvPush (a : Agent) (w : IWord)
  /-- TRV_POP (R260): Returns the best unexpanded in-beam candidate, waiting while the walk is live. -/
  | trvPop (a : Agent) (w : IWord)
  /-- TRV_BOUND (R168): Tests whether a distance lies inside the beam. -/
  | trvBound (a : Agent) (w : IWord)
  /-- TRV_EMIT (R262): Adds a node to the walk's result list and copies its vector to the rerank area. -/
  | trvEmit (a : Agent) (w : IWord)
  /-- CONTEXT_DATA_ARRIVED (R117): The data a waiting traversal context requested from Tier D or flash arrives and the context becomes ready. -/
  | contextDataArrived (cluster : Fin 16) (ctx : Fin 512) (good : Bool)
  /-- FORWARD_ARRIVAL (R261): A neighbour forwarded from another shard's walk arrives and is tested and pushed by the owning engine. -/
  | forwardArrival (src dst : Fin 16) (job : Nat)
  /-- GRP_NEW (R133): Stages creation of a group once every replica has issued it. -/
  | grpNew (a : Agent) (w : IWord)
  /-- GRP_FREE (R134): Stages freeing of a group once every replica has issued it. -/
  | grpFree (a : Agent) (w : IWord)
  /-- GRP_INFO (R170): Returns the member and tile counts of a group from the live table. -/
  | grpInfo (a : Agent) (w : IWord)
  /-- GTOPK (R171): Merges every member's entry list into the top k by score and key. -/
  | gtopk (a : Agent) (w : IWord)
  /-- GSUM (R172): Adds an FP32 array across members by the fixed tree and writes it at every member. -/
  | gsum (a : Agent) (w : IWord)
  /-- GBCAST (R172): Broadcasts bytes from a source rank to every member. -/
  | gbcast (a : Agent) (w : IWord)
  /-- GBAR (R172): Group barrier across all members. -/
  | gbar (a : Agent) (w : IWord)
  /-- TIME_RD (R173): Reads drive time into a scalar register. -/
  | timeRd (a : Agent) (w : IWord)
  /-- TIME_CAIRN (R173): Emits a program cairn of kind 0x80-0xBF to the cairn log. -/
  | timeCairn (a : Agent) (w : IWord)
  /-- STEP_END (R176): The core or context waits until the next saddle. -/
  | stepEnd (a : Agent) (w : IWord)
  /-- STEP_INFO (R174): Returns the step number, step period or cycles left in the step budget. -/
  | stepInfo (a : Agent) (w : IWord)
  /-- STAGE_WR (R175): Writes a setting's staged copy, completing through a record. -/
  | stageWr (a : Agent) (w : IWord)
  /-- STAGE_RD (R174): Reads the live or staged value of a setting. -/
  | stageRd (a : Agent) (w : IWord)
  /-- ASYNC_REFUSED_TRAP (R126): A non-OK outcome found after issue under TCTL.STRICT raises REFUSED at the next instruction the core would issue. -/
  | asyncRefusedTrap (a : Agent)
  /-- DOORBELL (R385): Host writes a submission or completion queue doorbell in BAR0. -/
  | doorbell (ctrl : Fin 33) (offset : W16) (value : W32)
  /-- SEARCH (R244): Vector search command, checked at fetch and waiting for admission as a job. -/
  | search (c : HostCmd)
  /-- FILTER (R293): Scans a record range with a predicate and returns matching entries. -/
  | filter (c : HostCmd)
  /-- EMBED (R298): Embeds items or records into an index as inserts, deletes or updates, optionally ingesting prefill. -/
  | embed (c : HostCmd)
  /-- READ_ANSWER (R309): Reads stored prefill for keys against query tokens and returns answer spans. -/
  | readAnswer (c : HostCmd)
  /-- RUN (R401): Runs a program on a unit as a job with bound objects and launch arguments. -/
  | run (c : HostCmd)
  /-- QUERY_EMBEDDED (R26): The encoder has produced the query vector. -/
  | queryEmbedded (job : Nat) (tile : Fin 256) (vec : List W32)
  /-- TABLES_READY (R252): Distance tables are built and delivered to the engines and scan tiles. -/
  | tablesReady (job : Nat) (tile : Fin 256)
  /-- WALK_DONE (R263): All walks of a search are quiet and end together; each engine filters its list and stamps WALK_DONE. -/
  | walkDone (job : Nat)
  /-- MORAINE_DONE (R273): The moraine scan of a job completes with its best valid rows. -/
  | moraineDone (job : Nat) (tile : Fin 256)
  /-- MERGE_DONE (R280): Once all walks and the moraine scan are done, the summit merge forms the rerank pool. -/
  | mergeDone (job : Nat) (tile : Fin 256)
  /-- RERANK_DONE (R282): Exact scores order the pool and the first K entries become the result. -/
  | rerankDone (job : Nat) (tile : Fin 256)
  /-- PREFILL_LOADED (R310): All stored prefill for the job is in place in Tier D. -/
  | prefillLoaded (job : Nat)
  /-- READ_DONE (R311): The reader has finalised every answer span. -/
  | readDone (job : Nat) (tile : Fin 256) (spans : List (List W32 × List W32))
  /-- SCAN_DONE (R297): A FILTER scan of its range ends. -/
  | scanDone (job : Nat) (unread : List Nat)
  /-- EMBED_DONE (R301): An EMBED job's work ends and its changes wait for commit. -/
  | embedDone (job : Nat) (vecs : List (List W32)) (bodies : List (List Byte))
  /-- RESULT_WRITTEN (R24): All result records and the header are written to host memory. -/
  | resultWritten (job : Nat)
  /-- COMPLETION_POSTED (R402): The completion entry is written, POSTED filled in and the MSI-X message sent. -/
  | completionPosted (job : Nat)
  /-- CHAIN_MEMBER_ANSWER (R283): A chain member's candidate entries arrive at the receiving member. -/
  | chainMemberAnswer (job : Nat) (member : Fin 8) (agrees : Bool) (entries : List W256)
  /-- CHAIN_MEMBER_TIMEOUT (R283): 50 ms after fan-out without a member's entries, the member is treated as missing and INCOMPLETE is set. -/
  | chainMemberTimeout (job : Nat)
  /-- ABORT_QUERY (R209): Asks the owning core to abort a job; replies CAUGHT, CAUGHT_AT_SADDLE, MISSED or UNKNOWN. -/
  | abortQuery (c : HostCmd)
  /-- NVME_ABORT (R408): NVMe Abort admin command, acting on a job as ABORT QUERY does. -/
  | nvmeAbort (c : HostCmd)
  /-- TAG_EXPIRY (R209): 1 s after a completion posts, the completed job's tag becomes unknown. -/
  | tagExpiry (ctrl : Fin 33) (sqid cid : W16)
  /-- STAGE_SETTINGS (R412): Writes a staged setting, table entry or group create from the host. -/
  | stageSettings (c : HostCmd)
  /-- STAGE_SETTINGS_READ (R412): Reads the live or staged value of a setting with the READ bit. -/
  | stageSettingsRead (c : HostCmd)
  /-- QUEUE_RESUME (R411): Restarts fetching on a frozen queue whose freezing entries have been read. -/
  | queueResume (c : HostCmd)
  /-- LEDGER_EXPORT (R339): Returns the 8 KiB read-threshold ledger. -/
  | ledgerExport (c : HostCmd)
  /-- LEDGER_IMPORT (R339): Replaces masked ledger entries, writes the ledger to flash and stages it for the next saddle. -/
  | ledgerImport (c : HostCmd)
  /-- OBJECT_SEAL (R235): Seals a host image, raw data or ready object into Tier F, or re-seals an IMPAIRED target. -/
  | objectSeal (c : HostCmd)
  /-- PIN_S (R221): Places and pins a Tier S copy on a unit, replicated or striped from a bank row. -/
  | pinS (c : HostCmd)
  /-- PIN_D (R222): Places and pins a Tier D copy of an object. -/
  | pinD (c : HostCmd)
  /-- UNPIN_S (R219): Unpins an object's Tier S copy. -/
  | unpinS (c : HostCmd)
  /-- UNPIN_D (R219): Unpins an object's Tier D copy. -/
  | unpinD (c : HostCmd)
  /-- MAP (R394): Maps an object's Tier D copy at a memory namespace window. -/
  | map (c : HostCmd)
  /-- UNMAP (R394): Removes an object's Tier D copy from its window. -/
  | unmap (c : HostCmd)
  /-- OBJECT_DROP (R218): Drops an object; copies are freed when its last bound job ends. -/
  | objectDrop (c : HostCmd)
  /-- OBJECT_INFO (R414): Returns 256 bytes describing an object. -/
  | objectInfo (c : HostCmd)
  /-- EXTENT_ALLOCATE (R415): Allocates an extent of erased die blocks in a mode. -/
  | extentAllocate (c : HostCmd)
  /-- EXTENT_FREE (R415): Frees an extent once its last bound job ends, erasing its blocks in the background. -/
  | extentFree (c : HostCmd)
  /-- ATTEST (R436): Returns a signed attestation report over a host nonce. -/
  | attest (c : HostCmd)
  /-- ATTEST_CERTIFICATE (R436): Returns the identity certificate with its length. -/
  | attestCertificate (c : HostCmd)
  /-- FORM (R460): Forms a chain by probing the ring, writing records and aligning saddles. -/
  | form (c : HostCmd)
  /-- LEAVE (R463): The receiving member leaves its chain at the next chain saddle. -/
  | leave (c : HostCmd)
  /-- DISSOLVE (R463): Every member clears its chain record at the next chain saddle. -/
  | dissolve (c : HostCmd)
  /-- FIRMWARE (R463): Sends the slot image to every member, which writes its own slot. -/
  | firmware (c : HostCmd) (answers : List (Fin 8))
  /-- STATUS (R459): Returns the 64-byte chain status. -/
  | status (c : HostCmd)
  /-- PROBE_RETURN (R460): The FORM probe flit returns on port 1 and the ring is checked. -/
  | probeReturn (ring : List DriveProbe)
  /-- JOIN_OFFER (R461): A drive outside its chain offers to join, at S7 and every 1 s afterwards. -/
  | joinOffer
  /-- MASTER_CHANGE (R462): When the master stops being present, the lowest present position becomes master and re-measures CHOFF. -/
  | masterChange (present : Byte) (masterTime : W64)
  /-- READ (R392): NVM Read of a mapped namespace, from the write buffer or flash. -/
  | read (c : HostCmd)
  /-- WRITE (R361): NVM Write; completes once its data is in the write buffer. -/
  | write (c : HostCmd)
  /-- FLUSH (R386): NVM Flush; completes at once. -/
  | flush (c : HostCmd)
  /-- VERIFY (R392): NVM Verify of a mapped range. -/
  | verify (c : HostCmd)
  /-- WRITE_ZEROES (R392): Writes zeroes, deallocating whole units with DEAC. -/
  | writeZeroes (c : HostCmd)
  /-- DATASET_MANAGEMENT (R365): Deallocates ranges by trim entries and sub-unit zero writes. -/
  | datasetManagement (c : HostCmd)
  /-- LOAD_PROGRAM (R393): Loads an hjx-ld image as a PROGRAM object and returns its handle. -/
  | loadProgram (c : HostCmd)
  /-- PROGRAM_ACTIVATION_MANAGEMENT (R393): Activates or deactivates a loaded program index. -/
  | programActivationManagement (c : HostCmd)
  /-- EXECUTE_PROGRAM (R393): Runs a program as a RUN job on UNIT 0x8000 with all four cores. -/
  | executeProgram (c : HostCmd)
  /-- MEMORY_READ (R394): Reads a mapped Tier D window of the memory namespace. -/
  | memoryRead (c : HostCmd)
  /-- MEMORY_WRITE (R394): Writes a mapped Tier D window of the memory namespace. -/
  | memoryWrite (c : HostCmd)
  /-- CREATE_IO_SUBMISSION_QUEUE (R387): Creates an I/O submission queue within the controller's resources. -/
  | createIoSubmissionQueue (c : HostCmd)
  /-- CREATE_IO_COMPLETION_QUEUE (R387): Creates an I/O completion queue within the controller's resources. -/
  | createIoCompletionQueue (c : HostCmd)
  /-- DELETE_IO_SUBMISSION_QUEUE (R389): Deletes a submission queue after its jobs stop, counting them ABORTED. -/
  | deleteIoSubmissionQueue (c : HostCmd)
  /-- QUEUE_CLIENT (R388): Set Features 0xC1 changes the client of a submission queue. -/
  | queueClient (c : HostCmd)
  /-- POWER_MANAGEMENT (R418): Set Features selecting a power state, committed at the next saddle. -/
  | powerManagement (c : HostCmd)
  /-- TIMESTAMP (R181): Set Features Timestamp; the drive adds unpowered time to the epoch. -/
  | timestamp (c : HostCmd)
  /-- NAMESPACE_MANAGEMENT (R391): Creates, resizes or deletes a mapped namespace within the remaining capacity. -/
  | namespaceManagement (c : HostCmd)
  /-- FORMAT_NVM (R438): Formats a namespace, destroying its keys with SES 1 or 2. -/
  | formatNvm (c : HostCmd)
  /-- SANITIZE_CRYPTO_ERASE (R439): Destroys every media key, unmapping data and dropping sealed objects and extents. -/
  | sanitizeCryptoErase (c : HostCmd)
  /-- FIRMWARE_IMAGE_DOWNLOAD (R454): Stages firmware image pieces in map memory. -/
  | firmwareImageDownload (c : HostCmd)
  /-- FIRMWARE_COMMIT (R454): Checks the staged image and writes the firmware slot. -/
  | firmwareCommit (c : HostCmd) (man : Manifest)
  /-- GET_LOG_PAGE (R416): Returns SMART, error, self-test, job count, cairn log or deferred write error pages. -/
  | getLogPage (c : HostCmd)
  /-- VIRTUALIZATION_MANAGEMENT (R387): Assigns I/O queue pairs and MSI-X vectors to secondary controllers. -/
  | virtualizationManagement (c : HostCmd)
  /-- DEVICE_SELF_TEST (R409): Starts a device self-test, during which deferred write errors freeze queues. -/
  | deviceSelfTest (c : HostCmd)
  /-- SHUTDOWN_NOTIFICATION (R373): Clean shutdown: buffer programmed, map and records saved, clean marker written. -/
  | shutdownNotification (ctrl : Fin 33)
  /-- CONTROLLER_DISABLE (R389): CC.EN goes from 1 to 0; the controller's jobs stop and CSTS.RDY clears. -/
  | controllerDisable (ctrl : Fin 33)
  /-- CONTROLLER_ENABLE (R442): CC.EN is set and CSTS.RDY becomes 1 within 1 ms after S8. -/
  | controllerEnable (ctrl : Fin 33)
  /-- SADDLE (R195): At its scheduled instant or event-driven trigger, a saddle stops jobs, commits staged changes, carries and admits jobs and releases STEP.END. -/
  | saddle (dur : BitVec 24)
  /-- STEP_OVERRUN (R193): At the end of the step budget, agents not waiting, ended or failed take STEP_OVERRUN. -/
  | stepOverrun
  /-- SADDLE_FLIT_SEND (R202): At T_n minus 10 us the master sends the saddle flit with accepted chain-scope changes. -/
  | saddleFlitSend
  /-- SADDLE_FLIT_ARRIVAL (R203): A saddle flit arrives; a held saddle is then performed at once. -/
  | saddleFlitArrival (step : W64) (changes : List StagedChange)
  /-- CHAIN_LEFT (R203): With no flit within 1 ms of a held saddle, the member leaves the chain and runs as a chain of one. -/
  | chainLeft
  /-- TIME_SYNC (R180): Every 1,024 ns the root sends drive time to every island, which steers its copy. -/
  | timeSync (drift : List (Nat × Int))
  /-- EPOCH_MINUTE (R181): The drive epoch advances by one for each 60 s of drive time. -/
  | epochMinute
  /-- EPOCH_SAVE (R181): Every 16 minutes the drive writes the epoch to flash. -/
  | epochSave
  /-- COL_TRANSFER (R177): A transfer crosses a col and is delivered 2 to 3 destination cycles later. -/
  | colTransfer (src dst : BitVec 9) (payload : W64)
  /-- DIE_READ_ARRIVAL (R331): A read reaches a die; it starts, queues, or schedules a suspend of the running write. -/
  | dieReadArrival (die : Fin 512) (r : DieRead)
  /-- DIE_SUSPEND (R331): At t_s the controller suspends a program or erase to serve queued reads. -/
  | dieSuspend (die : Fin 512)
  /-- DIE_RESUME (R331): After the suspension window ends the write resumes with its overhead. -/
  | dieResume (die : Fin 512)
  /-- DIE_READ_DONE (R336): A die array read finishes; sectors are transferred and decoded, with retry steps on failure. -/
  | dieReadDone (die : Fin 512) (out : ReadOutcome)
  /-- DIE_PROGRAM_DONE (R330): A program on a die completes and the next queued write may start. -/
  | dieProgramDone (die : Fin 512) (pass : Bool)
  /-- DIE_ERASE_DONE (R330): An erase on a die completes. -/
  | dieEraseDone (die : Fin 512) (pass : Bool)
  /-- OBJ_RESEALED (R237): A case 1 or case 2 recovery writes fresh Tier F copies and returns the object to sealed. -/
  | objResealed (h : W32)
  /-- DIE_FAILED (R333): A die stops answering for 100 ms and is marked failed. -/
  | dieFailed (die : Fin 512)
  /-- QLC_WORD_LINE_PROGRAM (R166): Once four units of a QLC word line of an extent are held, the drive programs the word line. -/
  | qlcWordLineProgram (ext : W32) (block line : Nat)
  /-- BUFFER_PROGRAM (R362): Buffered host units are programmed as QLC word lines on chosen dies and their slots freed. -/
  | bufferProgram (slots : List Nat) (die : Fin 512) (pos : Fin 4096) (fails : Bool)
  /-- SUB_UNIT_MERGE (R363): Before programming, the drive reads a unit's flash copy and merges unwritten slots. -/
  | subUnitMerge (slot : Nat) (readable : Bool)
  /-- GARBAGE_COLLECTION (R367): Below 8,192 free blocks, a victim's valid units are copied, the map switched and the victim erased. -/
  | garbageCollection (die : Fin 512) (pos : Fin 4096) (toDie : Fin 512) (toPos : Fin 4096) (bad : List Nat) (programFails eraseFails : Bool)
  /-- PATROL (R377): Once per 10,080 minutes of epoch, the summary of every closed block is read. -/
  | patrol (die : Fin 512) (pos : Fin 4096) (depth : Fin 8)
  /-- WINDOW_MOVE (R350): Each WINDOW_STRIDE drive-wide erases, one die's window advances by copying one block. -/
  | windowMove (programFails : Bool)
  /-- MORAINE_SEGMENT (R274): Rows beyond MORAINE_ROWS are sealed as a MORAINE_LOG segment. -/
  | moraineSegment (index : W32)
  /-- BLOCK_MOVE (R236): Rinsis moves live object units out of a sparse block between saddles. -/
  | blockMove (h : W32) (units : List Nat)
  /-- PINNED_RELOAD (R223): Rinsis reloads a lost pinned copy from Tier F. -/
  | pinnedReload (h : W32) (tierS : Bool)
  /-- DMA_CHANNEL_RESTART (R239): A halted Tier D DMA channel restarts and its transfers rerun from the first byte. -/
  | dmaChannelRestart (stack : Fin 2) (ch : Fin 16) (persists : Bool)
  /-- TILE_SRAM_RELOAD (R424): After a kind 0 halt, Rinsis reloads the bank row from another copy or retires the tile. -/
  | tileSramReload (tile : Fin 256) (persists : Bool)
  /-- ECC_CE (R440): At most once per kind per millisecond, the drive stamps the count of correctable errors. -/
  | eccCe (kind : Fin 6)
  /-- MAP_ENTRY_REBUILT (R425): Map entries hit by a map memory error are rebuilt from flash headers. -/
  | mapEntryRebuilt
  /-- SCRUB_LINE (R427): The scree walker reads the next line of its memory at the set rate, correcting or repairing it. -/
  | scrubLine (kind : Fin 6) (m : EccHit)
  /-- TILE_FAILURE (R470): A tile fault halts its cores and Rinsis copies its state to a spare. -/
  | tileFailure (tile : Fin 256) (answers : Bool)
  /-- WATCHDOG_EXPIRY (R431): A control core gives no heartbeat for 2 ms and a firmware fault is declared. -/
  | watchdogExpiry (core : Fin 8)
  /-- CONTROL_CORE_EXCEPTION (R431): A control core takes an illegal instruction, bus error or misaligned access. -/
  | controlCoreException (core : Fin 8)
  /-- LANE_FAILURE (R429): More than 1,024 uncorrectable codewords in 1 s fail a Penla lane and the port runs on 7 lanes. -/
  | laneFailure (port : Fin 2) (lane : Fin 8)
  /-- PORT_RETRAIN (R429): After 8 failed replays of one flit, a Penla port retrains. -/
  | portRetrain (port : Fin 2)
  /-- MESH_LINK_FAILURE (R429): After 16 consecutive CRC failures a mesh link fails and traffic reroutes. -/
  | meshLinkFailure (link : BitVec 26)
  /-- RING_WRAP (R465): A port loses signal or goes down and the ring wraps its traffic through the other port. -/
  | ringWrap (port : Fin 2)
  /-- FLIT_FORWARD (R464): A Penla port forwards a flit not addressed to its drive, or answers it with a NACK. -/
  | flitForward (port : Fin 2) (dest : Fin 8) (payload : W64)
  /-- COLD_POWER_ON (R441): Power good starts S0 and the staged bring-up. -/
  | coldPowerOn (pins : PowerPins)
  /-- AUX_12V_PRESENT (R477): 12 V appears on the connector and bring-up continues within 100 ms. -/
  | aux12vPresent
  /-- FIRMWARE_CHECK (R434): At S1 the boot ROM reads and verifies the firmware slot image. -/
  | firmwareCheck (found : SlotFound)
  /-- CONTROL_CORE_START (R441): At S2 control core images load and the cores pass self-test. -/
  | controlCoreStart (started : Byte)
  /-- PARALLEL_TRAINING (R447): At S3 DRAM, map memory, flash channels, mesh and Penla train in parallel. -/
  | parallelTraining (t : Training)
  /-- TILE_SELF_TEST (R448): At S4 every physical tile is tested and the logical tile map updated. -/
  | tileSelfTest (failed : List (Fin 272))
  /-- FIRMWARE_BROADCAST (R449): At S5 core images are multicast with repair rounds and digest checks. -/
  | firmwareBroadcast (b : Broadcast)
  /-- MAP_REBUILT (R451): At S6 calibration, key binding, ledger and the clean, warm or rebuild map path run. -/
  | mapRebuilt (r : S6Found)
  /-- CHAIN_FORMATION (R461): At S7 the drive joins or forms its chain from its chain record. -/
  | chainFormation (f : S7Found)
  /-- READY (R452): At S8 CSTS.RDY is set, the SVN raised and background reloads resumed. -/
  | ready
  /-- POWER_LOSS (R371): 12 V is lost and the power-loss flush saves the buffer and records within 20 ms. -/
  | powerLoss
  /-- PERST (R466): PERST# triggers a drive reset that runs S0 to S8. -/
  | perst (testN : Bool)
  /-- HOT_RESET (R466): A hot reset or link down triggers a drive reset. -/
  | hotReset
  /-- NVM_SUBSYSTEM_RESET (R466): An NVM subsystem reset triggers a drive reset. -/
  | nvmSubsystemReset
  /-- PF_FLR (R466): Function-level reset of the PF resets its controller, every tile and engine. -/
  | pfFlr
  /-- VF_FLR (R466): Function-level reset of a VF resets that controller only. -/
  | vfFlr (vf : Fin 32)
  /-- GRPRST (R468): Host GO resets a group's tiles and engines, which are ready within 50 us. -/
  | grprst (value : W64)
  /-- ENTER (R456): RCVCTL.ENTER performs a drive reset into recovery. -/
  | enter
  /-- COMMIT_RECOVERY_IMAGE (R456): RCVCTL.COMMIT checks the staged recovery image and writes the slot. -/
  | commitRecoveryImage (path : MgmtPath) (man : Manifest)
  /-- RECOVERY_RESET (R456): RCVCTL.RESET performs a drive reset running from S0. -/
  | recoveryReset (path : MgmtPath)
  /-- RCVDATA (R456): A write to the last 8 bytes of RCVDATA completes a recovery chunk and advances CHUNK. -/
  | rcvdata (path : MgmtPath) (offset : BitVec 12) (value : W64)
  /-- IMGLEN_WRITE (R456): The first write of IMGLEN after entry claims the recovery session for its path. -/
  | imglenWrite (path : MgmtPath) (value : W64)
  /-- CLDATA_READ (R189): A read of CLDATA bits 127:64 returns the entry and advances INDEX. -/
  | cldataRead (high : Bool)
  /-- CHCLR (R327): Zeroes the six counters and RDMAX of the selected channel. -/
  | chclr (value : W64)
  /-- ECCCLR (R422): Zeroes ECCCNT of the selected memory kind. -/
  | eccclr (value : W64)
  /-- STEPCTL_WRITE (R199): A write to STEPCTL's WS fields is checked and staged for the next saddle. -/
  | stepctlWrite (value : W64) (lo hi : Bool)
  /-- REGISTER_WRITE (R11): A write to a BAR2 register with no behaviour of its own, per its access code. -/
  | registerWrite (offset : W32) (value : W64)
  /-- REGISTER_READ (R488): NVMe-MI command reading a management-region BAR2 register. -/
  | registerRead (offset : W32)
  /-- MI_REGISTER_WRITE (R488): NVMe-MI command writing RCVCTL or RCVDATA. -/
  | miRegisterWrite (offset : W32) (value : W64)
  /-- MANAGEMENT_RESET (R457): NVMe-MI command starting a drive reset within 1 ms. -/
  | managementReset
  /-- BASIC_MANAGEMENT_COMMAND (R487): NVMe-MI Basic Management Command answered by the management block. -/
  | basicManagementCommand
  /-- DEBUG_UNLOCK (R489): A valid signed answer to the debug challenge sets DEBUG at the next drive reset. -/
  | debugUnlock (slot : Fin 4) (valid : Bool)
  /-- PWRBRK_N (R478): PWRBRK_N assertion or release sets or clears the 150 W limit within 1 ms. -/
  | pwrbrkN (asserted : Bool)
  /-- POWER_MEASUREMENT (R478): Every 10 us input power is measured and issue is slowed to stay within the limit. -/
  | powerMeasurement (milliwatts : W32)
  /-- SENSOR_READ (R481): Every 1 ms sensors are read and temperature fields updated. -/
  | sensorRead (r : Readings)
  /-- THERMAL (R481): Every 10 ms the thermal limit is lowered or raised by 25 W. -/
  | thermal
  /-- THERMAL_SHUTDOWN (R457): A sensor at its shutdown point flushes and turns the rails off within 50 ms. -/
  | thermalShutdown
  /-- HOLDUP (R479): At S0 and every 24 h the hold-up bank is measured and the usable buffer slots set. -/
  | holdup (microfarads : W16)
  /-- POWER_STATE_ENTRY (R418): A committed non-operational state is entered once no job runs and the buffer is empty. -/
  | powerStateEntry
  /-- AUTONOMOUS_POWER_STATE_TRANSITION (R418): After the host's idle time the drive selects PS3 or PS4. -/
  | autonomousPowerStateTransition (ps : Fin 5)
  /-- POWER_STATE_EXIT (R418): A command arriving in a non-operational state returns the drive to its last operational state. -/
  | powerStateExit
  /-- D3HOT (R472): The function enters D3hot; jobs continue but memory requests wait for D0. -/
  | d3hot (fn : Fin 33)
  /-- FAN_OUT (R283): A chain member receives the fanned-out query vector and parameters and admits its share of the search. -/
  | fanOut (q : FanOutQuery)
  /-- COMMIT_FLIT (R460): A drive receives the FORM commit flit, marks its pending chain record valid and creates the chain namespace. -/
  | commitFlit
  /-- PROBE_FLIT_TIMEOUT (R460): The FORM probe has not returned on port 1 within 1 ms, so FORM fails with MEMBER_MISSING and nothing changes. -/
  | probeFlitTimeout
  /-- FORWARDED_CHANGE (R202): The master receives a chain-scope change staged at another member, accepts it in order and completes that staging. -/
  | forwardedChange (member : Fin 8) (change : StagedChange)
  /-- OFFER_RECEIVED (R461): A running chain receives a join offer, checks the identity digest against its record and accepts the drive at a saddle. -/
  | offerReceived (port : Fin 2) (chainId : W64) (pos : Fin 8) (digest : W128)
  /-- NACK (R137): A NACK from a reset group's router port or a Penla port arrives, and instructions waiting on that member complete with PEER_RESET or MEMBER_MISSING. -/
  | nack (member : Fin 8) (reset : Bool) (tiles : List (Fin 256))
  /-- PCIE_TRAINING_DONE (R384): The PCIe link finishes training at an allowed rate and width, or stays down when it forms neither width. -/
  | pcieTrainingDone (rate : Fin 7) (lanes : Byte)
  /-- LOST_LINK_TRAINS (R465): A lost Penla link trains again, so its neighbours unwrap at the next chain saddle. -/
  | lostLinkTrains (port : Fin 2)
  /-- SELF_TEST_OPERATION_END (R409): A Device Self-test operation ends, and deferred write errors again report on commands rather than freezing queues. -/
  | selfTestOperationEnd (ctrl : Fin 33)
  /-- RETURN_TO_D0 (R472): The function returns from D3hot to D0, and waiting result writing, completions and MSI-X messages proceed. -/
  | returnToD0 (fn : Fin 33)  deriving DecidableEq, Repr

end Sys2Proof
end

