-- ==== Sys2Proof/Decode.lean ====
section
/-! DEFINITION. Commands from table words: the opcode table gives no row of this block bits. -/
namespace Sys2Proof

/-- The command a word spells by the table's bits; the table gives bits for no row (log entry 14). -/
def decodeTableWord (_nbits _w : Nat) : Option Instr := none

end Sys2Proof
end

