-- ==== Sys2Proof/Machine/SMap.lean ====
section
/-! DEFINITION. Sparse maps and sparse byte memory: lists of key and value pairs, keys strictly rising.
Byte memory lists no byte equal to what an unlisted address reads as (0x00, log entry 1). -/
namespace Sys2Proof.Machine

/-- A sparse map by a natural key. -/
abbrev SMap (α : Type) := List (Nat × α)

/-- The entry of key `k`. -/
def find {α : Type} (k : Nat) : SMap α → Option α
  | [] => none
  | (j, v) :: m => if j = k then some v else find k m

/-- The entry of key `k`, `d` when there is none. -/
def getD {α : Type} (d : α) (m : SMap α) (k : Nat) : α := (find k m).getD d

/-- Writes key `k`, keeping the keys rising. -/
def put {α : Type} (k : Nat) (v : α) : SMap α → SMap α
  | [] => [(k, v)]
  | (j, u) :: m => if k < j then (k, v) :: (j, u) :: m else if k = j then (k, v) :: m else (j, u) :: put k v m

/-- Removes key `k`. -/
def remove {α : Type} (k : Nat) (m : SMap α) : SMap α := m.filter (fun e => e.1 != k)

/-- Writes key `k`, dropping the entry when the value is the default. -/
def putD {α : Type} [DecidableEq α] (d : α) (m : SMap α) (k : Nat) (v : α) : SMap α :=
  if v = d then remove k m else put k v m

/-- The values of a map. -/
def values {α : Type} (m : SMap α) : List α := m.map Prod.snd

/-- The keys of a map are strictly rising. -/
def rising {α : Type} : SMap α → Bool
  | [] => true
  | [_] => true
  | (j, _) :: (k, u) :: m => decide (j < k) && rising ((k, u) :: m)

/-- Sparse byte memory in canonical form. -/
abbrev Mem := List Host.Cell

/-- What an unlisted address of any memory reads as. DESIGN CHOICE, log entry 1. -/
def blankByte : Byte := 0

/-- The byte at an address. -/
def Mem.rd (m : Mem) (a : Nat) : Byte := getD blankByte m a

/-- Writes one byte, keeping the canonical form. -/
def Mem.wr (m : Mem) (a : Nat) (b : Byte) : Mem := putD blankByte m a b

/-- The canonical form: addresses strictly rising, no entry equal to what an unlisted address reads as. -/
def Mem.wf (m : Mem) : Bool := rising m && m.all (fun c => c.2 != blankByte)

/-- `n` bytes from address `a`, lowest address first. -/
def Mem.rdBytes (m : Mem) (a : Nat) : Nat → List Byte
  | 0 => []
  | n + 1 => m.rd a :: Mem.rdBytes m (a + 1) n

/-- Writes bytes from address `a` upward. -/
def Mem.wrBytes (m : Mem) (a : Nat) : List Byte → Mem
  | [] => m
  | b :: bs => Mem.wrBytes (m.wr a b) (a + 1) bs

/-- A little-endian number of bytes (R8). -/
def leNat : List Byte → Nat
  | [] => 0
  | b :: bs => b.toNat + 256 * leNat bs

/-- The `n` little-endian bytes of a number (R8). -/
def leBytes : Nat → Nat → List Byte
  | 0, _ => []
  | n + 1, x => BitVec.ofNat 8 x :: leBytes n (x / 256)

/-- The little-endian number of `n` bytes at address `a` (R8). -/
def Mem.rdNat (m : Mem) (a n : Nat) : Nat := leNat (m.rdBytes a n)

/-- Writes a number as `n` little-endian bytes at address `a` (R8). -/
def Mem.wrNat (m : Mem) (a n x : Nat) : Mem := m.wrBytes a (leBytes n x)

/-- Bytes as a memory from address 0. -/
def memOf (bs : List Byte) : Mem := Mem.wrBytes [] 0 bs

/-- Bits `hi` down to `lo` of a number. -/
def bitsOf (x hi lo : Nat) : Nat := (x >>> lo) % 2 ^ (hi + 1 - lo)

/-- The list 0, 1, …, n − 1. -/
def upTo (n : Nat) : List Nat := List.range n

/-- The smallest number of `b`-sized parts that hold `a` (0 when `b` is 0). -/
def ceilDiv (a b : Nat) : Nat := (a + b - 1) / b

/-- `a` rounded up to a multiple of `b`. -/
def padTo (b a : Nat) : Nat := ceilDiv a b * b

end Sys2Proof.Machine
end

