-- ==== Sys2Proof/Machine/Digest.lean ====
section
/-! DEFINITION. SHAKE256 with a 512-bit output (FIPS 202, named by 14 and R229) and CRC-32C (R230, R358). -/
namespace Sys2Proof.Machine

/-- Round constants of Keccak-f[1600] (FIPS 202). -/
def keccakRc : List W64 :=
  [0x0000000000000001, 0x0000000000008082, 0x800000000000808A, 0x8000000080008000, 0x000000000000808B, 0x0000000080000001,
   0x8000000080008081, 0x8000000000008009, 0x000000000000008A, 0x0000000000000088, 0x0000000080008009, 0x000000008000000A] ++
  [0x000000008000808B, 0x800000000000008B, 0x8000000000008089, 0x8000000000008003, 0x8000000000008002, 0x8000000000000080,
   0x000000000000800A, 0x800000008000000A, 0x8000000080008081, 0x8000000000008080, 0x0000000080000001, 0x8000000080008008]

/-- Rotation of lane x + 5y (FIPS 202). -/
def keccakRot : List Nat :=
  [0, 1, 62, 28, 27, 36, 44, 6, 55, 20, 3, 10, 43, 25, 39, 41, 45, 15, 21, 8, 18, 2, 61, 56, 14]

/-- Lane `i` of a Keccak state. -/
def lane (a : List W64) (i : Nat) : W64 := (a[i]?).getD 0

/-- One round of Keccak-f[1600] (FIPS 202: theta, rho, pi, chi, iota). -/
def keccakRound (a : List W64) (rc : W64) : List W64 :=
  let c := (List.range 5).map (fun x => lane a x ^^^ lane a (x + 5) ^^^ lane a (x + 10) ^^^ lane a (x + 15) ^^^ lane a (x + 20))
  let d := (List.range 5).map (fun x => lane c ((x + 4) % 5) ^^^ (lane c ((x + 1) % 5)).rotateLeft 1)
  let t := (List.range 25).map (fun i => (lane a i ^^^ lane d (i % 5)).rotateLeft ((keccakRot[i]?).getD 0))
  let b := (List.range 25).map (fun i => lane t (((i % 5) + 3 * (i / 5)) % 5 + 5 * (i % 5)))
  let e := (List.range 25).map (fun i =>
    let y := i / 5 * 5
    lane b i ^^^ (~~~ lane b (y + (i % 5 + 1) % 5) &&& lane b (y + (i % 5 + 2) % 5)))
  (lane e 0 ^^^ rc) :: e.drop 1

/-- Keccak-f[1600]. -/
def keccakF (a : List W64) : List W64 := keccakRc.foldl keccakRound a

/-- Absorbs one 136-byte block. -/
def absorbBlock (a : List W64) (bs : List Byte) : List W64 :=
  keccakF ((List.range 25).map (fun i => if i < 17 then lane a i ^^^ BitVec.ofNat 64 (leNat ((bs.drop (8 * i)).take 8)) else lane a i))

/-- Absorbs a padded message, block by block. -/
def absorbAll : Nat → List W64 → List Byte → List W64
  | 0, a, _ => a
  | n + 1, a, bs => absorbAll n (absorbBlock a (bs.take 136)) (bs.drop 136)

/-- The padding of SHAKE256: 1111, then 10*1 (FIPS 202). -/
def shakePad (n : Nat) : List Byte :=
  let k := 136 - n % 136
  if k = 1 then [0x9F] else 0x1F :: (List.replicate (k - 2) 0 ++ [0x80])

/-- SHAKE256 of a message, 64 bytes of output. -/
def shake256 (m : List Byte) : List Byte :=
  let p := m ++ shakePad m.length
  let a := absorbAll (p.length / 136) (List.replicate 25 0) p
  ((a.take 8).flatMap (fun x => leBytes 8 x.toNat))

/-- SHAKE256 as a 512-bit little-endian number. -/
def digestOf (m : List Byte) : BitVec 512 := BitVec.ofNat 512 (leNat (shake256 m))

/-- One bit step of CRC-32C, reflected polynomial 0x82F63B78. -/
def crcStep : Nat → W32 → W32
  | 0, c => c
  | n + 1, c => crcStep n (if c.getLsbD 0 then (c >>> 1) ^^^ 0x82F63B78 else c >>> 1)

/-- CRC-32C of bytes. -/
def crc32c (bs : List Byte) : W32 := ~~~ (bs.foldl (fun c b => crcStep 8 (c ^^^ b.setWidth 32)) (BitVec.allOnes 32))

end Sys2Proof.Machine
end

