-- ==== Sys2Proof/Machine/Fp.lean ====
section
/-! DEFINITION. Binary floating point on exact values: decode, one rounding to nearest even, arithmetic and
comparison (R39 to R43, R46, R146, R148). A finite value is sign, magnitude m and exponent e: m × 2^e. -/
namespace Sys2Proof.Machine

/-- A float format (R39). -/
structure Fmt where
  ebits : Nat
  mbits : Nat
  deriving DecidableEq, Repr

/-- FP32, BF16, FP16 and E5M2 (R39). -/
def fmtF32 : Fmt := ⟨8, 23⟩
def fmtBf16 : Fmt := ⟨8, 7⟩
def fmtF16 : Fmt := ⟨5, 10⟩
def fmtE5m2 : Fmt := ⟨5, 2⟩

/-- Bits of the format. -/
def Fmt.width (f : Fmt) : Nat := 1 + f.ebits + f.mbits
/-- Exponent bias. -/
def Fmt.bias (f : Fmt) : Nat := 2 ^ (f.ebits - 1) - 1
/-- +infinity. -/
def Fmt.inf (f : Fmt) : Nat := (2 ^ f.ebits - 1) * 2 ^ f.mbits
/-- The canonical NaN (R40). -/
def Fmt.nan (f : Fmt) : Nat := f.inf + 2 ^ (f.mbits - 1)
/-- The sign bit's weight. -/
def Fmt.signBit (f : Fmt) : Nat := 2 ^ (f.ebits + f.mbits)

/-- The value of a pattern. -/
inductive FVal where
  | nan
  | inf (neg : Bool)
  | num (neg : Bool) (m : Nat) (e : Int)
  deriving DecidableEq, Repr

/-- Decodes a pattern (R39, R40). -/
def Fmt.decode (f : Fmt) (x : Nat) : FVal :=
  let neg := x / f.signBit % 2 == 1
  let e := x / 2 ^ f.mbits % 2 ^ f.ebits
  let m := x % 2 ^ f.mbits
  if e = 2 ^ f.ebits - 1 then (if m = 0 then .inf neg else .nan)
  else if e = 0 then .num neg m (1 - f.bias - f.mbits)
  else .num neg (2 ^ f.mbits + m) (e - f.bias - f.mbits)

/-- What a float result counts (R47). -/
inductive Ev where
  | none | sat | flush | ovf | nanp | inv | nanc
  deriving DecidableEq, Repr

/-- `n / d` rounded to the nearest integer, ties to even. -/
def rne (n d : Nat) : Nat :=
  let q := n / d
  let r := n % d
  if d < 2 * r || (2 * r == d && q % 2 == 1) then q + 1 else q

/-- The pattern with a sign. -/
def Fmt.signed (f : Fmt) (neg : Bool) (mag : Nat) : Nat := if neg then f.signBit + mag else mag

/-- Rounds m × 2^e, m not 0, to nearest even: the magnitude pattern; infinity at or beyond the overflow
threshold (R42). -/
def Fmt.roundMag (f : Fmt) (m : Nat) (e : Int) : Nat :=
  let top : Int := Nat.log2 m + e
  let emin : Int := 1 - f.bias
  let lead := if top < emin then emin else top
  let ulp : Int := lead - f.mbits
  let n := if ulp ≤ e then m * 2 ^ (e - ulp).toNat else rne m (2 ^ (ulp - e).toNat)
  let mag := (lead + f.bias - 1).toNat * 2 ^ f.mbits + n
  if f.inf ≤ mag then f.inf else mag

/-- Encodes a value with one rounding (R42, R46): the pattern and what it counts. -/
def Fmt.encode (f : Fmt) (ftz : Bool) : FVal → Nat × Ev
  | .nan => (f.nan, .nanp)
  | .inf neg => (f.signed neg f.inf, .none)
  | .num neg m e =>
    if m = 0 then (f.signed neg 0, .none) else
    let mag := f.roundMag m e
    if mag = f.inf then (f.signed neg f.inf, .ovf)
    else if ftz && decide (0 < mag) && decide (mag < 2 ^ f.mbits) then (f.signed neg 0, .flush)
    else (f.signed neg mag, .none)

/-- The signed integer m of m × 2^e. -/
def sgn (neg : Bool) (m : Nat) : Int := if neg then -(m : Int) else m

/-- Negation. -/
def FVal.neg : FVal → FVal
  | .nan => .nan
  | .inf s => .inf !s
  | .num s m e => .num (!s) m e

/-- Exact sum; an exact zero sum is +0 unless both operands are negative (IEEE 754-2019). -/
def FVal.add : FVal → FVal → FVal
  | .nan, _ => .nan
  | _, .nan => .nan
  | .inf a, .inf b => if a = b then .inf a else .nan
  | .inf a, .num _ _ _ => .inf a
  | .num _ _ _, .inf b => .inf b
  | .num a m e, .num b n k =>
    let lo := if e < k then e else k
    let s := sgn a (m * 2 ^ (e - lo).toNat) + sgn b (n * 2 ^ (k - lo).toNat)
    if s = 0 then .num (a && b) 0 lo else .num (decide (s < 0)) s.natAbs lo

/-- Exact product. -/
def FVal.mul : FVal → FVal → FVal
  | .nan, _ => .nan
  | _, .nan => .nan
  | .inf a, .inf b => .inf (a != b)
  | .inf a, .num b n _ => if n = 0 then .nan else .inf (a != b)
  | .num a m _, .inf b => if m = 0 then .nan else .inf (a != b)
  | .num a m e, .num b n k => .num (a != b) (m * n) (e + k)

/-- Quotient, to 80 or more significant bits with a last bit that says whether it is inexact. -/
def FVal.div : FVal → FVal → FVal
  | .nan, _ => .nan
  | _, .nan => .nan
  | .inf _, .inf _ => .nan
  | .inf a, .num b _ _ => .inf (a != b)
  | .num a _ _, .inf b => .num (a != b) 0 0
  | .num a m e, .num b n k =>
    if n = 0 then (if m = 0 then .nan else .inf (a != b)) else
    let sh := 80 + Nat.log2 n
    let q := (m * 2 ^ sh) / n
    let r := (m * 2 ^ sh) % n
    .num (a != b) (2 * q + if r = 0 then 0 else 1) (e - k - sh - 1)

/-- The integer square root of `n`, found bit by bit from bit `i − 1` down, starting from `r`. -/
def isqrtFrom (n : Nat) : Nat → Nat → Nat
  | 0, r => r
  | i + 1, r => isqrtFrom n i (if (r + 2 ^ i) * (r + 2 ^ i) ≤ n then r + 2 ^ i else r)

/-- The integer square root. -/
def isqrt (n : Nat) : Nat := isqrtFrom n (Nat.log2 n / 2 + 1) 0

/-- Square root, to 60 or more significant bits with a last bit that says whether it is inexact. -/
def FVal.sqrt : FVal → FVal
  | .nan => .nan
  | .inf s => if s then .nan else .inf false
  | .num s m e =>
    if m = 0 then .num s 0 e else if s then .nan else
    let odd : Nat := (e % 2).toNat
    let x := m * 2 ^ (odd + 120)
    let r := isqrt x
    .num false (2 * r + if r * r = x then 0 else 1) ((e - odd - 120) / 2 - 1)

/-- Whether a value is finite. -/
def FVal.finite : FVal → Bool
  | .num _ _ _ => true
  | _ => false

/-- Whether a value is infinite. -/
def FVal.isInf : FVal → Bool
  | .inf _ => true
  | _ => false

/-- The FP32 value of a lane. -/
def f32 (x : W32) : FVal := fmtF32.decode x.toNat

/-- One correctly rounded FP32 result of the given inputs (R40, R47, R148): OVF counts an infinity formed from
finite inputs, a finite non-zero value divided by zero included. -/
def f32Out (ftz : Bool) (ins : List FVal) (v : FVal) : W32 × Ev :=
  let (bits, ev) := fmtF32.encode ftz v
  let fin := ins.all FVal.finite
  let ev := if v.isInf && fin then .ovf else if ev == .ovf && !fin then .none else ev
  (BitVec.ofNat 32 bits, ev)

/-- The FP32 operations of R146 and R147: add, subtract, multiply, fused multiply-add a × b + c, divide, square root. -/
def fAdd (ftz : Bool) (a b : W32) : W32 × Ev := f32Out ftz [f32 a, f32 b] ((f32 a).add (f32 b))
def fSub (ftz : Bool) (a b : W32) : W32 × Ev := f32Out ftz [f32 a, f32 b] ((f32 a).add (f32 b).neg)
def fMul (ftz : Bool) (a b : W32) : W32 × Ev := f32Out ftz [f32 a, f32 b] ((f32 a).mul (f32 b))
def fFma (ftz : Bool) (a b c : W32) : W32 × Ev := f32Out ftz [f32 a, f32 b, f32 c] (((f32 a).mul (f32 b)).add (f32 c))
def fDiv (ftz : Bool) (a b : W32) : W32 × Ev := f32Out ftz [f32 a, f32 b] ((f32 a).div (f32 b))
def fSqrt (ftz : Bool) (a : W32) : W32 × Ev := f32Out ftz [f32 a] (f32 a).sqrt

/-- FP32 addition and multiplication rounded to nearest even, without flush (R46: intermediate roundings). -/
def rAdd (a b : W32) : W32 := (fAdd false a b).1
def rSub (a b : W32) : W32 := (fSub false a b).1
def rMul (a b : W32) : W32 := (fMul false a b).1

/-- Whether a pattern is a NaN. -/
def isNan (x : W32) : Bool := x.extractLsb' 23 8 == 255 && x.extractLsb' 0 23 != 0
/-- Whether a pattern is infinite or NaN. -/
def nonFinite (x : W32) : Bool := x.extractLsb' 23 8 == 255

/-- The order of FP32 patterns that are not NaN; the two zeros are equal. -/
def fKey (x : W32) : Int := sgn (x.getLsbD 31) (x.toNat % 2147483648)
/-- FP32 compares; NaN compares false (R146). -/
def fEq (a b : W32) : Bool := !isNan a && !isNan b && fKey a == fKey b
def fLt (a b : W32) : Bool := !isNan a && !isNan b && decide (fKey a < fKey b)
def fLe (a b : W32) : Bool := !isNan a && !isNan b && decide (fKey a ≤ fKey b)

/-- The canonical FP32 NaN (R40). -/
def nan32 : W32 := 0x7FC00000
/-- IEEE 754-2019 maximum and minimum (R146): NaN in, NaN out; +0 above −0. -/
def fMax (a b : W32) : W32 :=
  if isNan a || isNan b then nan32
  else if fKey a < fKey b || (fKey a == fKey b && a.getLsbD 31) then b else a
def fMin (a b : W32) : W32 :=
  if isNan a || isNan b then nan32
  else if fKey b < fKey a || (fKey a == fKey b && b.getLsbD 31) then b else a

/-- An FP32 result that needed no rounding (R46, R148): flush and NaN counts. -/
def plainOut (ftz : Bool) (x : W32) : W32 × Ev :=
  if isNan x then (x, .nanp)
  else if ftz && x.extractLsb' 23 8 == 0 && x.extractLsb' 0 23 != 0 then (x &&& 0x80000000, .flush)
  else (x, .none)

/-- The pairwise tree of R66, one level. -/
def treeLevel : List W32 → List W32
  | a :: b :: xs => rAdd a b :: treeLevel xs
  | xs => xs

/-- The tree of R66, at most `fuel` levels. -/
def treeGo : Nat → List W32 → W32
  | _, [] => 0
  | _, [x] => x
  | 0, x :: _ => x
  | n + 1, xs => treeGo n (treeLevel xs)

/-- The tree of R66; +0 for no element (R147). -/
def treeSum (xs : List W32) : W32 := if isNan (treeGo xs.length xs) then nan32 else treeGo xs.length xs

end Sys2Proof.Machine
end

