-- ==== Sys2Proof/Machine/CoreState.lean ====
section
/-! DEFINITION. The state of the agents: sequencer cores, tiles, traversal contexts, walks and engines
(05_abasel_model, 04_tile_array, 09_vector_search). Each field comment reads: what | width | rule, file | reset. -/
namespace Sys2Proof.Machine

/-- What an agent waits for. -/
inductive Wait where
  /-- FWAIT or FWAITC on a flag (R143): the flag, and whether the wait clears it -/
  | flag (n : BitVec 4) (clears : Bool)
  /-- BAR on a core mask (R116) -/
  | barrier (mask : BitVec 4)
  /-- STRM.WAIT on a descriptor (R157) -/
  | stream (d : BitVec 5)
  /-- STEP.END until the next saddle (R176) -/
  | stepEnd
  /-- Tier D or flash data for the record slot (R117); what it fetches, and where it lands -/
  | data
  /-- TRV.POP while the walk is live (R260): the destination scalar and predicate registers -/
  | pop (d : BitVec 5) (p : BitVec 5)
  deriving DecidableEq, Repr

/-- Whether an agent runs (R104, R109, R129, R144). -/
inductive Run where
  | idle
  | running
  /-- waiting, and whether the waiting instruction carries STAMP (R131) -/
  | waiting (w : Wait) (stamp : Bool)
  | ended
  | failed
  deriving DecidableEq, Repr

/-- The scalar side that a sequencer core and a traversal context share (R106). -/
structure Regs where
  /-- s0–s31 | 32 × 64 | R106, 05 | 0 (R109) -/
  s : SMap W64 := []
  /-- p0–p7 | 8 × 64 | R106, 05 | 0 (R109) -/
  p : SMap W64 := []
  /-- program counter, a word index | 13 | R106, 05 | 16 at program start (R105) -/
  count : BitVec 13 := 16
  /-- the model's own field: the bits above the counter of a target outside the store, which traps when it is fetched (06, Branches) | 51 | R143, 06 | 0 -/
  beyond : BitVec 51 := 0
  /-- STATUS: COUNT, FIRST, LAST | 64 | R123, 05 | 0 -/
  status : W64 := 0
  /-- TCTL: INH, STRICT | 64 | R128, 05 | 0 -/
  tctl : W64 := 0
  /-- TCAUSE: ASYNC, VECTOR | 64 | R128, 05 | 0 -/
  tcause : W64 := 0
  /-- TPC | 64 | R107, 05 | 0 (R109) -/
  tpc : W64 := 0
  /-- TVAL | 64 | R107, R125, 05 | DESIGN CHOICE 0, log entry 2 -/
  tval : W64 := 0
  /-- whether the agent runs | a name | R104, R129, R144, 05 | idle -/
  run : Run := .idle
  /-- the job whose program the agent runs | 22 | R104, R107 JOB, 05 | none -/
  job : Option Nat := none
  /-- an outcome found after issue that is non-OK under STRICT, waiting to trap | 16 | R126, 05 | none -/
  asyncRefused : Option W16 := none
  deriving DecidableEq, Repr

/-- A sequencer core (R106, R107). -/
structure Core where
  /-- scalar, predicate, trap state | - | R106, 05 | as Regs -/
  r : Regs := {}
  /-- g: group ID of the unit that the program runs on | 16 | R106, 05 | 0 -/
  g : W16 := 0
  /-- the PROGRAM object whose text the core runs | 32 | R104, R105, 05 | 0 -/
  prog : W32 := 0
  /-- v0–v31, lane l of register n at key 64n + l | 32 × 64 × 32 | R106, 05 | 0 (R109) -/
  v : SMap W32 := []
  /-- acc0–acc3, element e of bank b at key 256b + e | 4 × 256 × 32 | R106, 05 | 0 (R109) -/
  acc : SMap W32 := []
  /-- d0–d15 | 16 × 256 | R106, R114, 05 | 0 (R109) -/
  d : SMap W256 := []
  /-- ACTL: FTZ | 64 | R45, 02 | 0 -/
  actl : W64 := 0
  /-- CREC | 128 | R47, 02 | 0 -/
  crec : W128 := 0
  /-- EXT0–EXT3 | 4 × 128 | R49, 02 | MAX −infinity, MIN +infinity, counts 0 -/
  ext : SMap W128 := []
  /-- SRSTATE: SEED, CTR | 128 | R71, 03 | 0 -/
  srstate : W128 := 0
  /-- the armed spur record's address | 21 | R155, 06 | none -/
  spur : Option Nat := none
  /-- banks a matrix instruction of the core keeps busy, one entry per instruction | 2 each | R93, 04 | none -/
  busy : List Nat := []
  /-- the instruction, by its word, that waits to be issued for stream transfers of the core, by descriptor, or for the shared array (16) | - | R93, R98, R113, R115, R240, 05 | none -/
  awaits : Option (W64 × List Nat) := none
  /-- group operations issued so far, by kind (pairs the replicas' calls, R170) | count | R170, 06 | 0 -/
  calls : SMap Nat := []
  /-- drive time at which the core last read TIME.RD | 64 | R173, 06 | 0 -/
  lastTime : W64 := 0
  deriving DecidableEq, Repr

/-- The formats of a matrix operand pair (R52). -/
inductive Pair where
  | q4aq4a | q2aq4a | ternq4a | q2a | tern | mxfp4
  deriving DecidableEq, Repr

/-- The three forms of the array (R79). -/
inductive AForm where
  | standard | wide | deep
  deriving DecidableEq, Repr

/-- Where the panels of a matrix instruction lie (R154, R155): first bank rows. -/
structure Panels where
  a : Nat
  am : Nat
  w : Nat
  wm : Nat
  deriving DecidableEq, Repr

/-- One entry of a span of the spur map (R61). -/
structure SpurSpan where
  count : Nat
  chans : List Nat
  deriving DecidableEq, Repr

/-- An entry of the shared array queue (R112): the instruction, the operands read at issue, the issuing
core and the FTZ value sampled at placement. -/
structure QEntry where
  core : Nat
  job : Nat
  word : Nat
  stamp : Bool
  pair : Pair
  form : AForm
  bank : Nat
  accumulate : Bool
  dfmt : Nat
  ftz : Bool
  m : Nat
  n : Nat
  k : Nat
  /-- the tree of R66 is still to be formed -/
  red : Bool
  /-- the tree values of R66 have replaced its own partials -/
  given : Bool := false
  /-- members taking part, n of R65 -/
  taking : Nat
  /-- which RED matrix instruction of its core this is, so that replicas pair up -/
  ordinal : Nat
  rank : Nat
  panels : Panels
  spur : Option (Panels × List SpurSpan)
  started : Bool
  /-- the chain values, keyed 256 × row + column, each with whether all it read was finite; formed when the array
  starts the entry, and under RED replaced by the tree values once every member has its partials (R66) -/
  outs : List (Nat × W32 × Bool)
  /-- elements read as TERN 0b10 (R55) -/
  inv : Nat
  deriving DecidableEq, Repr

/-- A tile (R94, R102, R105, R111), by logical index. -/
structure Tile where
  /-- tile SRAM, 2 MiB, by byte address | 2^21 × 8 | R94, 04; R212, 08 | DESIGN CHOICE 0x00, log entry 1 -/
  sram : Mem := []
  /-- instruction store: texts loaded, by PROGRAM handle | 8,192 × 64 | R105, 05 | empty -/
  texts : SMap (List W64) := []
  /-- cores 0–3 | 4 cores | R103, 05 | as Core -/
  cores : SMap Core := []
  /-- event flags f0–f15 of each job on the tile | 16 per job | R116, 05 | 0 -/
  flags : SMap W16 := []
  /-- shared array queue, oldest first | 16 entries | R112, 05 | empty -/
  queue : List QEntry := []
  /-- AFORM.FORM | 2 | R102, 04 | 0 standard -/
  form : AForm := .standard
  /-- AFORM.SPUR | 1 | R102, 04 | 0 -/
  spurOn : Bool := false
  /-- AFORM.REFORMS | 32 | R102, 04 | 0 -/
  reforms : W32 := 0
  /-- drive time from which ACYC counts tile cycles | 64 | R102, 04 | 0 (ACYC 0) -/
  acycFrom : W64 := 0
  /-- AMAC | 64 | R102, 04 | 0 -/
  amac : W64 := 0
  /-- ABWAIT.WAITS: bank cycles waited (log entry 145) | 64 | R102, 04 | 0 -/
  abwait : W64 := 0
  /-- the tile is halted by an error in its SRAM or by a tile fault | address or fault | R424, R470, 14, 15 | none -/
  halted : Option (Option Nat) := none
  /-- the core whose transfer or array instruction met that error | 2 | R424, 14 | none -/
  haltBy : Option Nat := none
  /-- a spare holds a copy and takes the index at the next saddle | physical index | R470, 15 | none -/
  spare : Option Nat := none
  /-- the failed tile did not answer and has been reset already | 1 | R470, 15 | 0 -/
  dead : Bool := false
  /-- the index is lost: no spare was left | 1 | R470 TILE_LOST, 15 | 0 -/
  lost : Bool := false
  /-- reset generation of the tile's group packets | count | R468 step 4, 15 | 0 -/
  generation : Nat := 0
  /-- the tile's physical index, by the logical tile map | 9 | R3, R448, 15 | 68 × (t div 64) + t mod 64 -/
  phys : Option Nat := none
  deriving DecidableEq, Repr

/-- A neighbour that TRV.SCORE scored (R261): its ID, coarse distance and label. -/
structure Scored where
  node : Nat
  dist : Nat
  deriving DecidableEq, Repr

/-- A traversal context (R106, R108, R168). -/
structure Ctx where
  /-- scalar, predicate, trap state | - | R106, 05 | as Regs -/
  r : Regs := {}
  /-- record slot | 2 KiB | R168, 06 | DESIGN CHOICE 0x00, log entry 1 -/
  slot : Mem := []
  /-- neighbours scored from the slot and not yet pushed | list | R261, 09 | empty -/
  scored : List Scored := []
  /-- data that will land in the slot: offset and bytes, or an object and offset to read | - | R117, R168 | none -/
  fetch : Option (Nat × W32 × Nat × Nat) := none
  /-- drive time at which the context last read TIME.RD | 64 | R173, 06 | 0 -/
  lastTime : W64 := 0
  /-- destination of the outcome of the waiting access: scalar, or predicate of TRV.TOMB with its node | - | R168 | none -/
  dest : Option (Nat × Bool × Nat) := none
  /-- layer of the record in the slot: 0 base layer, else the upper layer | 4 | R249, R254, R266 | 0 -/
  layer : Nat := 0
  /-- the access that the context waits for is held by a halted Tier D channel | 1 | R240, R423 | 0 -/
  halted : Bool := false
  deriving DecidableEq, Repr

/-- A candidate-queue entry (R258). -/
structure QCand where
  node : Nat
  d : Nat
  exp : Bool
  deriving DecidableEq, Repr

/-- A result-list entry: node, distance, key, label and stored vector (R262). -/
structure WalkResult where
  node : Nat
  d : Nat
  key : W64
  label : Byte
  vcode : List Byte
  vmeta : List W32
  deriving DecidableEq, Repr

/-- A walk slot and its structures in walk memory (R257). -/
structure Walk where
  /-- the shard walked | 4 | R257, 09 | - -/
  shard : Nat := 0
  /-- distance tables, T[j][c] at 16j + c | M × 16 × 8 | R252, 09 | empty -/
  tables : List Nat := []
  /-- LABELMASK | 256 | R244, 09 | 0 -/
  labelMask : W256 := 0
  /-- PENALTY | 16 | R244, 09 | 0 -/
  penalty : Nat := 0
  /-- local beam L_e | count | R257, 09 | 0 -/
  le : Nat := 0
  /-- QCAP | count | R257, 09 | 64 -/
  qcap : Nat := 64
  /-- VCAP | count | R257, 09 | 1,024 -/
  vcap : Nat := 1024
  /-- POOL, the result list's capacity | count | R257, 09 | 0 -/
  pool : Nat := 0
  /-- contexts W of the walk | count | R244, 09 | 0 -/
  width : Nat := 0
  /-- rounds mode | 1 | R264, 09 | 0 -/
  rounds : Bool := false
  /-- candidate queue in order | 64-bit entries | R258, 09 | empty -/
  queue : List QCand := []
  /-- visited set | 40-bit IDs | R259, 09 | empty -/
  visited : List Nat := []
  /-- result list in order | entries | R262, 09 | empty -/
  results : List WalkResult := []
  /-- the walk overflowed | 1 | R258, R259, 09 | 0 -/
  overflowed : Bool := false
  /-- WALK_STARTED was stamped | 1 | R26, 01 | 0 -/
  started : Bool := false
  /-- the descent state | 1 | R266, 09 | 1 when LAYERS is not 0 -/
  descent : Bool := false
  /-- upper layer of the descent | 4 | R254, R266 | LAYERS -/
  layer : Nat := 0
  /-- forwards sent, and received | counts | R263, 09 | 0 -/
  sent : Nat := 0
  received : Nat := 0
  /-- rounds mode: pushes held until the round's end, with their context, and whether they are of an upper layer | list | R264, 09 | empty -/
  heldPush : List (Nat × QCand × Bool) := []
  /-- rounds mode: forwards received and held until the next round, with their source shard | list | R264, 09 | empty -/
  heldFwd : List (Nat × QCand) := []
  /-- rounds mode: entries popped in this round | count | R264, 09 | 0 -/
  popped : Nat := 0
  /-- the walk has ended | 1 | R263, 09 | 0 -/
  ended : Bool := false
  deriving DecidableEq, Repr

/-- A neighbour forwarded over the mesh to the walk that owns it (R261). -/
structure Forward where
  /-- source and destination clusters, and the shard walked by the source -/
  src : Nat
  shard : Nat
  dst : Nat
  job : Nat
  cand : QCand
  deriving DecidableEq, Repr

/-- A traversal engine (R117, R257). -/
structure Engine where
  /-- instruction store: the walk program's text | 8,192 × 64 | R105, 05; R449, 15 | empty until S5 -/
  text : List W64 := []
  /-- contexts 0–511 | 512 contexts | R103, R117, 05 | as Ctx -/
  ctxs : SMap Ctx := []
  /-- walk slots by job | 512 slots | R257, 09 | empty -/
  walks : SMap Walk := []
  deriving DecidableEq, Repr

end Sys2Proof.Machine
end

