-- ==== Sys2Proof/Machine/JobState.lean ====
section
/-! DEFINITION. The state of cairns, time, settings, jobs, records and host queues (01, 07, 10, 13).
Each field comment reads: what | width | rule, file | reset. -/
namespace Sys2Proof.Machine

/-- A cairn (R185). -/
structure Cairn where
  time : W64
  island : BitVec 12
  seq : W16
  kind : Byte
  detail : BitVec 28
  deriving DecidableEq, Repr

/-- An entry of the cairn log ring: its 16 bytes, and whether CLDATA has returned it (R188, R189). -/
structure LogEntry where
  bits : W128
  seen : Bool
  /-- entries of its group (a cairn and its attachments) that follow it -/
  rest : Nat
  deriving DecidableEq, Repr

/-- An event whose agent stalls until its island is locked (R180), or whose cairn is held until map memory is trained (R444). -/
structure HeldCairn where
  source : BitVec 9
  kind : Byte
  detail : BitVec 28
  attach : List W128
  deriving DecidableEq, Repr

/-- An island (R180, R186). -/
structure Island where
  /-- SEQ | 16 | R186, 07 | 0 -/
  seq : W16 := 0
  /-- the island's time minus the root's, in half ns | signed | R180, 07 | 0 (loads the root's time) -/
  skew : Int := 0
  /-- locked | 1 | R180, 07 | 0 -/
  locked : Bool := false
  /-- the least TIME that the island's next cairn may carry: that of its last, or of a saddle that has begun | 64 | R186, R192, 07 | 0 -/
  last : W64 := 0
  deriving DecidableEq, Repr

/-- Time and the cairn log (07). -/
structure TimeSt where
  /-- drive time, ns (TIME) | 64 | R179, R184, 07 | 0 -/
  now : W64 := 0
  /-- drive epoch, minutes (EPOCH) | 32 | R181, R184, 07 | DESIGN CHOICE 0 (set at manufacture), log entry 3 -/
  epoch : W32 := 0
  /-- drive time at which the epoch next advances | 64 | R181, 07 | 60 s after drive time starts -/
  minuteAt : W64 := 60000000000
  /-- the epoch's stored value in flash | 32 | R181, 07 | DESIGN CHOICE 0, log entry 3 -/
  epochSaved : W32 := 0
  /-- the last host timestamp recorded, with the epoch then, in minutes | 64 + 32 | R181, 07 | none -/
  hostStamp : Option (Nat × Nat) := none
  /-- CHOFF | 64 | R182, R184, 07 | 0 -/
  choff : W64 := 0
  /-- islands by source | 9-bit keys | R15, R180, 01, 07 | as Island -/
  islands : SMap Island := []
  /-- cairn log ring, newest first | 4,194,304 × 128 | R188, 07 | empty -/
  log : List LogEntry := []
  /-- CLWRITE | 64 | R189, 07 | 0 -/
  written : W64 := 0
  /-- CLLOST | 64 | R189, 07 | 0 -/
  lost : W64 := 0
  /-- CLREAD | 22 | R189, 07 | 0 -/
  readAt : BitVec 22 := 0
  /-- error log ring, newest first | 256 × 128 | R446, 15 | empty -/
  errors : List W128 := []
  /-- ERRHEAD | 64 | R446, 15 | 0 -/
  errHead : W64 := 0
  /-- cairns that wait for their island's lock | list | R180, 07 | empty -/
  stalled : List HeldCairn := []
  /-- cairns with their attachments, held until map memory is trained | list | R444, 15 | empty -/
  unlogged : List (W128 × List W128) := []
  /-- map memory is trained, so cairns reach the log | 1 | R444, 15 | 0 -/
  logUp : Bool := false
  /-- transfers in the cols, by source × 512 + destination: payload, and in 168ths of a ns (every clock's period is a whole number of them) the
  instants at which the destination takes it and at which it is delivered | list | R177, R178, 07 | empty -/
  cols : SMap (List (W64 × Nat × Nat)) := []
  deriving DecidableEq, Repr

/-- A group of the group table (R5, R133, R134). -/
structure Group where
  level : Nat
  members : List W16
  tiles : List Nat
  drives : List Nat
  deriving DecidableEq, Repr

/-- A pending entry of the group table (R134): a create, a free, or a free that replaced a pending create. -/
inductive PendGroup where
  | create (g : Group)
  | free
  | dead
  deriving DecidableEq, Repr

/-- Settings: live and staged copies (R198, R201). -/
structure SettingsSt where
  /-- live scalar settings by number; a missing one is at its default | 64 each | R201, 07 | the catalogue's defaults -/
  live : SMap W64 := []
  /-- pending scalar settings by number | 64 each | R198, R200, 07 | none -/
  pend : SMap W64 := []
  /-- GROUP_TABLE, live, by group ID | 16-bit keys | R132, R133, 05 | none (R473) -/
  groups : SMap Group := []
  /-- GROUP_TABLE, pending | at most 256 | R134, R200 | none -/
  pendGroups : SMap PendGroup := []
  /-- freed group IDs that a running job still holds | list | R134, 05 | none -/
  heldGroups : List Nat := []
  /-- WEIGHT_BINDING, live, by program handle | 64 | R68, 03 | none -/
  bindings : SMap W64 := []
  /-- WEIGHT_BINDING, pending | at most 256 | R68, R200 | none -/
  pendBindings : SMap W64 := []
  /-- OBJECT_REPLACE, live, by handle | 32 | R201, R220 | none -/
  replaces : SMap W32 := []
  /-- OBJECT_REPLACE, pending | at most 1,024 | R200, R201 | none -/
  pendReplaces : SMap W32 := []
  /-- TIER_QUOTA, live, by client + 256 × tier | 64 | R224, 08 | none -/
  quotas : SMap W64 := []
  /-- TIER_QUOTA, pending | at most 192 | R200, R201 | none -/
  pendQuotas : SMap W64 := []
  /-- ledger entries imported and not yet live | 512 × 1 | R339, 11 | 0 -/
  pendLedger : BitVec 512 := 0
  /-- a LEDGER IMPORT waits for the saddle | 1 | R339, R187 | 0 -/
  pendLedgerOn : Bool := false
  /-- power state selected and not yet committed | 3 | R418, 13 | none -/
  pendPower : Option Nat := none
  /-- SADSTAT.REFUSED | 1 | R197, R199, 07 | 0 -/
  refused : Bool := false
  /-- SADSTAT.REFNUM | 16 | R197, 07 | 0 -/
  refnum : W16 := 0
  /-- SADSTAT.LASTDUR | 24 | R197, 07 | 0 -/
  lastDur : BitVec 24 := 0
  /-- STEPNUM | 64 | R197, 07 | 0 -/
  step : W64 := 0
  /-- scheduled instant of the next saddle, ns; none in event-driven steps or before S8 | 64 | R192, R196, 07 | none -/
  nextSaddle : Option W64 := none
  /-- the instant at which the current step began | 64 | R192, R193 | 0 -/
  began : W64 := 0
  /-- the earliest instant at which the next saddle can fall: the end of the processing before it, or the moment the chain was left | 64 | R192, R203 | 0 -/
  earliest : W64 := 0
  /-- SADSTAT.EVENT | 1 | R197, 07 | 0 -/
  event : Bool := false
  /-- the saddle is held for its flit | 1 | R203, 07 | 0 -/
  held : Bool := false
  /-- agents' step budget has run out at this step | 1 | R193 | 0 -/
  overrun : Bool := false
  deriving DecidableEq, Repr

/-- The counts of a counter record, CSAT apart (R47), and of a counter block (R48). -/
structure Counts where
  sat : Nat := 0
  flush : Nat := 0
  ovf : Nat := 0
  nanp : Nat := 0
  inv : Nat := 0
  nanc : Nat := 0
  deriving DecidableEq, Repr

/-- SEARCH parameters (R244, R397). -/
structure SearchP where
  index : W32
  encoder : W32
  adapter : W32
  head : W32
  reader : W32
  k : Nat
  pool : Nat
  beam : Nat
  width : Nat
  rounds : Bool
  penalty : Nat
  depth : Nat
  spantok : Bool
  maxspan : Nat
  minscore : W32
  labelMask : W256
  query : List W32
  tokens : List W32
  deriving DecidableEq, Repr

/-- A field entry of a record layout (R287). -/
structure FieldEnt where
  offset : Nat
  width : Nat
  typ : Nat
  lenField : Nat
  deriving DecidableEq, Repr

/-- A record layout (R286). -/
structure Layout where
  framing : Nat
  keyField : Nat
  textField : Nat
  labelField : Nat
  recLen : Nat
  fields : List FieldEnt
  deriving DecidableEq, Repr

/-- A term of a predicate (R291). -/
structure Term where
  field : Nat
  op : Nat
  clause : Nat
  neg : Bool
  clen : Nat
  const : List Byte
  deriving DecidableEq, Repr

/-- A range of a mapped namespace with its layout and predicate (R293, R298). -/
structure RangeP where
  nsid : W32
  slba : Nat
  length : Nat
  layout : Layout
  terms : List Term
  deriving DecidableEq, Repr

/-- An item of EMBED (R299). -/
structure ItemP where
  key : W64
  node : Nat
  label : Byte
  form : Nat
  tokens : List W32
  vec : List W32
  deriving DecidableEq, Repr

/-- What a job does. -/
inductive JobKind where
  | search (p : SearchP)
  | filter (r : RangeP) (limit : Nat) (stop : Bool) (project : W32)
  | embed (index encoder reader : W32) (op : Nat) (items : List ItemP) (range : Option RangeP) (pmode : Bool) (pcopies : Nat)
  | readAnswer (reader : W32) (joined : Bool) (keys : List W64) (tokens : List W32) (maxspan : Nat) (minscore : W32) (spantok : Bool)
  | program (handle : W32) (unit : W16) (cmask : BitVec 4) (args : List W64) (binds : List W32)
  | consolidate (index : W32)
  deriving DecidableEq, Repr

/-- Where a job stands (R209, R195, R402). -/
inductive JobPhase where
  /-- fetched, not yet admitted -/
  | waiting
  /-- admitted, running -/
  | admitted
  /-- its work has ended and its changes wait for the saddle (R207) -/
  | workDone
  /-- result writing has started -/
  | writing
  /-- RESULT_WRITTEN stamped -/
  | written
  /-- stopped: its completion, with a status, is still to post -/
  | stopped
  deriving DecidableEq, Repr

/-- A candidate of the merge and the rerank (R280, R281, R404). -/
structure Cand where
  key : W64
  node : Nat
  d : Nat
  label : Byte
  source : Nat
  drive : Nat
  score : W32
  vcode : List Byte
  vmeta : List W32
  deriving DecidableEq, Repr

/-- An index change of a job (R269). -/
structure IndexChange where
  del : Bool
  key : W64
  node : Nat
  label : Byte
  codes : List Nat
  vcode : List Byte
  vmeta : List W32
  /-- PREFILL object ingested for the item; 0 when none -/
  prefill : W32
  deriving DecidableEq, Repr

/-- A span entry (R312). -/
structure SpanEnt where
  status : Nat
  passage : Nat
  score : W32
  start : Nat
  stop : Nat
  tokens : List W32
  deriving DecidableEq, Repr

/-- A prefill map entry (R307, R308): reader, key and PREFILL object. -/
structure PrefillEnt where
  reader : W32
  key : W64
  handle : W32
  deriving DecidableEq, Repr

/-- The tree values of a RED call that members who have not issued it yet still have to write (R136): core, call number, the members' tiles,
and the values as a queue entry holds them. -/
structure RedCall where
  core : Nat
  ordinal : Nat
  tiles : List Nat
  outs : List (Nat × W32 × Bool)
  deriving DecidableEq, Repr

/-- A job (R204 to R211). -/
structure Job where
  /-- job number | 22 | R27, 01 | - -/
  num : Nat
  /-- client | 6 | R388, 13 | - -/
  client : BitVec 6
  /-- controller, queue and command identifier | 6 + 16 + 16 | R209, R407 | - -/
  ctrl : Fin 33
  sqid : W16
  cid : W16
  /-- command opcode | 8 | R395 | - -/
  opcode : Byte
  /-- result region: OUT_OFF and OUT_LEN | 32 each | R395 | - -/
  outOff : Nat
  outLen : Nat
  /-- what the job does | - | R244, R293, R298, R309, R401 | - -/
  kind : JobKind
  /-- where it stands | a name | R209 | waiting -/
  phase : JobPhase := .waiting
  /-- saddles that passed it | count | R205 | 0 -/
  passed : Nat := 0
  /-- a cause for which it must stop at the next saddle, as a drive status | 16 | R194, R195 | none -/
  stop : Option W16 := none
  /-- an ABORT decided CAUGHT_AT_SADDLE | 1 | R209 | 0 -/
  caught : Bool := false
  /-- error status of its completion | 16 | R124 | OK -/
  status : W16 := 0
  /-- no completion is to post: its queue or controller is gone | 1 | R389 | 0 -/
  silent : Bool := false
  /-- its namespace, the chain's, is gone: it completes with Invalid Namespace or Format | 1 | R463 | 0 -/
  homeless : Bool := false
  /-- kinds stamped so far on the job path | list | R26 | empty -/
  stamped : List Byte := []
  /-- JOB_ADMITTED cairn | 128 | R402 | 0 -/
  admittedCairn : W128 := 0
  /-- drive time of its admission | 64 | R195, R362 | 0 -/
  admittedAt : W64 := 0
  /-- objects and extents bound at admission | handles | R18, R401 | none -/
  bound : List W32 := []
  /-- weight bindings live at admission: of its program or reader, and of its encoder | 64 + 64 | R18, R69, R301 | 0 -/
  weights : W64 := 0
  encWeights : W64 := 0
  /-- tiles of the unit and cores it holds | list | R104 | none -/
  tiles : List Nat := []
  /-- tiles of g, and the tiles of g that come before this drive's (level 3) | counts | R107, R134 | 0 -/
  nmem : Nat := 0
  rankBase : Nat := 0
  /-- the other drives of g, by ring position (level 3) | list | R134 | none -/
  others : List Nat := []
  /-- view of the index: BASE and LENGTH | row numbers | R270 | 0 -/
  base : Nat := 0
  length : Nat := 0
  /-- counter block | 6 × 64 | R48 | 0 -/
  counts : Counts := {}
  /-- COUNTERS was stamped | 1 | R48 | 0 -/
  counted : Bool := false
  /-- COUNTERS cairn | 128 | R48 | 0 -/
  countersCairn : W128 := 0
  /-- the query vector | DIM FP32 | R301, R315 | none -/
  vec : List W32 := []
  /-- the moraine scan's candidates; none before MORAINE_DONE | list | R273 | none -/
  moraine : Option (List Cand) := none
  /-- the walks' candidates; none before WALK_DONE | list | R263, R280 | none -/
  walked : Option (List Cand) := none
  /-- the rerank pool; none before MERGE_DONE | list | R280 | none -/
  pool : Option (List Cand) := none
  /-- the result order; none before RERANK_DONE | list | R282 | none -/
  ranked : Option (List Cand) := none
  /-- chain members' entries | by ring position | R283 | none -/
  answers : SMap (List Cand) := []
  /-- members that were missing, or refused | bitmaps | R283 | 0 -/
  missing : Byte := 0
  disagree : Bool := false
  fanned : Byte := 0
  /-- a SEARCH on the chain namespace, which fans out | 1 | R283, R390 | 0 -/
  onChain : Bool := false
  /-- this drive runs a share of another member's query: its ring position and its number for the query | - | R283 | none -/
  shareOf : Option (Nat × Nat) := none
  /-- the tile that stamped the drive-level MERGE_DONE, whose island stamps the chain-level one too | 8 | R26 | 0 -/
  mergeTile : Fin 256 := 0
  /-- stored prefill states: usable handle, or a span status | list | R308 | none -/
  passages : Option (List (W32 × Nat)) := none
  /-- the prefill map as it stood at admission | list | R307 | empty -/
  map : List PrefillEnt := []
  /-- objects it keeps without being bound to them: passages of the map, and those it has loaded | handles | R302, R308 | none -/
  kept : List W32 := []
  /-- token positions: each usable passage's PREFILL object, its first position, and that of the query tokens of its context | list | R309 | empty -/
  places : List (W32 × Nat × Nat) := []
  /-- span entries | list | R311, R312 | empty -/
  spans : List SpanEnt := []
  /-- index changes that wait for commit | list | R207, R269 | empty -/
  changes : List IndexChange := []
  /-- the RESULT object | handle | R214, R401 | 0 (none) -/
  result : W32 := 0
  /-- handles bound through OBJECT_REPLACE: the named handle and its replacement | pairs | R18, R201 | none -/
  renamed : List (W32 × W32) := []
  /-- objects created by the job | handles | R218 | none -/
  created : List W32 := []
  /-- FILTER and EMBED summary bytes and entries | bytes | R295, R303 | empty -/
  summary : List Byte := []
  entries : List Byte := []
  nEntries : Nat := 0
  /-- SHORT, PARTIAL, INCOMPLETE and MEMBERS of dword 1 | 32 | R405 | 0 -/
  flags : W32 := 0
  /-- an EMBED's items: key, and TRUNC, PREFILLED and PTRUNC flags | list | R303 | empty -/
  itemFlags : List (W64 × Byte) := []
  /-- ABORT QUERY commands whose MISSED reply waits for RESULT_WRITTEN, and those that wait for the completion | list | R209, R210 | empty -/
  abortsHeld : List (HostCmd × Bool) := []
  abortsAfter : List (HostCmd × Bool) := []
  /-- RED calls whose values some members still have to take | list | R136, 05 | none -/
  redDone : List RedCall := []
  /-- order of the CMD_FETCHED cairn | count | R205, R302 | - -/
  order : Nat := 0
  /-- moraine rows taken with snapshot Lc by a consolidation | row number | R277 | 0 -/
  snapshot : Nat := 0
  /-- a RUN that acts as the consolidation of an index: the handle of its CODEBOOK as bound | handle | R321 | 0 (none) -/
  recode : W32 := 0
  /-- objects that a consolidation has sealed and not yet swapped | handles | R279 | none -/
  made : List W32 := []
  deriving DecidableEq, Repr

/-- What a record instruction asks for (R160, R163, R170, R174). -/
inductive RecKind where
  | objInfo (h : W32)
  | objNew (kib : Nat) (tierD : Bool)
  | objDrop (h : W32)
  | objPin (h : W32) (tierD : Bool)
  | objUnpin (h : W32) (tierD : Bool)
  | objSeal (h : W32) (copies : Nat) (qlc : Bool)
  | objStage (h r : W32)
  | fread (ext : W32) (block page first count addr : Nat)
  | fprog (ext : W32) (block page addr : Nat)
  | ferase (ext : W32) (block : Nat)
  | fsync (ext : W32) (block : Nat)
  | fstat (ext : W32) (block : Nat)
  | grpNew (members : List W16) (ordinal : Nat)
  | grpFree (g : W16) (ordinal : Nat)
  | grpInfo (g : W16)
  | gtopk (addr k len : Nat) (ordinal : Nat)
  | gsum (addr count : Nat) (ordinal : Nat)
  | gbcast (addr count src : Nat) (ordinal : Nat)
  | gbar (ordinal : Nat)
  | stageWr (num : W16) (value : W64)
  deriving DecidableEq, Repr

/-- An outstanding record instruction (R139, R140). -/
structure RecOp where
  id : Nat
  tile : Nat
  core : Nat
  job : Nat
  word : Nat
  stamp : Bool
  addr : Nat
  flag : Option Nat
  kind : RecKind
  /-- a media primitive that its channel controller has served (R164, R167) -/
  served : Bool := false
  /-- the sectors that a served FREAD reads, as they were when it was received (R167) -/
  got : List Byte := []
  /-- its job has stopped: the flash operation is done, and its outcome goes nowhere (R167) -/
  orphan : Bool := false
  /-- the outcome and VALUE once known; none while the work goes on -/
  outcome : Option (W16 × W64)
  deriving DecidableEq, Repr

/-- A stream transfer in flight (R115, R158). -/
structure Xfer where
  tile : Nat
  core : Nat
  dsc : Nat
  job : Nat
  word : Nat
  stamp : Bool
  /-- the objects that the handles of the descriptor name; 0 for the tile's SRAM -/
  src : W32
  dst : W32
  /-- its DMA channel halted under it (R239): stack and channel -/
  halted : Option (Nat × Nat)
  /-- a reset of its tile cut it off (R468) -/
  cut : Bool
  deriving DecidableEq, Repr

/-- A completion (R405). -/
structure Completion where
  ctrl : Fin 33
  sqid : W16
  cid : W16
  dw0 : W32
  dw1 : W32
  sct : Nat
  sc : Nat
  deriving DecidableEq, Repr

/-- Bytes written into the buffer of a host command (R24, R402). -/
structure HostWrite where
  ctrl : Fin 33
  sqid : W16
  cid : W16
  off : Nat
  bytes : List Byte
  deriving DecidableEq, Repr

/-- What the drive sends to the host, in PCIe order (R24, R402). -/
inductive HostOut where
  | bytes (w : HostWrite)
  | done (c : Completion)
  /-- an MSI-X message: controller, completion queue, vector -/
  | msix (ctrl : Fin 33) (cqid vector : W16)
  deriving DecidableEq, Repr

/-- The controller an output belongs to. -/
def HostOut.ctrl : HostOut → Fin 33
  | .bytes w => w.ctrl
  | .done c => c.ctrl
  | .msix c _ _ => c

/-- An I/O completion queue (R386, R387). -/
structure Cq where
  size : W16
  vector : W16
  interrupts : Bool
  head : W32 := 0
  deriving DecidableEq, Repr

/-- An I/O submission queue (R387, R388). -/
structure Sq where
  client : BitVec 6
  cqid : W16
  size : W16
  tail : W32 := 0
  frozen : Bool := false
  /-- deferred write errors logged before it was created | count | R409, R411 | 0 -/
  born : Nat := 0
  /-- namespaces with a pending DEFERRED_WRITE_ERROR notice | list | R409 | empty -/
  notices : List W32 := []
  /-- a Delete waits for the queue's jobs: its command identifier | 16 | R389 | none -/
  deleting : Option W16 := none
  deriving DecidableEq, Repr

/-- An NVMe controller (R386, R387, R442). -/
structure Ctrl where
  en : Bool := false
  rdy : Bool := false
  cfs : Bool := false
  disabling : Bool := false
  /-- its shutdown notification has been processed | 1 | R373, 12 | 0 -/
  shst : Bool := false
  /-- I/O queue pairs and MSI-X vectors assigned (secondary controllers) | counts | R387 | 0 -/
  pairs : Nat := 0
  vectors : Nat := 0
  sqs : SMap Sq := []
  cqs : SMap Cq := []
  adminTail : W32 := 0
  adminHead : W32 := 0
  /-- a Device Self-test operation runs | 1 | R409, 13 | 0 -/
  selfTest : Bool := false
  /-- in D3hot | 1 | R472, 15 | 0 -/
  d3 : Bool := false
  deriving DecidableEq, Repr

/-- A deferred write error (R410). -/
structure DefErr where
  cairn : W128
  nsid : W32
  sqid : W16
  ctrl : Fin 33
  cid : W16
  slba : W64
  lostmask : W16
  report : Byte
  read : Bool
  /-- recorded before CSTS.RDY became 1 (R409) -/
  early : Bool
  deriving DecidableEq, Repr

/-- Per-client job counts (R208). -/
structure ClientCounts where
  submitted : W64 := 0
  completed : W64 := 0
  failed : W64 := 0
  aborted : W64 := 0
  deriving DecidableEq, Repr

/-- Jobs, records and host queues. -/
structure HostSt where
  /-- controllers 0 (PF) to 32 | 33 | R387, 13 | disabled -/
  ctrls : SMap Ctrl := []
  /-- jobs, in order of fetch | at most 4,096 running | R204, R205, 07 | none -/
  jobs : List Job := []
  /-- next job number | 22 | R27, 01 | DESIGN CHOICE 0, log entry 4 -/
  nextJob : BitVec 22 := 0
  /-- fetch counter | count | R205 | 0 -/
  order : Nat := 0
  /-- job counts by client | 4 × 64 | R208, 07 | 0 -/
  counts : SMap ClientCounts := []
  /-- tags of completed jobs that stay known, with the DETAIL of their cairns | list | R209 | empty -/
  tags : List ((Fin 33 × W16 × W16) × BitVec 28) := []
  /-- what has been sent to the host, newest last | list | R24, R402, R405 | empty -/
  out : List HostOut := []
  /-- what waits for D0 or for the exit from a power state | list | R418, R472 | empty -/
  held : List HostOut := []
  /-- NSID of the compute namespace | 32 | R390, 13 (2 in the worked example) | 2, DESIGN CHOICE, log entry 27 -/
  nsCompute : W32 := 2
  /-- NSID of the memory namespace | 32 | R390, 13 | DESIGN CHOICE 3, log entry 27 -/
  nsMemory : W32 := 3
  /-- NSID of the chain namespace; none outside a chain | 32 | R390, R459 | none -/
  nsChain : Option W32 := none
  /-- programs loaded by index: handle, and whether it is active | 64 | R393, 13 | none -/
  programs : SMap (W32 × Bool) := []
  /-- asynchronous events raised: log page in bits 23:16, type in bits 2:0 (0 Error Status) | list | R409 | empty -/
  events : List W32 := []
  /-- outstanding record instructions, oldest first | list | R140, 06 | empty -/
  recs : List RecOp := []
  /-- FPROG and FERASE of jobs that have stopped, which wait at their channel controller | list | R167, 06 | empty -/
  issued : List RecOp := []
  /-- next record operation id | count | model's own | 0 -/
  nextRec : Nat := 0
  /-- transfers in flight | list | R115, 05 | empty -/
  xfers : List Xfer := []
  /-- forwards in the mesh | list | R261, 09 | empty -/
  forwards : List Forward := []
  /-- log page 0xC2: deferred write errors, oldest first | 256 × 512 | R410, 13 | none -/
  deferred : List DefErr := []
  /-- log page 0xC2: entries written, and overwritten unread | 64 each | R410, 13 | 0 -/
  defWritten : W64 := 0
  defLost : W64 := 0
  /-- registers shared by the NVMe-MI path: the last response | bytes | R487, R488, 16 | empty -/
  mi : List (List Byte) := []
  deriving DecidableEq, Repr

end Sys2Proof.Machine
end

