-- ==== Sys2Proof/Machine/Flags.lean ====
section
/-! DEFINITION. What float results count: counter records (R47, R48) and running extremes (R49, R50). -/
namespace Sys2Proof.Machine

/-- Adds `n` events to a record. -/
def Counts.bump (c : Counts) (e : Ev) (n : Nat) : Counts :=
  match e with
  | .none => c
  | .sat => { c with sat := c.sat + n }
  | .flush => { c with flush := c.flush + n }
  | .ovf => { c with ovf := c.ovf + n }
  | .nanp => { c with nanp := c.nanp + n }
  | .inv => { c with inv := c.inv + n }
  | .nanc => { c with nanc := c.nanc + n }

/-- The record of a list of events. -/
def countEvs (es : List Ev) : Counts := es.foldl (fun c e => c.bump e 1) {}

/-- The largest 20-bit count (R47). -/
def max20 : Nat := 0xFFFFF

/-- A count as a 20-bit field that stops at its maximum (R47). -/
def field20 (n : Nat) : BitVec 20 := BitVec.ofNat 20 (Nat.min n max20)

/-- A record whose fields have stopped at 20 bits (R48: such a field adds 0xF_FFFF to the block). -/
def Counts.stop20 (c : Counts) : Counts :=
  ⟨Nat.min c.sat max20, Nat.min c.flush max20, Nat.min c.ovf max20, Nat.min c.nanp max20,
   Nat.min c.inv max20, Nat.min c.nanc max20⟩

/-- The CREC register of a record (R47). -/
def crecOf (c : Counts) : W128 :=
  let stopped := [c.sat, c.flush, c.ovf, c.nanp, c.inv, c.nanc].any (fun n => decide (max20 ≤ n))
  field20 c.sat ++ field20 c.flush ++ field20 c.ovf ++ field20 c.nanp ++ field20 c.inv ++ field20 c.nanc ++
    BitVec.ofBool stopped ++ (0 : BitVec 7)

/-- An FP32 value observed by an extreme register (R49): strictly greater replaces MAX, strictly smaller MIN;
the counts stop at their maximum. -/
def extObserve (e : W128) (x : W32) : W128 :=
  let mx : W32 := e.extractLsb' 96 32
  let mn : W32 := e.extractLsb' 64 32
  let nanc : W32 := e.extractLsb' 32 32
  let seen : W32 := e.extractLsb' 0 32
  if isNan x then mx ++ mn ++ (if nanc = BitVec.allOnes 32 then nanc else nanc + 1) ++ seen
  else (if fLt mx x then x else mx) ++ (if fLt x mn then x else mn) ++ nanc ++
    (if seen = BitVec.allOnes 32 then seen else seen + 1)

/-- Observes values in order (R50). -/
def extObserveAll (e : W128) (xs : List W32) : W128 := xs.foldl extObserve e

end Sys2Proof.Machine
end

