-- ==== Sys2Proof/Machine/Formats.lean ====
section
/-! DEFINITION. The narrow number formats and the conversions (02_number_formats R29 to R44; stochastic
rounding 03 R72, R73; power-of-two scales R76). -/
namespace Sys2Proof.Machine

/-- The generator of stochastic rounding (R72). -/
def srWord (seed n : W64) : W64 :=
  let z := seed + (n + 1) * 0x9E3779B97F4A7C15
  let z := (z ^^^ (z >>> 30)) * 0xBF58476D1CE4E5B9
  let z := (z ^^^ (z >>> 27)) * 0x94D049BB133111EB
  z ^^^ (z >>> 31)

/-- The top 24 bits of the generator's word (R73). -/
def srDraw (seed n : W64) : Nat := (srWord seed n).toNat / 2 ^ 40

/-- The narrow code formats. -/
inductive Code where
  | q8a | q4a | q2a | tern | l4 | mxfp4
  deriving DecidableEq, Repr

/-- Bits of a code (R29). -/
def Code.width : Code → Nat
  | .q8a => 8
  | .q4a => 4
  | .q2a => 2
  | .tern => 2
  | .l4 => 4
  | .mxfp4 => 4

/-- The scale of a metadata word as a value (R31). -/
def metaScale (m : W32) : FVal := fmtBf16.decode (m.toNat / 65536)
/-- The scale of a metadata word widened to FP32. -/
def metaScale32 (m : W32) : W32 := m &&& 0xFFFF0000
/-- The zero point of a metadata word: its low `w` bits (R31). -/
def metaZp (m : W32) (w : Nat) : Nat := m.toNat % 2 ^ w

/-- The pad element of a format (R30). -/
def padCode (c : Code) (m : W32) : Nat :=
  match c with
  | .q8a => metaZp m 8
  | .q4a => metaZp m 4
  | .q2a => metaZp m 2
  | _ => 0

/-- t of a TERN code (R34). -/
def ternT (c : Nat) : Int := if c = 1 then 1 else if c = 3 then -1 else 0

/-- The doubled value of an E2M1 code without its sign (R36, R58). -/
def e2m1Mag (c : Nat) : Nat :=
  match c % 8 with
  | 0 => 0
  | 1 => 1
  | 2 => 2
  | 3 => 3
  | 4 => 4
  | 5 => 6
  | 6 => 8
  | _ => 12
/-- The doubled value of an E2M1 code. -/
def e2m1Q (c : Nat) : Int := sgn (c / 8 % 2 == 1) (e2m1Mag c)

/-- The decoded integer of a code (R53, R58): code minus zero point, t, or the doubled E2M1 value. -/
def codeInt (c : Code) (m : W32) (x : Nat) : Int :=
  match c with
  | .tern => ternT x
  | .mxfp4 => e2m1Q x
  | .l4 => x
  | c => (x : Int) - metaZp m c.width

/-- The FP32 pattern of an integer below 2^24. -/
def f32OfInt (n : Int) : W32 := BitVec.ofNat 32 (fmtF32.encode false (.num (decide (n < 0)) n.natAbs 0)).1

/-! ## From FP32 -/

/-- x / s as numerator and denominator magnitudes, both finite, s not zero. -/
def ratio (m : Nat) (e : Int) (n : Nat) (k : Int) : Nat × Nat :=
  (m * 2 ^ (e - k).toNat, n * 2 ^ (k - e).toNat)

/-- FP32 to an affine code of width `w` (R33, R44, R73); `u` is the draw of an SR conversion. -/
def toAffine (x s : FVal) (z w : Nat) (u : Option Nat) : Nat × Ev :=
  let top := 2 ^ w - 1
  match x, s with
  | .nan, _ => (z, .nanc)
  | .inf a, .num b _ _ => (if a = b then top else 0, .sat)
  | .num a m e, .num b n k =>
    let (p, q) := ratio m e n k
    let v := sgn (a != b) p
    let lo := v / (q : Int)
    let near := sgn (a != b) (rne p q)
    let inside := decide (0 * (q : Int) ≤ v + z * q) && decide (v + z * q ≤ top * q)
    let c : Int := match u with
      | some d => if v % (q : Int) ≠ 0 && inside then
          (if d < ((v % (q : Int)).toNat * 2 ^ 24) / q then lo + 1 else lo) + z else near + z
      | none => near + z
    if c < 0 then (0, .sat) else if (top : Int) < c then (top, .sat) else (c.toNat, .none)
  | _, _ => (z, .inv)

/-- FP32 to TERN (R34). -/
def toTern (x s : FVal) : Nat × Ev :=
  match x, s with
  | .nan, _ => (0, .nanc)
  | .inf a, .num b _ _ => (if a = b then 1 else 3, .sat)
  | .num a m e, .num b n k =>
    let (p, q) := ratio m e n k
    let t := rne p q
    let c := if t = 0 then 0 else if a = b then 1 else 3
    (c, if 1 < t then .sat else .none)
  | _, _ => (0, .inv)

/-- The FP32 multiplier m(code) of L4 (R35). -/
def l4Mult (c : Nat) : W32 :=
  let d := 15 - c
  if d % 2 = 0 then BitVec.ofNat 32 ((127 - d / 2) * 8388608) else BitVec.ofNat 32 ((126 - d / 2) * 8388608 + 0x3504F3)

/-- The decoded FP32 value of an L4 code under a scale (R35). -/
def l4Value (m : W32) (c : Nat) : W32 := if c = 0 then 0 else rMul (metaScale32 m) (l4Mult c)

/-- A finite FP32 magnitude in units of 2^−149. -/
def fix149 (x : W32) : Nat :=
  match f32 x with
  | .num _ m e => m * 2 ^ (e + 149).toNat
  | _ => 0

/-- The code nearest to `x` among codes `c` and above, a tie to the lower code. -/
def l4Nearest (x : Nat) (vals : List Nat) : Nat :=
  let dist (v : Nat) : Nat := (x - v) + (v - x)
  (vals.zipIdx.foldl (fun (best : Nat × Nat) (p : Nat × Nat) => if dist p.1 < best.1 then (dist p.1, p.2) else best)
    (dist 0, 0)).2

/-- FP32 to L4 under a valid scale (R35 tests 2 to 5, R44, R73). -/
def toL4 (x m : W32) (u : Option Nat) : Nat × Ev :=
  let vals := (List.range 16).map (fun c => fix149 (l4Value m c))
  if isNan x then (0, .nanc)
  else if x.getLsbD 31 then (0, if x.extractLsb' 0 31 = 0 then .none else .sat)
  else if nonFinite x || decide ((vals[15]?).getD 0 < fix149 x) then (15, .sat)
  else
    let v := fix149 x
    match u with
    | none => (l4Nearest v vals, .none)
    | some d =>
      if vals.contains v then (vals.findIdx (· == v), .none)
      else
        let c := (vals.filter (fun y => decide (y < v))).length - 1
        let lo := (vals[c]?).getD 0
        let hi := (vals[c + 1]?).getD 0
        (if d < ((v - lo) * 2 ^ 24) / (hi - lo) then c + 1 else c, .none)

/-- The E8M0 field of a block's largest finite magnitude in units of 2^−149 (R37). -/
def mxScale (amax : Nat) : Nat :=
  if amax = 0 then 127 else Nat.min ((Nat.log2 amax : Int) - 149 - 2 + 127).toNat 254

/-- FP32 to an E2M1 code under E (R37): nearest, ties to even significand bit, ±6 with SAT beyond. -/
def toE2m1 (x : W32) (e : Nat) : Nat × Ev :=
  let num := 2 * fix149 x
  let den := 2 ^ (e + 22)
  let sign := if x.getLsbD 31 then 8 else 0
  if nonFinite x || decide (12 * den < num) then (sign + 7, .sat)
  else
    let dist (k : Nat) : Nat := (num - e2m1Mag k * den) + (e2m1Mag k * den - num)
    let best := (List.range 8).foldl (fun b k => if dist k < dist b || (dist k == dist b && k % 2 < b % 2) then k else b) 0
    (sign + best, .none)

/-- One group of at most 32 FP32 elements to codes, with pad elements (R30): the 32 codes, the E8M0 byte of
an MXFP4 block, and the counts. `us` are the draws of an SR conversion. -/
def toGroup (c : Code) (xs : List W32) (m : W32) (us : List (Option Nat)) : List Nat × Nat × Counts :=
  let n := xs.length
  let pad := List.replicate (32 - n) (padCode c m)
  let bad : Bool := match metaScale m with
    | .num neg mm _ => mm == 0 || (c == .l4 && neg)
    | _ => true
  match c with
  | .mxfp4 =>
    if xs.any isNan then (List.replicate 32 0, 255, ({} : Counts).bump .nanp n)
    else
      let e := mxScale ((xs.map fix149).foldl Nat.max 0)
      let rs := xs.map (fun x => toE2m1 x e)
      (rs.map Prod.fst ++ pad, e, countEvs (rs.map Prod.snd))
  | c =>
    if bad then (List.replicate 32 (padCode c m), 0, ({} : Counts).bump .inv n)
    else
      let rs := (xs.zip us).map (fun (x, u) =>
        match c with
        | .tern => toTern (f32 x) (metaScale m)
        | .l4 => toL4 x m u
        | c => toAffine (f32 x) (metaScale m) (metaZp m c.width) c.width u)
      (rs.map Prod.fst ++ pad, 0, countEvs (rs.map Prod.snd))

/-- FP32 to BF16 with stochastic rounding (R44, R73). -/
def toBf16Sr (x : W32) (u : Nat) (ftz : Bool) : Nat × Ev :=
  let mag := x.toNat % 2147483648
  if 0x7F7F0000 < mag then fmtBf16.encode ftz (f32 x)
  else
    let r := mag / 65536 + if u < mag % 65536 * 256 then 1 else 0
    let sign := x.getLsbD 31
    if ftz && decide (0 < r) && decide (r < 128) then (fmtBf16.signed sign 0, .flush)
    else (fmtBf16.signed sign r, .none)

/-! ## To FP32 -/

/-- A code to FP32 (R32, R34, R35, R36): the result, what it counts, and whether it is a TERN 0b10. -/
def fromCode (c : Code) (m : W32) (e8 : Nat) (x : Nat) (ftz : Bool) : W32 × Ev × Bool :=
  match c with
  | .mxfp4 =>
    if e8 = 255 then (nan32, .nanp, false)
    else
      let (b, ev) := fmtF32.encode ftz (.num (x / 8 % 2 == 1) (e2m1Mag x) ((e8 : Int) - 128))
      (BitVec.ofNat 32 b, ev, false)
  | .l4 => if x = 0 then (0, .none, false) else
      let (r, ev) := fMul ftz (metaScale32 m) (l4Mult x)
      (r, ev, false)
  | c =>
    let (r, ev) := fMul ftz (metaScale32 m) (f32OfInt (codeInt c m x))
    (r, ev, c == .tern && x == 2)

/-! ## Packing (R29, R151) -/

/-- Packs codes of `w` bits, the first in the low bits. -/
def packCodes (w : Nat) : List Nat → Nat
  | [] => 0
  | x :: xs => x % 2 ^ w + 2 ^ w * packCodes w xs

/-- Field `i` of `w` bits of a packed number. -/
def unpackCode (w x i : Nat) : Nat := x / 2 ^ (w * i) % 2 ^ w

/-- The 64 lanes of a packed number. -/
def lanesOf (x : Nat) : List W32 := (List.range 64).map (fun l => BitVec.ofNat 32 (x / 2 ^ (32 * l)))

/-- Lanes as a packed number. -/
def packLanes (xs : List W32) : Nat := packCodes 32 (xs.map BitVec.toNat)

/-! ## Power-of-two scales (R76) -/

/-- The smallest power of two, as an exponent, that is at least n × 2^k over d, n not 0. -/
def ceilLog2 (n d : Nat) (k : Int) : Int :=
  let guess : Int := (Nat.log2 n : Int) - (Nat.log2 d : Int) - 1
  let up (g : Int) : Bool := decide (n * 2 ^ (-g).toNat ≤ d * 2 ^ g.toNat)
  (if up guess then guess else if up (guess + 1) then guess + 1 else guess + 2) + k

/-- The BF16 power-of-two scale of the bound n × 2^−149 / d, or of an infinite bound (R76). -/
def pow2Scale (infinite : Bool) (n d : Nat) : Nat :=
  if infinite then 0x7F00
  else if n = 0 then 0x0080
  else
    let k := ceilLog2 n d (-149)
    if 127 < k then 0x7F00 else if k < -133 then 0x0001
    else if -126 ≤ k then (k + 127).toNat * 128 else 2 ^ (k + 133).toNat

/-- FP32 values to Q4A with zero point 8 and power-of-two group scales, nearest even (R76, R281): codes and
metadata words, group by group. -/
def toQ4aPow2 (xs : List W32) : List (List Nat × W32) :=
  (List.range (ceilDiv xs.length 32)).map (fun g =>
    let grp := (xs.drop (32 * g)).take 32
    let live := grp.filter (fun x => !isNan x)
    let sc := pow2Scale (live.any nonFinite) ((live.map fix149).foldl Nat.max 0) 7
    let m : W32 := BitVec.ofNat 32 (sc * 65536 + 8)
    ((toGroup .q4a grp m (grp.map (fun _ => none))).1, m))

end Sys2Proof.Machine
end

