-- ==== Sys2Proof/Config.lean ====
section
/-! DEFINITION. What the spec leaves to the implementation or leaves open: constants with no body, so that
no proof can see a value of one. -/
namespace Sys2Proof

/-- What another drive's FORM tells a member (R458, R460): the chain record, and the master's time and STEP_PERIOD at the commit. -/
structure MemberForm where
  id : W64
  n : Nat
  pos : Nat
  digests : List W128
  nsid : W32
  masterTime : W64
  period : W32
  deriving DecidableEq, Repr, Inhabited

end Sys2Proof
namespace Sys2Proof.Config

/-- The flit of another drive's FORM that reaches a member (R460). Log entry 53. -/
opaque formFlit : Nat → MemberForm

/-- What a drive that joins a running chain receives of the master (R461): each chain-scope setting that
is live there. Log entry 53. -/
opaque masterLive : Nat → List StagedChange

/-- The timing master's time when the role passes at a joining saddle (R462). Log entry 53. -/
opaque masterTime : Nat → W64

/-- Which of several waiters that nothing orders goes first (R116: FWAITC waiters on one flag). Log entry 6. -/
opaque pick : Nat → Nat

/-- The control core that owns a controller's submission queue (R209: the spec names an owner, not which). Log entry 7. -/
opaque queueOwner : Fin 33 → W16 → Fin 8

/-- A word that another drive of a chain contributes to a level-3 group's operation: job, call, rank, index.
The other drives are outside the model (log entry 11). -/
opaque peerWord : Nat → Nat → Nat → Nat → W32

/-- Whether what a member on another drive formed such a word from was all finite (R47, R64): job, instruction, rank, element. Log entry 11. -/
opaque peerFinite : Nat → Nat → Nat → Nat → Bool

/-- What a field of the counter block takes from the members of a level-3 group on other drives: job and field (log entry 11). -/
opaque peerCount : Nat → Nat → Nat

/-- Which free index or place the drive allots where the spec does not say which (R133 group indices). Log entry 12. -/
opaque allot : Nat → Nat

/-- The Tier D stack that holds the first 4 KiB line of an object's copy (R222). Log entry 15. -/
opaque firstStack : W32 → Nat

/-- Bytes of a panel row that one span of 256 channels takes, for a stream under SPLIT RED: the descriptor does not name the format (R135).
Log entry 16. -/
opaque spanBytes : W256 → Nat

/-- Spans of a panel row, for a stream under SPLIT RED: a row can end in unused bytes (R95, R135). Log entry 16. -/
opaque spanCount : W256 → Nat

/-- How many leading bytes of a failed transfer have landed. Log entry 17. -/
opaque delivered : Nat → Nat

/-- What Rinsis takes for a byte that no copy of an object gives intact (R241): draw, byte. Log entry 207. -/
opaque lostByte : Nat → Nat → Byte

/-- The stored bit of a correctable error that a read of the drive's own finds, none for a clean read (R419, R420). Log entry 218. -/
opaque corrected : Nat → Option (BitVec 7)

/-- Whether an uncorrectable error of a Tier D unit that the walker met persists after the unit's reload (R239, R427). Log entry 208. -/
opaque persists : Nat → Bool

/-- The stored bytes of an object that the drive encodes: the encoder's choice of modes is not specified (R235). Log entry 19. -/
opaque storedSize : W32 → Nat → Nat

/-- A distance-table entry whose difference or span is not finite (R252 gives no rule): the two FP32 values. Log entry 24. -/
opaque tableEntry : W32 → W32 → Nat

/-- The code of a subspace in which an e_c is NaN (R250 gives no order). Log entry 24. -/
opaque codePick : List W32 → Nat

/-- The D with which the start of a walk stands in its queue (R254 gives none): job, shard. Log entry 21. -/
opaque startDist : Nat → Nat → Nat

/-- The channel of the first stored unit of an object's first copy (R234 gives only how the others follow). Log entry 173. -/
opaque sealChannel : Nat → Nat

/-- The die of its channel with which Rinsis begins to look for a block with room (R234). Log entry 173. -/
opaque sealDie : Nat → Nat

/-- The faults that the seal of one unit meets before it passes, oldest first (R235): true a program failure, false a failed read-back. Log
entry 173. -/
opaque sealFaults : Nat → List Bool

/-- Whether an erase that Rinsis makes of a block fails (R165, R238, R348). Log entry 173. -/
opaque eraseFails : Nat → Bool

/-- Whether a read of the drive's own that took every retry step stays uncorrectable (R336, R364). Log entry 217. -/
opaque readFails : Nat → Bool

/-- How many units from the first on hold data in a block whose erase was stopped (R334, R347). Log entry 205. -/
opaque cutUnits : Nat → Nat

/-- How many SYSTEM units a flush or a shutdown writes beside those of held extent units (R371, R373). Log entry 206. -/
opaque systemUnits : Nat → Nat

/-- The stored unit that holds byte `i` of an object of `stored` stored and `size` decoded bytes (R230): the drive's encoder chooses. Log
entry 19. -/
opaque storedUnit : Nat → Nat → Nat → Nat

/-- How long a die takes from a suspend until it is ready for a read, ns (R328 gives at most 20 µs). Log entry 174. -/
opaque suspendLatency : Nat → Nat

/-- The Tier D unit that holds 64 KiB unit `u` of an object's copy within its stack (R239). Log entry 15. -/
opaque tierDUnit : W32 → Nat → Nat

/-- Where in the query region of a KV_CACHE the reader program writes QS and QE, past the token IDs (R311). Log entry 167. -/
opaque queryVecs : Nat → Nat

/-- Where a scan with STOP ends past its last needed match (R294). Log entry 35. -/
opaque scanEnd : Nat → Nat

/-- For how many destination cycles the destination of a transfer cannot accept it, while its source holds it (R178). Log entry 39. -/
opaque colHold : Nat → Nat

/-- How long the processing of a held saddle takes, ns (R192 gives 1 to 6 µs). Log entry 38. -/
opaque heldDur : Nat → BitVec 24

/-- Bytes of a standard NVMe log page that the spec does not give: draw, page, byte. Log entry 43. -/
opaque logByte : Nat → Nat → Nat → Byte

/-- ML-DSA-65 signatures of attestation reports, by the key's seed, the digest and the byte (R436): the identity key never leaves the drive. Log
entry 44. -/
opaque attestByte : BitVec 256 → BitVec 512 → Nat → Byte

/-- SHAKE256 of the public key that ML-DSA-65 generates from a seed (R435, R436), and the identity certificate: its length and bytes. Log entry 44. -/
opaque idKey : BitVec 256 → BitVec 512
opaque certLength : Nat
opaque certByte : Nat → Byte

/-- How long a power-loss flush took, µs, as its marker says (R371, R383). Log entry 45. -/
opaque flushUs : Nat → BitVec 27

/-- What a word of map memory belongs to, and which item of it (R425): the layout of map memory is not specified. Log entry 46. -/
opaque mapWord : Nat → Nat × Nat

/-- Whether a map memory word holds a part of the entry of a logical unit: word, NSX, LUA (R425). Log entry 46. -/
opaque mapHolds : Nat → Nat → Nat → Bool

/-- What an implemented word of BAR0 that the model does not hold reads as: draw, controller, offset (R385). Log entry 209. -/
opaque bar0Word : Nat → Nat → Nat → W32

/-- Where PMCSR lies in the configuration space of a function (R442, R472). Log entry 209. -/
opaque pmcsr : BitVec 512 → Nat → Nat

/-- Bytes of a function's configuration space, BARs included, as the firmware image gives them, or the boot ROM in recovery, whose image is 0: image,
function, offset (R442, R456). Log entry 209. -/
opaque configByte : BitVec 512 → Nat → Nat → Byte

/-- What another member's LEAVE (1 to 8, its position plus 1), DISSOLVE (9) or FIRMWARE (10) does at a chain saddle, 0 for none, modulo 11; and the image
that a FIRMWARE brings (R463). Log entry 54. -/
opaque chainAct : Nat → Nat
opaque chainImage : Nat → Manifest
opaque chainImageByte : Nat → Nat → Byte

/-- How many flits of a port's replay buffer have not been acknowledged when its link is lost, and whether it is its neighbour that is lost (R465). Log
entry 216. -/
opaque unacked : Nat → Nat
opaque neighbourLost : Nat → Bool

/-- The level of TEST_N at the S0 of a reset whose command does not bring it (R490). Log entry 214. -/
opaque testN : Nat → Bool

/-- Bytes of the memories of kinds 4 and 5 (R419, R426): their sizes are not specified. Log entry 47. -/
opaque memBytes : Nat → Nat

/-- Queue and command of a buffered write that a power loss separated from its tag (R409, R410). Log entry 48. -/
opaque lostTag : Nat → Fin 33 × W16 × W16

/-- The boot ROM version (R445). Log entry 49. -/
opaque bootRom : W32

/-- The traversal-engine text of a firmware image, by the digest of its manifest body (R449). Log entry 50. -/
opaque walkText : BitVec 512 → List W64

/-- A chain ID drawn from the true random source (R458). Log entry 52. -/
opaque chainId : Nat → W64

/-- How long after an accepted join offer the running chain's next saddle falls, ns (R461). Log entry 53. -/
opaque joinIn : Nat → BitVec 24

/-- Bytes of a die's one-time-programmable row that manufacture gave it (R341): die, byte. Log entry 55. -/
opaque otpByte : Nat → Nat → Byte

/-- What the three copies of a row that does not check hold (R341, R342): die, copy, byte. Log entry 55. -/
opaque otpRead : Nat → Nat → Nat → Byte

/-- Whether the primary copy of a package's calibration row does not check, and its bytes then (R343): package, byte. Log entry 55. -/
opaque calSpoiled : Nat → Bool
opaque calPrimary : Nat → Nat → Byte

/-- Bytes of a die's factory calibration entry (R343): die, byte. Log entry 55. -/
opaque calByte : Nat → Nat → Byte

/-- Half of a cairn-log ring entry that nothing has written since power-on (R189). Log entry 56. -/
opaque logCell : Nat → W64

/-- A byte of the answer to a Basic Management Command (R487): its layout is that of NVMe-MI. Log entry 57. -/
opaque basicByte : Nat → Nat → Byte

/-- Bank cycles in which others waited for the reads of one matrix instruction (R102 ABWAIT). Log entry 145. -/
opaque bankWaits : Nat → W64

/-- Codewords corrected (0), codewords uncorrectable (1) and flits replayed (2) since a port's last flit (R429, R430). Log entry 146. -/
opaque linkErrors : Nat → Nat → Nat

/-- The neighbours that a consolidation gives a node (R277 does not give the graph): CODEBOOK, snapshot row, node. Log entry 175. -/
opaque graphEdges : W32 → Nat → Nat → List Nat

/-- The nodes that a consolidation puts into an entry layer, in the order of their positions (R277): CODEBOOK, snapshot row, shard, layer. Log
entry 175. -/
opaque layerNodes : W32 → Nat → Nat → Nat → List Nat

/-- The neighbours of a position of an entry layer that a consolidation writes (R277): CODEBOOK, snapshot row, shard, layer, position. Log
entry 175. -/
opaque layerEdges : W32 → Nat → Nat → Nat → Nat → List Nat

/-- The shard of a slot that a consolidation fills for the first time (R277): CODEBOOK, slot. Log entry 175. -/
opaque newShard : W32 → Nat → Nat

/-- How many engines miss packets in a broadcast that an engine fails, above one (R450). Log entry 188. -/
opaque enginesMissed : Nat → Nat

/-- How long the writing of a firmware slot takes, ns (R454 gives at most 2 s). Log entry 104. -/
opaque slotTime : Nat → Nat

/-- Whether a write of the firmware slot in recovery fails (R456 ERROR 6). Log entry 104. -/
opaque slotFails : Nat → Bool

end Sys2Proof.Config
end

