-- ==== Sys2Proof/Machine/BootState.lean ====
section
/-! DEFINITION. The state of bring-up, firmware, security, links and power (14, 15, 16).
Each field comment reads: what | width | rule, file | reset. -/
namespace Sys2Proof.Machine

/-- Where bring-up stands (R441 to R443, R432, R456, R457). -/
inductive BootPhase where
  /-- 3.3 V auxiliary power only -/
  | off
  /-- S0, waiting for 12 V on the connector (R477) -/
  | awaiting
  /-- stage n runs -/
  | stage (n : Fin 9)
  /-- S8 is done -/
  | ready
  /-- stage n halted (R443) -/
  | halted (n : Fin 9)
  /-- boot ROM recovery (R456) -/
  | recovery
  /-- a firmware fault (R432) -/
  | faulted
  /-- a thermal shutdown: off until 12 V is removed and applied again (R481) -/
  | shutDown
  deriving DecidableEq, Repr

/-- Bring-up (R441 to R452). -/
structure BootSt where
  /-- where bring-up stands | a name | R441, 15 | off (3.3 V auxiliary power only) -/
  phase : BootPhase := .off
  /-- the management domain has started S0 since the card had 3.3 V, and answers | 1 | R442, R476, 15, 16 | 0 -/
  mgmt : Bool := false
  /-- reset cause of the running boot | 8 | R445, 15 | 0 -/
  cause : Byte := 0
  /-- the stage, 4 or 5, that runs again after a PF reset or PS4 while the drive serves | - | R466, R473, 15 | none -/
  again : Option (Fin 9) := none
  /-- drive time at which the running stage, and S0, started | 64 + 64 | R441, R445, 15 | 0 -/
  started : W64 := 0
  zero : W64 := 0
  /-- current boot report: records by stage | 9 × 64 bytes | R444, R446, 15 | zeros -/
  report : SMap (List Byte) := []
  /-- previous boot report | 4,096 bytes | R446, 15 | zeros -/
  previous : List Byte := []
  /-- tile replacements since manufacture, TILE_REPLACED cairns | 16 × 128 | R446, R448, 15 | none -/
  replacements : List W128 := []
  /-- physical tiles marked failed in the logical tile map | 272 × 1 | R446, R448, 15 | none -/
  failedTiles : List Nat := []
  /-- the registers of physical tiles that hold no index; a missing one has run nothing since the drive's reset | 272 × as Tile | R101, R102, 04 | none -/
  idle : SMap Tile := []
  /-- physical tiles that failed the test of the most recent S4 | 272 × 1 | R448, 15 | none -/
  s4Failed : List Nat := []
  /-- test mode | 1 | R490, 16 | 0 -/
  test : Bool := false
  /-- TEST_N, as read at the last S0 | 1 | R486, R490, 16 | 1 (pulled high) -/
  testN : Bool := true
  /-- a power-loss flush has run since the last S8 | 1 | R451, 15 | 0 -/
  flushedSince : Bool := false
  /-- jobs that a reset ended, by client: counted ABORTED at S8 | counts | R208, 07 | none -/
  endedJobs : List (BitVec 6) := []
  deriving DecidableEq, Repr

/-- The recovery session (R456). -/
structure RecoverySt where
  /-- RCVCTL.IMGLEN | 32 | R456, 15 | 0 -/
  imgLen : W32 := 0
  /-- RCVCTL.CHUNK | 16 | R456, 15 | 0 -/
  chunk : W16 := 0
  /-- RCVSTAT.CHUNKS | 16 | R456, 15 | 0 -/
  chunks : W16 := 0
  /-- RCVSTAT.CAUSE | 4 | R456, 15 | 0 -/
  cause : BitVec 4 := 0
  /-- RCVSTAT.ERROR | 4 | R456, 15 | 0 -/
  error : BitVec 4 := 0
  /-- RCVSTAT.STATE | 3 | R456, 15 | 0 -/
  state : BitVec 3 := 0
  /-- path that owns the session | 2 | R456, 15 | none -/
  owner : Option MgmtPath := none
  /-- RCVDATA: the chunk being filled | 4,096 bytes | R456, 15 | DESIGN CHOICE 0x00, log entry 1 -/
  buffer : Mem := []
  /-- staged image, and the chunks received | 120 MiB | R456, 15 | empty -/
  staged : Mem := []
  received : List Nat := []
  deriving DecidableEq, Repr

/-- An image that is being written into the firmware slot (R454 to R456): what it says, its bytes, when the write ends, and the command that it
completes; none for a recovery session. -/
structure SlotWrite where
  man : Manifest
  bytes : Mem
  ends : W64
  cmd : Option HostCmd
  /-- what the slot held before (R456) | - | R456, 15 | set when the writing begins -/
  was : Option (Manifest × Mem)
  deriving DecidableEq, Repr

/-- Security, firmware and keys (R433 to R439, R453 to R455, R489). -/
structure SecSt where
  /-- SECSTAT.FUSED_SVN | 8 | R433, R440, 14 | fused; DESIGN CHOICE 0, log entry 18 -/
  fusedSvn : Byte := 0
  /-- SECSTAT.REVOKED | 4 | R433, 14 | fused; DESIGN CHOICE 0, log entry 18 -/
  revoked : BitVec 4 := 0
  /-- SECSTAT.PROD | 1 | R433, 14 | fused; DESIGN CHOICE 1, log entry 18 -/
  prod : Bool := true
  /-- DEVSECRET | 256 | R433, 14 | fused; DESIGN CHOICE 0, log entry 18 -/
  devSecret : BitVec 256 := 0
  /-- FWKEY0 to FWKEY3, digests of the firmware public keys | 4 × 512 | R433, 14 | fused; DESIGN CHOICE 0, log entry 18 -/
  fwKeys : List (BitVec 512) := [0, 0, 0, 0]
  /-- MBKCHK | 128 | R433, 14 | fused; DESIGN CHOICE 0, log entry 18 -/
  mbkChk : BitVec 128 := 0
  /-- SECSTAT.IMAGE_SVN, KEYSLOT of the running image | 8 + 2 | R440, 14 | 0 until an image runs -/
  imageSvn : Byte := 0
  keySlot : Fin 4 := 0
  /-- digest of the running image's manifest body, its length, Penla protocol version | 512 + 32 + 8 | R436, R445 | 0 until an image runs -/
  imageDigest : BitVec 512 := 0
  imageBytes : W32 := 0
  penlaVersion : Byte := 0
  /-- SECSTAT.DEBUG | 1 | R440, R489 | 0 -/
  debug : Bool := false
  /-- a valid unlock answer waits for the next drive reset | 1 | R489, 16 | 0 -/
  debugNext : Bool := false
  /-- the running reset set DEBUG, so its S6 does not bind the media binding key | 1 | R489, 16 | 0 -/
  noBind : Bool := false
  /-- SECSTAT.MBK | 1 | R437, R440 | 0 -/
  mbk : Bool := false
  /-- namespace key pairs by NSX, and the drive extent key pair, as numbers of keys drawn | counts | R438, R439, 14 | none; 0 -/
  nsKeys : SMap Nat := []
  extentKey : Nat := 0
  /-- keys drawn so far | count | R437, R439, 14 | 1 (the extent key of manufacture) -/
  keysDrawn : Nat := 1
  /-- firmware slot: manifest and image bytes | 120 MiB | R453, 15 | DESIGN CHOICE none, log entry 18 -/
  slot : Option (Manifest × Mem) := none
  /-- slot header: the dies whose reserved blocks hold the image, its length, and its manifest's digest | - | R453, 15 | none -/
  slotHeader : Option (List Nat × W32 × BitVec 512) := none
  /-- the image that is being written into the slot | - | R454, R455, 15 | none -/
  slotWrite : Option SlotWrite := none
  /-- the last write of the slot was cut | 1 | R455, 15 | 0 -/
  slotCut : Bool := false
  /-- staged firmware image: bytes, and the 4 KiB pieces received | - | R454, 15 | empty -/
  staged : Mem := []
  pieces : List Nat := []
  deriving DecidableEq, Repr

/-- A Penla port (R429, R430, R465). -/
structure Port where
  /-- PLLINK.LANES | 8 | R430, 14 | 0 -/
  lanes : Byte := 0
  /-- PLFEC.CORR, PLFEC.UNCORR | 32 + 32 | R430, 14 | 0 -/
  corr : W32 := 0
  uncorr : W32 := 0
  /-- PLLINK.REPLAYS, PLLINK.RETRAINS | 32 + 16 | R430, 14 | 0 -/
  replays : W32 := 0
  retrains : W16 := 0
  /-- the port loops its direction's traffic out of the other port | 1 | R465, 15 | 0 -/
  wrapped : Bool := false
  /-- the lost link trained again, and unwraps at the next chain saddle | 1 | R465, 15 | 0 -/
  unwrap : Bool := false
  /-- flits passed out of this port, newest last: destination and payload; and whether each is a NACK | list | R464, 15 | empty -/
  sent : List (Nat × W64 × Bool) := []
  deriving DecidableEq, Repr

/-- Links (R384, R429, R430). -/
structure LinkSt where
  /-- Penla ports 0 and 1 | 2 | R430, 14 | as Port -/
  ports : SMap Port := []
  /-- mesh links that have failed | list | R429, 14 | none -/
  mesh : List Nat := []
  /-- how many mesh links failed in training | 16 | R445, 15 | 0 -/
  meshTrained : W16 := 0
  /-- PCIe rate (0 link down) and width | 8 + 8 | R384, R445 | link down -/
  pcieRate : Byte := 0
  pcieLanes : Byte := 0
  deriving DecidableEq, Repr

/-- Select registers and the group-reset registers of BAR2 (R102, R242, R422, R430, R467). -/
structure RegSt where
  /-- TILESEL.TILE | 9 | R101, 04 | 0 -/
  tilesel : BitVec 9 := 0
  /-- TILESEL.PHYS | 1 | R101, 04 | 0 -/
  tilephys : Bool := false
  /-- STKSEL.STACK | 1 | R242, 08 | 0 -/
  stksel : BitVec 1 := 0
  /-- PORTSEL.PORT | 1 | R430, 14 | 0 -/
  portsel : BitVec 1 := 0
  /-- GRPRSTAT.RESETS | 32 | R467, 15 | 0 -/
  resets : W32 := 0
  /-- GRPRSTAT.STATUS | 16 | R467, 15 | 0 -/
  resetStatus : W16 := 0
  /-- GRPRSTAT.BUSY | 1 | R467, 15 | 0 -/
  busy : Bool := false
  /-- what the last register read returned | 64 | R189, R488 | none -/
  read : Option W64 := none
  deriving DecidableEq, Repr

/-- Power and temperature (13 R417, R418; 16 R476 to R482). -/
structure PowerSt where
  /-- power state, and the last operational one | 3 + 3 | R417, R418, 13 | PS0 -/
  ps : Nat := 0
  lastOp : Nat := 0
  /-- a non-operational state is committed and its entry waits | 3 | R418, 13 | none -/
  entering : Option Nat := none
  /-- the exit latency is elapsing | 1 | R418, 13 | 0 -/
  exiting : Bool := false
  /-- PWRSRC.SENSE: SENSE0 and SENSE1 grounded | 2 | R477, R482, 16 | open until power good -/
  sense0 : Bool := false
  sense1 : Bool := false
  /-- PWRSRC.AUX12 | 1 | R482, 16 | 0 -/
  aux12 : Bool := false
  /-- PWRSRC.PWRBRK | 1 | R482, 16 | 0 -/
  pwrbrk : Bool := false
  /-- thermal limit (PWRSTAT.THERM), W | 16 | R481, R482, 16 | 300 -/
  therm : Nat := 300
  /-- PWRSTAT.INPUT, mW | 32 | R482, 16 | 0 -/
  input : W32 := 0
  /-- HOLDUP.TH and HOLDUP.CAP; SLOTS is the write buffer's | 16 + 16 | R482, 16 | DESIGN CHOICE 0 until the first measurement, log entry 36 -/
  th : W16 := 0
  cap : W16 := 0
  /-- a measurement of the bank runs | 1 | R479, 16 | 0 -/
  measuring : Bool := false
  /-- drive time of the next measurement | 64 | R479, 16 | 24 h -/
  measureAt : W64 := 86400000000000
  /-- TEMPS: hottest controller die, hotter stack, hottest flash package, bank, inlet, outlet | 6 × 8 | R482, 16 | 0 -/
  ctrl : Byte := 0
  dram : Byte := 0
  flash : Byte := 0
  bank : Byte := 0
  inlet : Byte := 0
  outlet : Byte := 0
  deriving DecidableEq, Repr

end Sys2Proof.Machine
end

