-- ==== Sys2Proof/Machine/IndexState.lean ====
section
/-! DEFINITION. The state of the indexes (09 R267 to R279) and of stored prefill maps (10 R304 to R308).
Each field comment reads: what | width | rule, file | reset. -/
namespace Sys2Proof.Machine

/-- A moraine row: its descriptor (R268), code row and stored vector (R267). -/
structure Row where
  step : W64
  sup : Nat
  del : Bool
  label : Byte
  node : Nat
  key : W64
  codes : List Nat
  vcode : List Byte
  vmeta : List W32
  /-- its codes under CODEBOOKs that a re-encode has replaced, for the jobs still bound to them (R18, R321) -/
  older : SMap (List Nat)
  deriving DecidableEq, Repr

/-- An index, by the handle of its CODEBOOK (R245). -/
structure IndexSt where
  /-- TOMBSTONES and MORAINE objects | handles | R245, 09 | - -/
  tombObj : W32
  moraineObj : W32
  /-- committed rows by number | - | R267, 09 | none -/
  rows : SMap Row := []
  /-- BASE, and rows committed so far | counts | R270, 09 | 0 -/
  base : Nat := 0
  length : Nat := 0
  /-- the node-ID counter | 40 | R245, R269, 09 | the descriptor's NEXT_ID -/
  counter : Nat
  /-- tombstone bitmap: node IDs whose bit is set | - | R271, 09 | none -/
  tombs : List Nat := []
  /-- tombstone log: node ID and row | 1,048,576 entries | R271, 09 | none -/
  tlog : List (Nat × Nat) := []
  /-- MORAINE_LOG segments: handle and first row | list | R274, 09 | none -/
  segs : List (W32 × Nat) := []
  /-- rows below this number are no longer held in Tier D | row number | R274 | 0 -/
  sealedTo : Nat := 0
  /-- a consolidation that failed is submitted again at the next saddle | 1 | R279 | 0 -/
  due : Bool := false
  /-- a consolidation failed, and waits for a restart (R279) | 1 | R279 | 0 -/
  failed : Bool := false
  deriving DecidableEq, Repr

/-- The indexes. -/
structure IdxSt where
  /-- indexes by CODEBOOK handle | - | R245, 09 | none -/
  all : SMap IndexSt := []
  /-- CODEBOOKs that a swap has replaced, while the directory still has them: handle of the CODEBOOK that names their index now | - | R278, 09 | none -/
  heads : SMap Nat := []
  /-- prefill map | - | R308, 10 | empty -/
  prefill : List PrefillEnt := []
  deriving DecidableEq, Repr

end Sys2Proof.Machine
end

