-- ==== Sys2Proof/Machine/MediaState.lean ====
section
/-! DEFINITION. The state of the flash media, of sealed extents, of the translation layer and of namespaces
(11, 12; 13 R390 to R394). Each field comment reads: what | width | rule, file | reset. -/
namespace Sys2Proof.Machine

/-- What a die block holds. -/
inductive BlkUse where
  /-- free for the translation layer -/
  | free
  /-- an open block of the translation layer -/
  | open_
  /-- a closed block of the translation layer -/
  | closed
  /-- a block of a program's sealed extent: its handle and its number in it -/
  | extent (h block : Nat)
  /-- a block of the sealed extents that Rinsis owns -/
  | sealed
  /-- the target of the window move that runs (R350) -/
  | moving
  /-- out of service: its block replaced a retired one of a die without a spare (R378) -/
  | gone
  deriving DecidableEq, Repr

/-- A block-state record (R326, R372) by die and ring position. -/
structure Blk where
  use : BlkUse := .free
  /-- mode of the last erase | 1 | R326, 11 | QLC, DESIGN CHOICE, log entry 18 -/
  qlc : Bool := true
  /-- erased bit | 1 | R326, 11 | 1, DESIGN CHOICE, log entry 18 -/
  erased : Bool := true
  /-- write pointer | 12 | R326, 11 | 0 -/
  wp : Nat := 0
  /-- wear count | count | R325, 11 | DESIGN CHOICE 0, log entry 18 -/
  wear : Nat := 0
  /-- drive epoch minute and die temperature at the first program after the last erase | 32 + 8 | R326, 11 | 0 -/
  minute : Nat := 0
  temp : Byte := 0
  /-- lowest SEQ in the block | 48 | R372, 12 | 0 -/
  lowSeq : Nat := 0
  /-- retired and replaced by a spare | 1 | R163, R348 | 0 -/
  replaced : Bool := false
  /-- marked not erased: a stopped erase | 1 | R334 | 0 -/
  stopped : Bool := false
  /-- FPROGs accepted whose unit is not programmed yet | count | R167 | 0 -/
  running : Nat := 0
  /-- units that hold data at and past the write pointer, after a program cut by power loss | count | R347 | 0 -/
  cut : Nat := 0
  /-- a check is queued | 1 | R347 | 0 -/
  check : Bool := false
  /-- an erase is pending or running | 1 | R346 | 0 -/
  erasing : Bool := false
  /-- the pending refresh of a block, for the background | 1 | R377 | 0 -/
  refresh : Bool := false
  deriving DecidableEq, Repr

/-- The kind of a unit (R359). -/
inductive UnitKind where
  | data | trim | partial_ | summary | system
  deriving DecidableEq, Repr

/-- A trim entry (R365). -/
structure Trim where
  nsx : Nat
  lua : Nat
  count : Nat
  seq : Nat
  deriving DecidableEq, Repr

/-- A map entry (R354): STATE and PUA or slot; a missing one is unmapped. -/
structure MapEnt where
  state : Nat
  at_ : Nat
  deriving DecidableEq, Repr

/-- A unit of the translation layer with its header fields (R358), on flash or in the write buffer. -/
structure FUnit where
  kind : UnitKind
  nsx : Nat
  lua : Nat
  seq : Nat
  gen : Nat := 0
  /-- VALIDMASK: slots that hold data (sub-unit images in the buffer, PARTIAL units) -/
  valid : W16 := 0xFFFF
  lost : W16 := 0
  minute : Nat := 0
  temp : Byte := 0
  trims : List Trim := []
  data : Mem := []
  /-- the queue and command of the write that put it in the buffer last (R409) -/
  tag : Option (Fin 33 × W16 × W16) := none
  /-- in the buffer: the map entry that the unit had before, whose unit a merge reads (R363); on flash: the map entry that a copy's source had, until the
  source's block is erased (R367, R369) -/
  old : MapEnt := ⟨0, 0⟩
  /-- SYSTEM units of the flush area: the extent and the place in it, 2,048 × block + unit, of a held unit (R371, R373) -/
  ext : Option (W32 × Nat) := none
  /-- units of the flush area: the die whose kept-aside block holds it (R371) -/
  die : Option Nat := none
  deriving DecidableEq, Repr

/-- What a program or an erase on a die is for. -/
inductive WriteFor where
  /-- an FPROG of a pSLC unit: the record operation -/
  | fprog (op : Nat)
  /-- an FERASE: the record operation -/
  | ferase (op : Nat)
  /-- a QLC word line of an extent: its handle, block and line -/
  | line (h block line : Nat)
  /-- the background erase of a freed extent's block -/
  | background
  /-- the erase, after power-on, of a block whose erase was stopped -/
  | again
  /-- the erase of a block for an extent that is being allotted (R415) -/
  | allot
  /-- a word line of the translation layer (R362, R367): its units, each with the map entry that it had; for copies the block that they come from
  (4,096 × die + position) and whether that block's erase fails; whether the program fails -/
  | units (us : List (FUnit × MapEnt)) (victim : Option (Nat × Bool)) (fails : Bool)
  /-- the erase of a block whose units have moved (R367): whether it fails -/
  | victim (fails : Bool)
  /-- the erase of a window move's target, and the program of `n` units there (R350): whether it fails -/
  | moveErase
  | moveLine (n : Nat) (fails : Bool)
  deriving DecidableEq, Repr

/-- A program or an erase in a die's write queue (R330). -/
structure DieWrite where
  pos : Nat
  erase : Bool
  qlc : Bool
  serves : WriteFor
  deriving DecidableEq, Repr

/-- A die (R323, R327, R330, R331, R349). -/
structure Die where
  /-- DIESTAT.FAILED | 1 | R327, R333, 11 | 0 -/
  failed : Bool := false
  /-- DIESTAT.OTPBAD | 1 | R327, R342, 11 | 0 -/
  otpBad : Bool := false
  /-- DIESTAT.CALDEF | 1 | R327, R344, 11 | 0 -/
  calDef : Bool := false
  /-- DIESTAT.TEMP | 8 | R327, R481, 11 | 0 -/
  temp : Byte := 0
  /-- the die's temperature has been read since its last reset | 1 | R327, R481, 11 | 0 -/
  tempRead : Bool := false
  /-- DIESTAT.SPAREFREE | 8 | R327, 11 | 120 -/
  spares : Nat := 120
  /-- DIESTAT.RETIRED | 16 | R327, 11 | 0 -/
  retired : Nat := 0
  /-- physical block of a position whose block was replaced (R349): spares number from 4,096 | 13 each | R349, 11 | the position -/
  remap : SMap Nat := []
  /-- window: first ring position S, size W, rotation R | counts | R349, 11 | 0 -/
  winS : Nat := 0
  winW : Nat := 0
  winR : Nat := 0
  /-- extent blocks of the window, by index j: a slot holds the extent and block (handle 0 for one that Rinsis owns), or is empty | W | R349, 11 | empty -/
  slots : SMap (Option (Nat × Nat)) := []
  /-- block-state records by ring position | 4,096 | R326, 11 | as Blk -/
  blocks : SMap Blk := []
  /-- read queue, oldest first | list | R330, 11 | empty -/
  reads : List DieRead := []
  /-- the read that runs: the array time it takes began | - | R330 | none -/
  reading : Option DieRead := none
  /-- the ledger entry that it uses: its index, and the threshold offsets of its levels | 9 + 16 × 8 | R338, 11 | none -/
  entry : Option (Nat × List Byte) := none
  /-- threshold offsets of the array reads of the last step of the last read that ended | 1 or 3 × 16 × 8 | R336, 11 | none -/
  levels : List (List Byte) := []
  /-- record of the block that the die keeps aside for the power-loss flush, pSLC | as Blk | R326, R371 | erased, DESIGN CHOICE, log entry 18 -/
  flushBlk : Blk := { qlc := false }
  /-- write queue, oldest first | list | R330, 11 | empty -/
  writes : List DieWrite := []
  /-- the write that runs or is suspended | - | R330 | none -/
  writing : Option DieWrite := none
  /-- its last start or resume and its run time then left, ns | 64 + 64 | R331 | 0 -/
  wStart : Nat := 0
  wLeft : Nat := 0
  /-- the write is suspended | 1 | R331 | 0 -/
  suspended : Bool := false
  /-- the instant of the suspend that is scheduled | 64 | R331 | none -/
  suspendAt : Option Nat := none
  /-- reads served in the suspension window | 4 | R331 | 0 -/
  served : Nat := 0
  deriving DecidableEq, Repr

/-- A block of the sealed extents that Rinsis owns (R234, R236): its mode, and what each unit written holds, in page order: object, copy (2 and 3
for the record and table of a copy) and unit; object 0 where a read-back failed. -/
structure SealBlock where
  qlc : Bool
  units : List (Nat × Nat × Nat) := []
  deriving DecidableEq, Repr

/-- A channel's counters (R327). -/
structure Chan where
  /-- CHSTAT.TRAINED | 1 | R327, 11 | 0 -/
  trained : Bool := false
  /-- READS, PROGS, ERASES, SUSPENDS, RETRIES, UNCORR | 6 × 64 | R327, 11 | 0 -/
  reads : W64 := 0
  progs : W64 := 0
  erases : W64 := 0
  suspends : W64 := 0
  retries : W64 := 0
  uncorr : W64 := 0
  /-- RDMAX.WAITNS | 32 | R327, 11 | 0 -/
  rdmax : W32 := 0
  deriving DecidableEq, Repr

/-- A sealed extent that a program may own (R345, R415). -/
structure Extent where
  owner : BitVec 6
  qlc : Bool
  blocks : Nat
  /-- window index of each block on its die -/
  slots : List Nat
  /-- content: byte i of unit u of block b at 65,536 × (2,048 b + u) + i -/
  data : Mem := []
  /-- units that the write buffer holds (R166): 2,048 × block + unit -/
  held : List Nat := []
  /-- the core (4 × tile + core) and the record operation whose FPROG wrote each unit held (R163) -/
  writers : SMap (Nat × Nat) := []
  /-- a free waits for the last bound job (R415) -/
  freed : Bool := false
  /-- the EXTENT ALLOCATE whose erases still run: until they end, the handle names nothing (R415) -/
  waits : Option HostCmd := none
  deriving DecidableEq, Repr

/-- A mapped namespace (R353, R391). -/
structure Nspace where
  nsx : Nat
  /-- LBA format 1: 64 KiB blocks -/
  big : Bool
  /-- size in logical blocks -/
  size : Nat
  deriving DecidableEq, Repr

/-- A window move that runs (R350): its die, the positions it copies from and to, the units that hold data and those copied so far, its share of the erase
count, and whether its next program fails. -/
structure WindowMove where
  die : Nat
  src : Nat
  dst : Nat
  units : Nat
  done : Nat
  stride : Nat
  fails : Bool
  deriving DecidableEq, Repr

/-- Flash media and extents. -/
structure MediaSt where
  /-- CHSEL.CH, CHSEL.DIE | 5 + 4 | R327, 11 | 0 -/
  chsel : BitVec 5 := 0
  diesel : BitVec 4 := 0
  /-- channels | 32 | R323, 11 | as Chan -/
  chans : SMap Chan := []
  /-- dies by channel × 16 + position | 512 | R323, 11 | as Die -/
  dies : SMap Die := []
  /-- read-threshold ledger, live | 8 KiB | R337, 11 | DESIGN CHOICE 0 (the factory seeds it), log entry 1 -/
  ledger : Mem := []
  /-- the ledger on flash, live from the next saddle | 8 KiB | R339, 11 | as the ledger -/
  ledgerNext : Mem := []
  /-- drive-wide erases since the last window move, and moves made | counts | R350, 11 | 0 -/
  sinceMove : Nat := 0
  moves : Nat := 0
  /-- the window move that runs | - | R350, R351, 11 | none -/
  move : Option WindowMove := none
  /-- program-owned extents by handle | - | R345, R415 | none -/
  extents : SMap Extent := []
  /-- blocks of the sealed extents that Rinsis owns, by 4,096 × die + window index | - | R234, R236, 08 | none -/
  sealBlocks : SMap SealBlock := []
  /-- records of the reserved pSLC blocks of the firmware slot, by die | as Blk | R325, R453, 15 | erased, DESIGN CHOICE, log entry 18 -/
  slotBlks : SMap Blk := []
  /-- instant of the last patrol, epoch minutes, by die × 4,096 + position | 32 | R377, 12 | 0 -/
  patrolled : SMap Nat := []
  deriving DecidableEq, Repr

/-- The translation layer and namespaces. -/
structure FtlSt where
  /-- mapped namespaces by NSID | 256 | R390, R391, 13 | none -/
  spaces : SMap Nspace := []
  /-- map, by 2^32 × NSX + LUA | 36 bits each | R353, R354, 12 | unmapped -/
  map : SMap MapEnt := []
  /-- units on flash by PUA | 64 KiB + header each | R357, R358, 12 | none -/
  units : SMap FUnit := []
  /-- units that every read finds uncorrectable, by PUA | list | R336, R381 | none -/
  bad : List Nat := []
  /-- write buffer by slot | 16,384 × 64 KiB | R361, 12 | empty -/
  buf : SMap FUnit := []
  /-- usable write-buffer slots | 15 | R479, 16 | 16,384 -/
  slots : Nat := 16384
  /-- host-write sequence counter | 48 | R356, 12 | DESIGN CHOICE 0, log entry 18 -/
  seq : Nat := 0
  /-- HOSTUNITS, MEDIAUNITS | 64 + 64 | R382, 12 | DESIGN CHOICE 0 (per records), log entry 18 -/
  hostUnits : W64 := 0
  mediaUnits : W64 := 0
  /-- writes whose data waits for free slots, oldest first | list | R361, R366, 12 | empty -/
  waiting : List HostCmd := []
  /-- deallocations and writes of zeroes that wait for free slots, oldest first; true for a DATASET MANAGEMENT | list | R361, R365, 12 | empty -/
  zeroing : List (Bool × HostCmd) := []
  /-- controllers whose shutdown notification waits until the buffer is programmed | list | R373, 12 | empty -/
  closing : List (Fin 33) := []
  /-- the die that took the last host word line | 9 | R362, 12 | none -/
  lastDie : Option Nat := none
  /-- units of host data that may enter the buffer below 2,048 free blocks, as collection frees blocks | count | R366, 12 | 0 -/
  credit : Nat := 0
  /-- FTLSTAT.RONLY | 1 | R380, R382, 12 | DESIGN CHOICE 0 (per records), log entry 18 -/
  readOnly : Bool := false
  /-- FTLSTAT.UNSAFE | 1 | R382, 12 | 0 -/
  unsafe_ : Bool := false
  /-- FTLSTAT.MAPLIVE | 1 | R382, 12 | 0 -/
  mapLive : Bool := false
  /-- units of the flush area | list | R371, 12 | empty -/
  flush : List FUnit := []
  /-- dies whose kept-aside block holds units of the flush area | list | R371, R374, 12 | empty -/
  flushDies : List Nat := []
  /-- clean marker, flush marker with the flush duration in µs | 1 + 27 | R371, R373 | clean, DESIGN CHOICE, log entry 18 -/
  clean : Bool := true
  flushed : Option Nat := none
  /-- NSX values freed, with the SEQ of their trim entry | list | R391 | empty -/
  deadNsx : List (Nat × Nat) := []
  deriving DecidableEq, Repr

end Sys2Proof.Machine
end

