-- ==== Sys2Proof/Machine/DriveState.lean ====
section
/-! DEFINITION. The state of protection, chain, objects, indexes, media, translation, boot and power
(08 to 16). Each field comment reads: what | width | rule, file | reset. -/
namespace Sys2Proof.Machine

/-- The registers of one memory kind (R421, R422). -/
structure EccKind where
  /-- ECCCNT.CE | 32 | R422, 14 | 0 -/
  ce : W32 := 0
  /-- ECCCNT.UE | 32 | R422, 14 | 0 -/
  ue : W32 := 0
  /-- correctable-error table, by entry | 16 × 128 | R421, 14 | 0 -/
  table : SMap W128 := []
  /-- CEHEAD.WRITTEN | 32 | R422, 14 | 0 -/
  written : W32 := 0
  /-- SCRUBPOS | 64 | R422, 14 | 0 -/
  pos : W64 := 0
  /-- SCRUBPASS | 64 | R422, 14 | 0 -/
  passes : W64 := 0
  /-- correctable errors since the last ECC_CE cairn | count | R440, 14 | 0 -/
  sinceCe : Nat := 0
  /-- drive time of that cairn | 64 | R440, 14 | none -/
  ceAt : Option W64 := none
  deriving DecidableEq, Repr

/-- A word with an uncorrectable error that has not been written since (R423): kind, unit and byte address. -/
structure BadWord where
  kind : Nat
  unit : Nat
  addr : Nat
  deriving DecidableEq, Repr

/-- Protection state (R419 to R427). -/
structure EccSt where
  /-- MEMSEL.KIND | 3 | R422, 14 | 0 -/
  memsel : BitVec 3 := 0
  /-- registers by kind | 6 kinds | R422, 14 | as EccKind -/
  kinds : SMap EccKind := []
  /-- words with an uncorrectable error | list | R423, R427, 14 | none -/
  bad : List BadWord := []
  deriving DecidableEq, Repr

/-- A Tier S copy (R221). -/
structure SCopy where
  unit : W16
  tiles : List Nat
  stripe : Bool
  brow : Nat
  rows : Nat
  pinned : Bool
  touch : W64
  /-- tiles of the unit on drives before this one, and tiles of the unit in all: they rank a striped copy's parts (R134) -/
  before : Nat
  total : Nat
  deriving DecidableEq, Repr

/-- A Tier D copy (R222): units that hold an uncorrectable error of a ready object (R241), or whose reload failed. -/
structure DCopy where
  pinned : Bool
  touch : W64
  bad : List Nat
  /-- units that were moved to another location because theirs was retired, once for each move (R239) -/
  moved : List Nat := []
  deriving DecidableEq, Repr

/-- The Tier F copies of a sealed object (R234): stored bytes, the stored units that read uncorrectable, by copy, the units that a block
move has given new places (R236), and where each unit lies: by 16,777,216 × copy + unit (copies 2 and 3 are record and table), the position
8,388,608 × die + 2,048 × window index + page. -/
structure FCopy where
  stored : Nat
  bad : List (Nat × Nat) := []
  moved : List Nat := []
  places : SMap Nat := []
  deriving DecidableEq, Repr

/-- An object and its directory record (R214 to R218, R229). -/
structure Obj where
  typ : Nat
  owner : BitVec 6
  size : Nat
  /-- 0 ready, 1 sealed, 2 IMPAIRED -/
  state : Nat
  /-- IMPAIRED case, 0 for none (R237) -/
  case_ : Nat := 0
  name : List Byte := []
  qlc : Bool := false
  copies : Nat := 0
  /-- the content of the Tier D and Tier F copies -/
  data : Mem := []
  digest : BitVec 512 := 0
  sealCairn : W128 := 0
  stored : Nat := 0
  blkshift : Nat := 14
  direct : Bool := false
  s : Option SCopy := none
  d : Option DCopy := none
  f : Option FCopy := none
  /-- dropped: new bindings are refused (R218) -/
  dropped : Bool := false
  /-- OBJECT DROP dropped it (R279) -/
  byHost : Bool := false
  /-- a seal was accepted and has not completed (R161) -/
  sealing : Bool := false
  /-- the job that created it, while it lives (R218) -/
  job : Option Nat := none
  /-- 64 KiB units of a ready object that an uncorrectable error made unreadable until it is dropped | list | R241, R427, 08 | none -/
  gone : List Nat := []
  /-- window base in the memory namespace, in 64 KiB units (R394) -/
  window : Option Nat := none
  /-- pinned copies that a reset lost and that wait for their reload: the Tier S copy as it was placed, and Tier D, pinned or
  counted as pinned for its window alone | - | R223, 08 | none -/
  wantS : Option SCopy := none
  wantD : Option Bool := none
  /-- PS4 has lost the Tier S copy, and jobs that bind the object wait for its reload | 1 | R418, 13 | 0 -/
  ps4 : Bool := false
  /-- an object sealed in place: its extent and the blocks that hold parts of it (R164, R220) -/
  extent : Option (W32 × List Nat) := none
  deriving DecidableEq, Repr

/-- Objects and Tier D (R212 to R242). -/
structure ObjSt where
  /-- object directory by handle | at most 4,194,304 | R214, R215, 08 | empty (an object directory survives resets; none at manufacture) -/
  dir : SMap Obj := []
  /-- next handle | 28 | R215, 08 | 1 -/
  next : Nat := 1
  /-- Tier D DMA channels halted: stack, channel | 2 × 16 | R239, R242, 08 | none -/
  halted : List (Nat × Nat) := []
  /-- the 64 KiB unit, by 16 × stack + channel, that a halted channel met the error in and that a Tier F copy can restore | 23 each | R239, 08 | none -/
  haltUnits : SMap Nat := []
  /-- 64 KiB units retired for the rest of the power-on: stack, unit | list | R239, 08 | none -/
  retiredUnits : List (Nat × Nat) := []
  /-- STKSTAT.HALTS by stack | 2 × 16 | R242, 08 | 0 -/
  halts : SMap W16 := []
  /-- STKSTAT.RETIRED by stack | 2 × 16 | R242, 08 | 0 -/
  retired : SMap W16 := []
  /-- STKSTAT.TRAINED by stack | 2 × 1 | R242, 08 | 0 -/
  trained : BitVec 2 := 0
  /-- STKSTAT.TEMP by stack | 2 × 8 | R242, 08 | 0 -/
  temp : SMap Byte := []
  deriving DecidableEq, Repr

/-- A chain record (R458). -/
structure ChainRec where
  id : W64
  n : Nat
  pos : BitVec 3
  digests : List W128
  nsid : W32
  valid : Bool
  deriving DecidableEq, Repr

/-- A chain saddle at which this drive joins (R460 step 6, R461): its instant in drive time, the master's STEP_PERIOD, the members then present,
the FORM command that completes there, and the master's live chain-scope settings, which a drive that joins a running chain receives. -/
structure Joining where
  at_ : W64
  period : W32
  present : Byte
  form : Option HostCmd
  live : Option (List StagedChange) := none
  deriving DecidableEq, Repr

/-- Chain state (R182, R202, R203, R458 to R465). -/
structure ChainSt where
  /-- own ring position (DRV); 0 in a chain of one | 3 | R107, 05; R26, 01 | 0 -/
  pos : BitVec 3 := 0
  /-- members present, a bitmap by ring position; own bit alone in a chain of one | 8 | R459, 15 | 0x01 -/
  present : Byte := 1
  /-- chain record | 64 + 4 + 3 + 8 × 128 + 32 | R458, 15 | none -/
  record : Option ChainRec := none
  /-- it runs in its chain | 1 | R459, R461, 15 | 0 -/
  inChain : Bool := false
  /-- the chain saddle that it joins at | - | R460, R461, 15 | none -/
  joining : Option Joining := none
  /-- the FORM whose probe is out, and its EXPECT | - | R460, 15 | none -/
  probing : Option (HostCmd × Nat) := none
  /-- a LEAVE or a DISSOLVE (true) that takes effect at the next chain saddle | - | R463, 15 | none -/
  ending : Option (HostCmd × Bool) := none
  /-- members that have left since the record was made: it names them no more | 8 | R463, 15 | 0 -/
  gone : Byte := 0
  /-- a FIRMWARE that completes at the next chain saddle, with the members whose slots hold the image | - | R463, 15 | none -/
  sending : Option (HostCmd × Byte) := none
  /-- drives whose join offers were accepted, which join at the next chain saddle | 8 | R461, 15 | 0 -/
  admitting : Byte := 0
  /-- join offers sent | count | R461, 15 | 0 -/
  offers : Nat := 0
  /-- chain-scope changes that this drive, as master, has accepted and not yet sent in a saddle flit, in order | list | R202, 07 | empty -/
  accepted : List StagedChange := []
  /-- chain-scope changes staged here and forwarded to the master, until a saddle flit carries them | list | R202, 07 | empty -/
  forwarded : List StagedChange := []
  /-- the saddle flit of the coming saddle: step number and changes | - | R202, R203, 07 | none -/
  flit : Option (W64 × List StagedChange) := none
  /-- result records sent to another member, with its ring position and its number for the query; none refuses the query | list | R283, 09 | empty -/
  sent : List (Nat × Nat × Option (List Byte)) := []
  /-- queries and withdrawals sent to other members, by ring position | list | R28, R210, R283, 09 | empty -/
  asked : List (Nat × FanOutQuery) := []
  /-- outcomes and values sent to the members that forwarded a chain-scope change | list | R202, 07 | empty -/
  answered : List (Nat × W16 × W64) := []
  deriving DecidableEq, Repr

end Sys2Proof.Machine
end

