-- ==== Sys2Proof/Machine/State.lean ====
section
/-! DEFINITION. The whole state of the drive, its faults and refusals, and the state after reset. -/
namespace Sys2Proof.Machine

/-- Why a command stops the model. -/
inductive Fault where
  /-- raised by no meaning: the spec gives every command an effect (safe) -/
  | unreachable
  deriving DecidableEq, Repr

/-- Why the model refuses a command. -/
inductive Refusal where
  /-- raised by an arm of exec that has no meaning yet (safe) -/
  | notModelled (mnemonic : String)
  deriving DecidableEq, Repr

/-- The state of the drive. -/
structure State where
  /-- drive time, islands, cairn log -/
  time : TimeSt := {}
  /-- settings, steps -/
  set : SettingsSt := {}
  /-- controllers, queues, jobs -/
  host : HostSt := {}
  /-- tiles by logical index | 256 | R94, 04 | as Tile -/
  tiles : SMap Tile := []
  /-- traversal engines by cluster | 16 | R103, 05 | as Engine -/
  engines : SMap Engine := []
  /-- protection -/
  ecc : EccSt := {}
  /-- objects and Tier D -/
  obj : ObjSt := {}
  /-- indexes -/
  idx : IdxSt := {}
  /-- flash media and extents -/
  media : MediaSt := {}
  /-- translation layer and namespaces -/
  ftl : FtlSt := {}
  /-- power and temperature -/
  pwr : PowerSt := {}
  /-- bring-up -/
  boot : BootSt := {}
  /-- recovery -/
  rcv : RecoverySt := {}
  /-- security, firmware, keys -/
  sec : SecSt := {}
  /-- links -/
  link : LinkSt := {}
  /-- select and group-reset registers -/
  reg : RegSt := {}
  /-- chain -/
  chain : ChainSt := {}
  /-- the model's own counter of free values drawn | count | model's own | DESIGN CHOICE 0, log entry 5 -/
  freeCtr : Nat := 0
  /-- commands that wait, first in, first out | list | the model's queue | empty -/
  pending : List Instr := []
  deriving DecidableEq, Repr

/-- The machine right after reset: 3.3 V auxiliary power has come up and S0 has not started (R441). -/
def State.reset : State := {}

end Sys2Proof.Machine
end

