-- ==== Sys2Proof/Machine/Ops.lean ====
section
/-! DEFINITION. The named operations over the state: accessors, cairns (R185 to R189), error records
(R419 to R423), status and traps (R122 to R130), and the issue of an Abasel instruction (R110, R118 to R121, R131). -/
namespace Sys2Proof.Machine

/-- The outcome of a command. -/
abbrev Out := Host.Outcome State Fault Refusal

/-! ## Accessors -/

/-- Logical tile `t`. -/
def State.tile (s : State) (t : Nat) : Tile := getD {} s.tiles t
/-- Drive time moves on to an instant (R179). -/
def State.reach (s : State) (t : W64) : State :=
  { s with time := { s.time with now := if s.time.now.toNat < t.toNat then t else s.time.now } }
/-- Whether the drive is at S8 and serves (R441, R452). -/
def State.ready (s : State) : Bool := s.boot.phase == .ready
/-- Writes logical tile `t`. -/
def State.setTile (s : State) (t : Nat) (x : Tile) : State := { s with tiles := put t x s.tiles }
/-- Core `c` of tile `t`. -/
def State.core (s : State) (t c : Nat) : Core := getD {} (s.tile t).cores c
/-- Writes core `c` of tile `t`. -/
def State.setCore (s : State) (t c : Nat) (x : Core) : State :=
  s.setTile t { s.tile t with cores := put c x (s.tile t).cores }
/-- The traversal engine of cluster `e`. -/
def State.engine (s : State) (e : Nat) : Engine := getD {} s.engines e
/-- Writes the traversal engine of cluster `e`. -/
def State.setEngine (s : State) (e : Nat) (x : Engine) : State := { s with engines := put e x s.engines }
/-- Context `k` of engine `e`. -/
def State.ctx (s : State) (e k : Nat) : Ctx := getD {} (s.engine e).ctxs k
/-- Writes context `k` of engine `e`. -/
def State.setCtx (s : State) (e k : Nat) (x : Ctx) : State :=
  s.setEngine e { s.engine e with ctxs := put k x (s.engine e).ctxs }

/-- The scalar side of an agent (R106). -/
def State.regs (s : State) : Agent → Regs
  | .core t c => (s.core t.val c.val).r
  | .ctx e k => (s.ctx e.val k.val).r

/-- Writes the scalar side of an agent. -/
def State.setRegs (s : State) (ag : Agent) (r : Regs) : State :=
  match ag with
  | .core t c => s.setCore t.val c.val { s.core t.val c.val with r := r }
  | .ctx e k => s.setCtx e.val k.val { s.ctx e.val k.val with r := r }

/-- The next free value and the state that has drawn it. -/
def State.draw (s : State) : Nat × State := (s.freeCtr, { s with freeCtr := s.freeCtr + 1 })

/-- Scalar register `n`; s0 reads 0 (R106). -/
def Regs.rs (r : Regs) (n : BitVec 5) : W64 := if n = 0 then 0 else getD 0 r.s n.toNat
/-- Writes scalar register `n`; writes to s0 are discarded (R106). -/
def Regs.ws (r : Regs) (n : BitVec 5) (v : W64) : Regs := if n = 0 then r else { r with s := putD 0 r.s n.toNat v }
/-- Predicate register `n`; p0 reads all ones (R106). -/
def Regs.rp (r : Regs) (n : BitVec 5) : W64 := if n = 0 then BitVec.allOnes 64 else getD 0 r.p n.toNat
/-- Writes predicate register `n`; writes to p0 are discarded (R106). -/
def Regs.wp (r : Regs) (n : BitVec 5) (v : W64) : Regs := if n = 0 then r else { r with p := putD 0 r.p n.toNat v }

/-- Lane `l` of vector register `n`. -/
def Core.rv (k : Core) (n : BitVec 5) (l : Nat) : W32 := getD 0 k.v (64 * n.toNat + l)
/-- Writes lane `l` of vector register `n`. -/
def Core.wv (k : Core) (n : BitVec 5) (l : Nat) (x : W32) : Core := { k with v := putD 0 k.v (64 * n.toNat + l) x }
/-- Writes several lanes of vector register `n`. -/
def Core.wvs (k : Core) (n : BitVec 5) : List (Nat × W32) → Core
  | [] => k
  | (l, x) :: xs => (k.wv n l x).wvs n xs
/-- Element `e` of accumulator bank `b` (R92). -/
def Core.racc (k : Core) (b e : Nat) : W32 := getD 0 k.acc (256 * b + e)
/-- Writes element `e` of accumulator bank `b`. -/
def Core.wacc (k : Core) (b e : Nat) (x : W32) : Core := { k with acc := putD 0 k.acc (256 * b + e) x }
/-- Writes several elements of accumulator bank `b`. -/
def Core.waccs (k : Core) (b : Nat) : List (Nat × W32) → Core
  | [] => k
  | (e, x) :: xs => (k.wacc b e x).waccs b xs
/-- Descriptor `n` (R114). -/
def Core.rd (k : Core) (n : BitVec 5) : W256 := getD 0 k.d n.toNat
/-- Writes descriptor `n`. -/
def Core.wd (k : Core) (n : BitVec 5) (x : W256) : Core := { k with d := putD 0 k.d n.toNat x }
/-- An extreme register's reset value (R49): MAX −infinity, MIN +infinity, counts 0. -/
def extReset : W128 := 0xFF8000007F8000000000000000000000#128
/-- Extreme register `n` (R49). -/
def Core.rext (k : Core) (n : Nat) : W128 := getD extReset k.ext n
/-- Writes extreme register `n`. -/
def Core.wext (k : Core) (n : Nat) (x : W128) : Core := { k with ext := putD extReset k.ext n x }

/-- Job `n`. -/
def State.job? (s : State) (n : Nat) : Option Job := s.host.jobs.find? (fun j => j.num == n)
/-- Applies `f` to job `n`. -/
def State.updJob (s : State) (n : Nat) (f : Job → Job) : State :=
  { s with host := { s.host with jobs := s.host.jobs.map (fun j => if j.num == n then f j else j) } }
/-- Applies `f` to job `n` when there is one. -/
def State.updJob? (s : State) (n : Option Nat) (f : Job → Job) : State :=
  match n with
  | none => s
  | some k => s.updJob k f

/-- The DETAIL of a job's cairns (R27): client and job number. -/
def Job.detail (j : Job) : BitVec 28 := j.client ++ BitVec.ofNat 22 j.num
/-- The DETAIL of the cairns of job `n`; 0 when there is no such job. -/
def State.jobDetail (s : State) (n : Option Nat) : BitVec 28 :=
  match n with
  | none => 0
  | some k => match s.job? k with
    | none => 0
    | some j => j.detail

/-! ## Status codes (R124) -/

/-- Drive status codes (R124). -/
def stOk : W16 := 0x0000
def stInvalidOperand : W16 := 0x0001
def stInvalidField : W16 := 0x0002
def stSpurMapInvalid : W16 := 0x0003
def stInvalidGroup : W16 := 0x0100
def stGroupTableFull : W16 := 0x0101
def stGroupOverlap : W16 := 0x0102
def stPeerReset : W16 := 0x0103
def stMemberMissing : W16 := 0x0104
def stObjectUnknown : W16 := 0x0200
def stObjectImpaired : W16 := 0x0201
def stObjectSealed : W16 := 0x0202
def stQuotaExceeded : W16 := 0x0203
def stTierFull : W16 := 0x0204
def stOutOfRange : W16 := 0x0205
def stMediaNotErased : W16 := 0x0300
def stMediaNotOwned : W16 := 0x0301
def stMediaProgramFail : W16 := 0x0302
def stMediaEraseFail : W16 := 0x0303
def stMediaUncorrectable : W16 := 0x0304
def stContextExhausted : W16 := 0x0400
def stStageFull : W16 := 0x0500
def stAborted : W16 := 0x0501
def stProgramTrap : W16 := 0x0502
def stDeferredWriteError : W16 := 0x0600
def stQueueFrozen : W16 := 0x0601

/-! ## Islands and cairns -/

/-- The default physical index of logical tile `t`: 64 logical tiles and 4 spares per compute die (R3, R448; DEDUCED, log entry 8). -/
def defaultPhys (t : Nat) : Nat := 68 * (t / 64) + t % 64
/-- The physical index of logical tile `t` (R3). -/
def State.physOf (s : State) (t : Nat) : Nat := (s.tile t).phys.getD (defaultPhys t)

/-- Island sources (R15 and the table of 01). -/
def srcEngine (e : Nat) : BitVec 9 := BitVec.ofNat 9 (0x120 + e)
def srcRouter (c : Nat) : BitVec 9 := BitVec.ofNat 9 (0x110 + c)
def srcDram (n : Nat) : BitVec 9 := BitVec.ofNat 9 (0x130 + n)
def srcMap : BitVec 9 := 0x132
def srcChannel (c : Nat) : BitVec 9 := BitVec.ofNat 9 (0x140 + c)
def srcPcie : BitVec 9 := 0x160
def srcPenla (p : Nat) : BitVec 9 := BitVec.ofNat 9 (0x161 + p)
def srcControl (c : Nat) : BitVec 9 := BitVec.ofNat 9 (0x170 + c)
def srcMgmt : BitVec 9 := 0x17E
def srcRoot : BitVec 9 := 0x17F
/-- The island of logical tile `t`. -/
def State.srcTile (s : State) (t : Nat) : BitVec 9 := BitVec.ofNat 9 (s.physOf t)
/-- The island of an agent. -/
def State.srcOf (s : State) : Agent → BitVec 9
  | .core t _ => s.srcTile t.val
  | .ctx e _ => srcEngine e.val

/-- Island `src`. -/
def State.island (s : State) (src : BitVec 9) : Island := getD {} s.time.islands src.toNat
/-- An island's copy of drive time (R180). -/
def State.islandTime (s : State) (src : BitVec 9) : W64 :=
  BitVec.ofInt 64 ((s.time.now.toNat : Int) + (s.island src).skew / 2)

/-- The drive's position for units, groups and cairns (R5, R6, R185): 0 while it is in no chain. -/
def State.ownPos (s : State) : BitVec 3 := if s.chain.inChain then s.chain.pos else 0

/-- The cairn word (R185). -/
def Cairn.bits (c : Cairn) : W128 := c.time ++ c.island ++ c.seq ++ c.kind ++ c.detail

/-- The capacity of the cairn log ring (R188). -/
def logCap : Nat := 4194304

/-- The entries of one cairn with its attachments, newest first (R188). -/
def groupEntries (bits : W128) (attach : List W128) : List LogEntry :=
  let all := bits :: attach
  (all.zipIdx.map (fun (b, i) => ⟨b, false, all.length - 1 - i⟩)).reverse

/-- Cuts a log, newest first, to the ring's capacity: entries beyond it are overwritten, and the entries of
a group whose first entries were overwritten read 0 (R188: written and overwritten as a whole). Returns the
log and how many unread entries were overwritten (R189 CLLOST). -/
def trimLog (cap : Nat) (l : List LogEntry) : List LogEntry × Nat :=
  match l.drop cap with
  | [] => (l, 0)
  | d :: ds =>
    let keep := l.take cap
    let n := keep.length - d.rest
    let torn := keep.drop n
    (keep.take n ++ torn.map (fun e => { e with bits := 0, seen := true }),
      ((d :: ds) ++ torn).countP (fun e => !e.seen))

/-- Writes a cairn and its attachments to the cairn log (R188, R189), or holds them until map memory is trained (R444). -/
def TimeSt.logCairn (t : TimeSt) (bits : W128) (attach : List W128) : TimeSt :=
  if t.logUp then
    let (l, lost) := trimLog logCap (groupEntries bits attach ++ t.log)
    { t with log := l, written := t.written + BitVec.ofNat 64 (1 + attach.length), lost := t.lost + BitVec.ofNat 64 lost }
  else { t with unlogged := t.unlogged ++ [(bits, attach)] }

/-- The kinds whose cairns the error log copies (R446): STAGE_DONE only with an outcome other than PASS. -/
def errorKind (kind : Byte) (detail : BitVec 28) : Bool :=
  [0x60, 0x61, 0x69, 0x6A, 0x6C, 0x71, 0x73, 0x74, 0x79, 0x7A, 0x7C].contains kind.toNat ||
  (kind == 0x78 && detail.extractLsb' 22 2 != 0)

/-- Copies a cairn into the error log (R446). -/
def TimeSt.errCairn (t : TimeSt) (bits : W128) : TimeSt :=
  { t with errors := (bits :: t.errors).take 256, errHead := t.errHead + 1 }

/-- Stamps a cairn with the TIME given (R185, R186): its island, SEQ, kind and detail; the log and the error log take it. Answers the
cairn's bits. CHAIN_MASTER alone carries another drive's time (R183), which bounds no later cairn of its island. -/
def State.stampTimed (s : State) (time : W64) (src : BitVec 9) (kind : Byte) (detail : BitVec 28) (attach : List W128) : W128 × State :=
  let isl := s.island src
  let c : Cairn := ⟨time, s.ownPos ++ src, isl.seq, kind, detail⟩
  let t := { s.time with islands := put src.toNat { isl with seq := isl.seq + 1, last := if kind = 0x13 then isl.last else time } s.time.islands }
  let t := t.logCairn c.bits attach
  let t := if errorKind kind detail then t.errCairn c.bits else t
  (c.bits, { s with time := t })

/-- The TIME of an island's next cairn (R185, R186): its copy of drive time, never below that of its cairn before, and in control core 0's
island not past the instant of the coming saddle, whose cairn carries it (R192). -/
def State.stampTime (s : State) (src : BitVec 9) : W64 :=
  let t := s.islandTime src
  let t := match s.set.nextSaddle with
    | some n => if src = srcControl 0 ∧ !s.set.held ∧ n.toNat < t.toNat then n else t
    | none => t
  if t.toNat < (s.island src).last.toNat then (s.island src).last else t

/-- Stamps a cairn at its island's time (R185, R186). -/
def State.stampNow (s : State) (src : BitVec 9) (kind : Byte) (detail : BitVec 28) (attach : List W128) : W128 × State :=
  s.stampTimed (s.stampTime src) src kind detail attach

/-- Cairns of an island that wait in its queue for the log (R188): the log takes them at once when map memory is trained. -/
def TimeSt.queued (t : TimeSt) (src : BitVec 9) : Nat :=
  if t.logUp then 0 else t.unlogged.countP (fun x => x.1.extractLsb' 52 9 == src)

/-- The sources that are islands of the drive (R15): tiles and routers, engines and memory controllers, channels, ports, control cores,
management, root. -/
def isIsland (n : Nat) : Bool :=
  n < 0x133 || (0x140 ≤ n && n < 0x163) || (0x170 ≤ n && n < 0x178) || n == 0x17E || n == 0x17F
/-- Whether an island can stamp: it is locked (R180), and its queue of 64 cairns has room (R188). -/
def State.canStamp (s : State) (src : BitVec 9) : Bool :=
  ((s.island src).locked || !isIsland src.toNat) && decide (s.time.queued src < 64)

/-- Stamps a cairn of a given TIME with attachments; while its island cannot (R180, R188) the cairn waits. -/
def State.stampOf (s : State) (time : W64) (src : BitVec 9) (kind : Byte) (detail : BitVec 28) (attach : List W128) : State :=
  if s.canStamp src then (s.stampTimed time src kind detail attach).2
  else { s with time := { s.time with stalled := s.time.stalled ++ [⟨src, kind, detail, attach⟩] } }

/-- Stamps a cairn with attachments at its island's time, or it waits. -/
def State.stampAt (s : State) (src : BitVec 9) (kind : Byte) (detail : BitVec 28) (attach : List W128) : State :=
  s.stampOf (s.stampTime src) src kind detail attach

/-- Stamps a cairn as stampAt does, for an agent that keeps a copy of it: the bits, 0 while it waits. -/
def State.stampGet (s : State) (src : BitVec 9) (kind : Byte) (detail : BitVec 28) (attach : List W128) : W128 × State :=
  (if s.canStamp src then (s.stampNow src kind detail attach).1 else 0, s.stampAt src kind detail attach)

/-- What the action `t` of an agent comes to: when it would stamp a cairn that its island cannot take, the agent stalls and nothing
happens yet (R180, R188); else the action. An action that stamps in several islands waits for all of them (log entry 161). -/
def State.orStall (s : State) (t : State) : State :=
  if s.time.stalled.length < t.time.stalled.length then s else t

/-- Stamps a cairn without attachments. -/
def State.stamp (s : State) (src : BitVec 9) (kind : Byte) (detail : BitVec 28) : State := s.stampAt src kind detail []

/-! ## Memory errors (R419 to R423) -/

/-- The registers of memory kind `k`. -/
def State.eccKind (s : State) (k : Nat) : EccKind := getD {} s.ecc.kinds k
/-- Writes the registers of memory kind `k`. -/
def State.setEccKind (s : State) (k : Nat) (x : EccKind) : State :=
  { s with ecc := { s.ecc with kinds := put k x s.ecc.kinds } }

/-- A count that stops at its largest value. -/
def satInc {w : Nat} (x : BitVec w) : BitVec w := if x = BitVec.allOnes w then x else x + 1

/-- Records a correctable error (R420, R421). -/
def State.noteCe (s : State) (kind unit source : Nat) (bit : BitVec 7) (addr : BitVec 40) : State :=
  let e := s.eccKind kind
  let entry : W128 := s.time.now ++ BitVec.ofNat 4 source ++ (0 : BitVec 4) ++ BitVec.ofNat 9 unit ++ bit ++ addr
  s.setEccKind kind { e with ce := satInc e.ce, table := put (e.written.toNat % 16) entry e.table,
                             written := e.written + 1, sinceCe := e.sinceCe + 1 }

/-- Records an uncorrectable error (R423, R440): the count, the cairn with its address, and the word, which
keeps its error until it is written. `src` is the island of the reader. -/
def State.noteUe (s : State) (src : BitVec 9) (kind unit source : Nat) (addr : BitVec 40) : State :=
  let e := s.eccKind kind
  let s := s.setEccKind kind { e with ue := satInc e.ue }
  let w : BadWord := ⟨kind, unit, addr.toNat / 8 * 8⟩
  let s := if s.ecc.bad.contains w then s else { s with ecc := { s.ecc with bad := s.ecc.bad ++ [w] } }
  s.stampAt src 0x71 (BitVec.ofNat 3 kind ++ BitVec.ofNat 4 source ++ BitVec.ofNat 9 unit ++ (0 : BitVec 12))
    [addr.setWidth 128]

/-- A read whose command does not say whether it met a correctable error: that is free, and recorded when it did (R420, R421; log entry 218). -/
def State.mayCorrect (s : State) (kind unit source addr : Nat) : State :=
  let (n, t) := s.draw
  { t with ecc := match Config.corrected n with
    | some b => (t.noteCe kind unit source b (BitVec.ofNat 40 addr)).ecc
    | none => t.ecc }

/-- What a read of `n` bytes at `a` finds: a word of the range that still holds an uncorrectable error, or
else what the command reports. -/
def State.eccOf (s : State) (kind unit a n : Nat) (hit : EccHit) : EccHit :=
  match s.ecc.bad.find? (fun w => w.kind == kind && w.unit == unit && decide (w.addr < a + n) && decide (a < w.addr + 8)) with
  | some w => .uncorrectable (BitVec.ofNat 40 w.addr)
  | none => hit

/-- Words that a write of `n` bytes at `a` covers whole lose their error (R423). -/
def State.eccWritten (s : State) (kind unit a n : Nat) : State :=
  { s with ecc := { s.ecc with bad := s.ecc.bad.filter (fun w =>
      !(w.kind == kind && w.unit == unit && decide (a ≤ w.addr) && decide (w.addr + 8 ≤ a + n))) } }

/-! ## Tile SRAM -/

/-- Bytes of a tile's SRAM (R212: 2 MiB). -/
def sramSize : Nat := 2097152
/-- Reads `n` bytes of SRAM as a little-endian number. -/
def State.sramNat (s : State) (t a n : Nat) : Nat := (s.tile t).sram.rdNat a n
/-- Writes bytes to SRAM. -/
def State.sramWrite (s : State) (t a : Nat) (bs : List Byte) : State :=
  (s.setTile t { s.tile t with sram := (s.tile t).sram.wrBytes a bs }).eccWritten 0 (s.physOf t) a bs.length

/-! ## Counter block (R47, R48) -/

/-- The largest 64-bit count. -/
def max64 : Nat := 0xFFFFFFFFFFFFFFFF
/-- Adds two 64-bit counts, stopping at the maximum (R48). -/
def add64 (a b : Nat) : Nat := Nat.min (a + b) max64
/-- Adds counts into a counter block (R48). -/
def Counts.add (x y : Counts) : Counts :=
  ⟨add64 x.sat y.sat, add64 x.flush y.flush, add64 x.ovf y.ovf, add64 x.nanp y.nanp, add64 x.inv y.inv, add64 x.nanc y.nanc⟩
/-- Adds counts into the counter block of job `n` (R48). -/
def State.count (s : State) (n : Option Nat) (c : Counts) : State :=
  s.updJob? n (fun j => { j with counts := j.counts.add c })

/-- The 64 bytes of the counter block after its cairn, lowest 16 bytes first (R48, R188). -/
def Counts.attach (c : Counts) : List W128 :=
  [BitVec.ofNat 64 c.flush ++ BitVec.ofNat 64 c.sat, BitVec.ofNat 64 c.nanp ++ BitVec.ofNat 64 c.ovf,
   BitVec.ofNat 64 c.nanc ++ BitVec.ofNat 64 c.inv]

/-- What the members of a level-3 group on other drives have counted: a free value (log entry 11). -/
def peerCounts (n : Nat) : Counts :=
  ⟨Config.peerCount n 0 % 2 ^ 64, Config.peerCount n 1 % 2 ^ 64, Config.peerCount n 2 % 2 ^ 64, Config.peerCount n 3 % 2 ^ 64,
   Config.peerCount n 4 % 2 ^ 64, Config.peerCount n 5 % 2 ^ 64⟩

/-- The counter block of a job with the records of its group's members on other drives (R48). -/
def Job.allCounts (j : Job) : Counts := if j.others.isEmpty then j.counts else j.counts.add (peerCounts j.num)

/-- Rinsis stamps the counter block of job `n` when its program ends (R48), once. Of the control cores' islands it takes that of
control core 0 (log entry 150, the model's choice). -/
def State.stampCounters (s : State) (n : Nat) : State :=
  match s.job? n with
  | none => s
  | some j => if j.counted then s else
    let (cairn, s) := s.stampGet (srcControl 0) 0x40 j.detail j.allCounts.attach
    s.updJob n (fun j => { j with counts := j.allCounts, counted := true, countersCairn := cairn })

/-! ## Status (R122, R123) -/

/-- FIRST and COUNT after a non-OK outcome (R123): FIRST is the first since the last write. -/
def noteStatus (st : W64) (code : W16) : W64 :=
  let count : W32 := st.extractLsb' 32 32
  let first : W16 := if count = 0 then code else st.extractLsb' 16 16
  satInc count ++ first ++ st.extractLsb' 0 16
/-- LAST after the issue of an instruction that can be refused (R123). -/
def lastStatus (st : W64) (code : W16) : W64 := st.extractLsb' 16 48 ++ code

/-- TCTL.STRICT (R128). -/
def Regs.strict (r : Regs) : Bool := r.tctl.getLsbD 0
/-- TCTL.INH (R128). -/
def Regs.inh (r : Regs) : Bool := r.tctl.getLsbD 1

/-- The word index that an agent fetches next (R105, R106): its program counter, or a target outside the store. -/
def Regs.pc (r : Regs) : W64 := r.beyond ++ r.count
/-- The next fetch is that of a word index. -/
def Regs.setPc (r : Regs) (x : W64) : Regs := { r with count := x.setWidth 13, beyond := x.extractLsb' 13 51 }

/-- Records an outcome found after issue (R122, R126): FIRST and COUNT, and under STRICT the pending trap. When several wait,
the one trap carries the first of them (log entry 151, the model's choice). -/
def Regs.outcome (r : Regs) (code : W16) : Regs :=
  if code = 0 then r else
  { r with status := noteStatus r.status code,
           asyncRefused := if r.strict && r.asyncRefused.isNone then some code else r.asyncRefused }

/-! ## Program text and traps -/

/-- The text an agent executes (R105). -/
def State.textOf (s : State) : Agent → List W64
  | .core t c => getD [] (s.tile t.val).texts (s.core t.val c.val).prog.toNat
  | .ctx e _ => (s.engine e.val).text

/-- The handler of a vector: the word index in text word v, 0 for none (R125); FETCH_ECC and STEP_OVERRUN have none. -/
def handlerOf (text : List W64) (v : Nat) : W64 := if v = 1 ∨ v = 8 then 0 else (text[v]?).getD 0

/-- The DETAIL and attachments of a TRAP cairn (R130). -/
def State.trapCairn (s : State) (ag : Agent) (v : Nat) (tpc tval : W64) : BitVec 28 × List W128 :=
  match ag with
  | .core _ c => (s.jobDetail (s.regs ag).job,
      [(0 : W32) ++ tval ++ tpc.setWidth 16 ++ BitVec.ofNat 8 v ++ BitVec.ofNat 8 c.val])
  | .ctx _ k => (BitVec.ofNat 9 k.val ++ BitVec.ofNat 4 v ++ tpc.setWidth 15, [])

/-- Taking a trap (R127 to R129): TPC, TCAUSE, TVAL and INH are written and the TRAP cairn is stamped; the
agent goes to the handler, or fails, and then its job stops at the next saddle with PROGRAM_TRAP. -/
def State.takeTrap (s : State) (ag : Agent) (v : Nat) (tval : W64) (async : Bool) : State :=
  let r := s.regs ag
  let h := handlerOf (s.textOf ag) v
  let fails := r.inh || h == 0
  let cause : W64 := BitVec.ofNat 64 (v % 16 + if async then 16 else 0)
  let r' : Regs := { r with tpc := r.pc, tcause := cause, tval := tval, tctl := r.tctl ||| 2,
                            run := if fails then .failed else r.run }
  let r' := if fails then r' else r'.setPc h
  let (det, att) := s.trapCairn ag v r.pc tval
  let s := (s.setRegs ag r').stampAt (s.srcOf ag) 0x31 det att
  if fails then s.updJob? r.job (fun j => { j with stop := j.stop.or (some stProgramTrap) }) else s

/-- Return from a trap (R127): INH is cleared and the agent resumes at TPC. -/
def Regs.trapReturn (r : Regs) : Regs := ({ r with tctl := r.tctl &&& ~~~ (2 : W64) }).setPc r.tpc

/-- The DETAIL of a STAMP cairn (R130). -/
def stampDetail (ag : Agent) (pc : W64) : BitVec 28 :=
  match ag with
  | .core _ c => BitVec.ofNat 2 c.val ++ pc.setWidth 26
  | .ctx _ k => BitVec.ofNat 9 k.val ++ pc.setWidth 19

/-- Stamps the STAMP cairn of an instruction at word `pc` when it carries STAMP (R131). -/
def State.stampIf (s : State) (b : Bool) (ag : Agent) (pc : W64) : State :=
  if b then s.stamp (s.srcOf ag) 0x30 (stampDetail ag pc) else s

/-! ## Instruction words and issue -/

/-- The register file that a field of the word indexes (R118). -/
inductive RegFile where
  | unused | s | v | p | acc | d
  deriving DecidableEq, Repr

/-- Which agents accept an instruction (R103, R108, R143). -/
inductive Accept where
  | both | core | ctx
  deriving DecidableEq, Repr

/-- How an instruction is encoded and issued: opcode, register files, IMM bits with a meaning, whether lane
predicates apply (R121), whether it can be refused (R123), whether it is long form, and who accepts it. -/
structure Op where
  major : Nat
  minor : Nat
  dst : RegFile := .unused
  a : RegFile := .unused
  b : RegFile := .unused
  imm : W32 := 0
  lanes : Bool := false
  refusable : Bool := false
  long : Bool := false
  /-- every field is 0, predicate and STAMP too (R143 NOP) -/
  bare : Bool := false
  accept : Accept := .both
  deriving DecidableEq, Repr

/-- A register field names a register of its file, or is 0 when unused (R118, R120). -/
def RegFile.holds (f : RegFile) (n : BitVec 5) : Bool :=
  match f with
  | .unused => n == 0
  | .s => true
  | .v => true
  | .p => decide (n.toNat < 8)
  | .acc => decide (n.toNat < 4)
  | .d => decide (n.toNat < 16)

end Sys2Proof.Machine

namespace Sys2Proof
open Machine

/-- Word 0 of the instruction, from its fields (R118, R119). -/
def IWord.word0 (w : IWord) (o : Op) : W64 :=
  let regs : BitVec 20 := w.dst ++ w.srcA ++ w.srcB ++ w.pred ++ BitVec.ofBool w.pneg ++ BitVec.ofBool w.stamp
  match w.form with
  | .short => BitVec.ofNat 6 o.major ++ BitVec.ofNat 6 o.minor ++ regs ++ w.imm
  | .long c m _ => (0x3F : BitVec 6) ++ BitVec.ofNat 6 o.major ++ regs ++ BitVec.ofNat 6 o.minor ++ c ++ m
  | .reserved x => x

/-- The IMM field as written; the long form has none (R119). -/
def IWord.immediate (w : IWord) : W32 :=
  match w.form with
  | .short => w.imm
  | .long _ _ _ => 0
  | .reserved _ => 0

/-- Whether the word is in the long form: word 0 of it carries MAJOR 0x3F (R119), a reserved one too. -/
def IWord.isLong (w : IWord) : Bool :=
  match w.form with
  | .short => false
  | .long _ _ _ => true
  | .reserved x => x.extractLsb' 58 6 == 0x3F

/-- The checks of R103 and R120. -/
def IWord.legal (w : IWord) (o : Op) (ag : Agent) : Bool :=
  (match o.accept, ag with
   | .both, _ => true
   | .core, .core _ _ => true
   | .ctx, .ctx _ _ => true
   | _, _ => false) &&
  o.dst.holds w.dst && o.a.holds w.srcA && o.b.holds w.srcB &&
  (w.immediate &&& ~~~ o.imm == 0) &&
  (!o.bare || (w.pred == 0 && !w.pneg && !w.stamp)) &&
  (match w.form with
   | .short => !o.long
   | .long c m _ => o.long && c == 0 && m == 0
   | .reserved _ => false)

/-- The number of words an instruction takes (R119). -/
def IWord.words (w : IWord) : W64 := if w.isLong then 2 else 1

end Sys2Proof

namespace Sys2Proof.Machine

/-- The predicate bits that select lanes or execution (R121). -/
def Regs.active (r : Regs) (w : IWord) : W64 :=
  let p := r.rp (w.pred.setWidth 5)
  if w.pneg then ~~~ p else p

/-- What an instruction's own effect comes to, once it may execute. -/
inductive Act where
  /-- done: the program counter passes the instruction and its cairn is stamped -/
  | done (s : State)
  /-- done, and the program counter is as given -/
  | jump (s : State) (pc : W64)
  /-- issued; it completes later, with its cairn then -/
  | async (s : State)
  /-- the agent waits at the instruction -/
  | park (s : State) (w : Wait)
  /-- the agent has stopped -/
  | stopped (s : State)
  /-- it cannot issue yet: nothing changes and it is offered again (log entry 9) -/
  | hold
  /-- it cannot issue yet, for stream transfers of the core by descriptor, or for the shared array (16) -/
  | await (s : State) (ds : List Nat)
  /-- it traps (R125) -/
  | trap (v : Nat) (tval : W64)
  /-- it traps after the drive has recorded what it found (R423) -/
  | trapIn (s : State) (v : Nat) (tval : W64)
  /-- it is refused at issue (R122) -/
  | refuse (code : W16)

/-- Applies `f` to the scalar side of an agent. -/
def State.updRegs (s : State) (ag : Agent) (f : Regs → Regs) : State := s.setRegs ag (f (s.regs ag))

/-- LAST takes OK for an accepted instruction that can be refused (R123). -/
def State.accepted (s : State) (o : Op) (ag : Agent) : State :=
  if o.refusable then s.updRegs ag (fun r => { r with status := lastStatus r.status stOk }) else s

/-- A refusal at issue (R122, R123, R131): LAST, FIRST and COUNT, the cairn, and under STRICT the REFUSED trap. -/
def State.refused (s : State) (ag : Agent) (w : IWord) (code : W16) : State :=
  let r := s.regs ag
  let s := s.setRegs ag { r with status := noteStatus (lastStatus r.status code) code }
  let s := s.stampIf w.stamp ag r.pc
  if r.strict then s.takeTrap ag 6 (code.setWidth 64) false
  else s.updRegs ag (fun r => r.setPc (r.pc + w.words))

/-- A core's next instruction waits for stream transfers of the core, by descriptor, or for the shared array, 16 (R93, R98, R113, R115). -/
def State.awaits (s : State) (ag : Agent) (ds : List Nat) : State :=
  match ag with
  | .core t c => s.setCore t.val c.val { s.core t.val c.val with awaits := some ((s.regs ag).pc, ds) }
  | .ctx _ _ => s

/-- What becomes of an executed instruction (R110, R131). -/
def finish (o : Op) (ag : Agent) (w : IWord) (s : State) : Act → State
  | .done s' => ((s'.accepted o ag).updRegs ag (fun r => r.setPc (r.pc + w.words))).stampIf w.stamp ag (s.regs ag).pc
  | .jump s' pc => ((s'.accepted o ag).updRegs ag (fun r => r.setPc pc)).stampIf w.stamp ag (s.regs ag).pc
  | .async s' => (s'.accepted o ag).updRegs ag (fun r => r.setPc (r.pc + w.words))
  | .park s' x => (s'.accepted o ag).updRegs ag (fun r => { r with run := .waiting x w.stamp })
  | .stopped s' => s'.stampIf w.stamp ag (s.regs ag).pc
  | .hold => s
  | .await s' ds => s'.awaits ag ds
  | .trap v tval => s.takeTrap ag v tval false
  | .trapIn s' v tval => s'.takeTrap ag v tval false
  | .refuse code => s.refused ag w code

/-- A UE or CE of the instruction store found by the fetch (R420, R423): unit of the store (R419). -/
def State.fetchUnit (s : State) : Agent → Nat
  | .core t _ => s.physOf t.val
  | .ctx e _ => 272 + e.val

/-- Whether an agent may issue: it runs, and a core's tile is not halted by a tile fault (R470). -/
def State.issues (s : State) (ag : Agent) : Bool :=
  (s.regs ag).run == .running &&
  (match ag with
   | .core t _ => (s.tile t.val).halted != some none
   | .ctx _ _ => true)

/-- The issue of one Abasel instruction by an agent whose cairns can be stamped. -/
def State.issueNow (s : State) (o : Op) (ag : Agent) (w : IWord) (body : State → Act) : State :=
  let r := s.regs ag
  if !s.issues ag then s
  else match r.asyncRefused with
  | some code => (s.setRegs ag { r with asyncRefused := none }).takeTrap ag 6 (code.setWidth 64) true
  | none =>
    let n := (s.textOf ag).length
    if n ≤ r.pc.toNat then s.takeTrap ag 2 r.pc false
    else if w.isLong && decide (n ≤ r.pc.toNat + 1) then s.takeTrap ag 2 (r.pc + 1) false
    else match s.eccOf 1 (s.fetchUnit ag) (8 * r.pc.toNat) (8 * w.words.toNat) w.fetch with
    | .uncorrectable addr =>
      let word : W64 := if w.isLong && addr.toNat / 8 == r.pc.toNat + 1 then r.pc + 1 else r.pc
      (s.noteUe (s.srcOf ag) 1 (s.fetchUnit ag) 5 addr).takeTrap ag 1 word false
    | .correctable bit addr => exec1 (s.noteCe 1 (s.fetchUnit ag) 5 bit addr) r
    | .clean => exec1 s r
where
  /-- Legality, predicate and effect. -/
  exec1 (s : State) (r : Regs) : State :=
    if !w.legal o ag then s.takeTrap ag 0 (w.word0 o) false
    else if !o.lanes && !(r.active w).getLsbD 0 then s.setRegs ag (r.setPc (r.pc + w.words))
    else finish o ag w s (body s)

/-- The issue of one Abasel instruction by an agent (R110, R117 to R131), in this order: a REFUSED trap that waits (R126);
the fetch (FETCH_RANGE, FETCH_ECC); legality (R103, R120); the predicate (R121); the instruction's own effect.
An agent that does not run issues nothing. An agent that would stamp a cairn stalls while its island cannot take one (R180, R188). -/
def State.issue (s : State) (o : Op) (ag : Agent) (w : IWord) (body : State → Act) : State :=
  s.orStall (s.issueNow o ag w body)

/-! ## The end of a program -/

/-- The cores of a tile that run job `n`. -/
def State.coresOf (s : State) (t n : Nat) : List (Fin 4) :=
  [0, 1, 2, 3].filter (fun (c : Fin 4) => (s.core t c.val).r.job == some n)

/-- Entries leave the array queue; the spur pipeline is idle when the instruction in the array leaves (R102). -/
def Tile.dropEntries (x : Tile) (f : QEntry → Bool) : Tile :=
  { x with queue := x.queue.filter (fun e => !f e), spurOn := x.spurOn && !(x.queue.head?.map (fun e => e.started && f e)).getD false }

/-- Gives the cores that job `n` holds on a tile back, with the flags of the job and what its cores still have in the shared array queue (R93, R104, R116,
R155). -/
def State.freeCores (s : State) (n : Nat) (t : Nat) : State :=
  let x := s.tile t
  s.setTile t { x.dropEntries (fun e => e.job == n) with cores := x.cores.map (fun (c, k) => (c, if k.r.job == some n then {} else k)),
                                                          flags := remove n x.flags }

/-- Whether every core of job `n` on its tiles has ended or failed (R144), and whether one failed. -/
def State.coresDone (s : State) (j : Job) : Bool × Bool :=
  let runs := j.tiles.flatMap (fun t => (s.coresOf t j.num).map (fun c => (s.core t c.val).r.run))
  (runs.all (fun r => r == .ended || r == .failed), runs.any (fun r => r == .failed))

/-- After a core has ended: when every core of the program has, Rinsis stamps the counter block and result
writing starts (R144, R402), but for a RUN that goes on as the consolidation of an index (R321); a program with a failed core ends at the next saddle (R129), as does one that was caught by an abort or must
stop for another cause (R25, R194). -/
def State.programEnds (s : State) (n : Nat) : State :=
  match s.job? n with
  | none => s
  | some j =>
    match s.coresDone j with
    | (true, false) =>
      if j.stop.isSome then s
      else ((j.tiles.foldl (fun s t => s.freeCores n t) s).stampCounters n).updJob n (fun j => if j.recode = 0 then { j with phase := .writing } else j)
    | _ => s

/-! ## Waking agents -/

/-- An agent that waited completes its instruction: it runs on, and its cairn is stamped (R131). -/
def State.wake (s : State) (ag : Agent) : State :=
  match (s.regs ag).run with
  | .waiting _ st => (s.updRegs ag (fun r => { r.setPc (r.pc + 1) with run := .running })).stampIf st ag (s.regs ag).pc
  | _ => s

/-- The four cores of a tile. -/
def coreIds : List (Fin 4) := [0, 1, 2, 3]

/-- The event flags of job `j` on tile `t` (R116). -/
def State.flags (s : State) (t : Fin 256) (j : Nat) : W16 := getD 0 (s.tile t).flags j
/-- Writes the event flags of job `j` on tile `t`. -/
def State.setFlags (s : State) (t : Fin 256) (j : Nat) (x : W16) : State :=
  s.setTile t { s.tile t with flags := putD 0 (s.tile t).flags j x }

/-- Cores of tile `t` that wait on flag `n` of job `j`, with or without clearing it. -/
def State.flagWaiters (s : State) (t : Fin 256) (j : Nat) (n : BitVec 4) (clears : Bool) : List (Fin 4) :=
  coreIds.filter (fun c =>
    let r := s.regs (.core t c)
    r.job == some j && (match r.run with
      | .waiting (.flag m k) _ => m == n && k == clears
      | _ => false))

/-- Wakes each of a list of cores. -/
def State.wakeAll (s : State) (t : Fin 256) : List (Fin 4) → State
  | [] => s
  | c :: cs => (s.wake (.core t c)).wakeAll t cs

/-- Sets a flag (R116): every core that waits for it goes on; of the cores that wait and clear it one goes on
and the flag is left clear. Which one, when several wait, is free (log entry 6). -/
def State.setFlag (s : State) (t : Fin 256) (j : Nat) (n : BitVec 4) : State :=
  let s1 := s.wakeAll t (s.flagWaiters t j n false)
  let up := s1.flags t j ||| (1#16 <<< n.toNat)
  match s.flagWaiters t j n true with
  | [] => s1.setFlags t j up
  | [c] => (s1.wake (.core t c)).setFlags t j (up &&& ~~~ (1#16 <<< n.toNat))
  | c :: cs =>
    let (k, s2) := s1.draw
    let pick := ((c :: cs)[Config.pick k % (c :: cs).length]?).getD c
    (s2.wake (.core t pick)).setFlags t j (up &&& ~~~ (1#16 <<< n.toNat))

end Sys2Proof.Machine
end

