-- ==== Sys2Proof/Machine/Operands.lean ====
section
/-! DEFINITION. Operand forms: immediates, SRAM accesses (R125, R141, R146), special registers (R107, R108),
lanes (R121), descriptors (R114, R157), record operands (R139, R501), shares of a group (R135), panels (R95). -/
namespace Sys2Proof.Machine

/-- IMM sign-extended to 64 bits. -/
def sext (x : W32) : W64 := x.signExtend 64

/-- The trap of an access of `n` bytes at `a` in tile SRAM, ACCESS before MISALIGNED (R125). -/
def accessTrap (a : W64) (n : Nat) : Option Nat :=
  if sramSize < a.toNat + n then some 5 else if a.toNat % n ≠ 0 then some 4 else none

/-- Whether a range of SRAM lies within 2 MiB (R501). -/
def inSram (a n : Nat) : Bool := decide (a + n ≤ sramSize)

/-! ## Stream descriptors (R114, R157) -/

/-- Low bit and width of a descriptor field by its number (R157); none for 14 and 15. -/
def dscField (n : Nat) : Option (Nat × Nat) :=
  [(224, 32), (192, 32), (152, 40), (112, 40), (80, 32), (64, 16), (48, 16), (37, 11), (35, 2), (31, 4), (30, 1),
   (28, 2), (12, 16), (0, 1)][n]?
/-- Reads field bits of a descriptor. -/
def getField (d : W256) (lo w : Nat) : Nat := d.toNat / 2 ^ lo % 2 ^ w
/-- Writes field bits of a descriptor. -/
def setField (d : W256) (lo w v : Nat) : W256 :=
  BitVec.ofNat 256 (d.toNat - getField d lo w * 2 ^ lo + v % 2 ^ w * 2 ^ lo)
/-- Named fields of a descriptor (R114). -/
def dSrcObj (d : W256) : W32 := d.extractLsb' 224 32
def dDstObj (d : W256) : W32 := d.extractLsb' 192 32
def dSrcOff (d : W256) : Nat := getField d 152 40
def dDstOff (d : W256) : Nat := getField d 112 40
def dLen (d : W256) : Nat := getField d 80 32
def dRows (d : W256) : Nat := getField d 64 16
def dChunks (d : W256) : Nat := getField d 48 16
def dBrow (d : W256) : Nat := getField d 37 11
def dLayout (d : W256) : Nat := getField d 35 2
def dFlag (d : W256) : BitVec 4 := d.extractLsb' 31 4
def dFlagEn (d : W256) : Bool := d.getLsbD 30
def dSplit (d : W256) : Nat := getField d 28 2
def dStatus (d : W256) : W16 := d.extractLsb' 12 16
def dBusy (d : W256) : Bool := d.getLsbD 0
/-- The descriptor with BUSY and STATUS as given. -/
def dSet (d : W256) (busy : Bool) (st : W16) : W256 := setField (setField d 0 1 (if busy then 1 else 0)) 12 16 st.toNat

/-! ## Shares of a group (R65, R135) -/

/-- First unit and number of units of rank `r` among `m` members for `p` units. -/
def shareOf (p m r : Nat) : Nat × Nat :=
  let n := Nat.min m p
  if n ≤ r then (0, 0)
  else
    let q := p / n
    let x := p % n
    if r < x then (r * (q + 1), q + 1) else (x * (q + 1) + (r - x) * q, q)

/-- The ring-ordered rank of a tile among a job's tiles (R107 RANK, R134). -/
def Job.rankOf (j : Job) (t : Nat) : Nat := j.rankBase + (j.tiles.filter (fun x => decide (x < t))).length

/-! ## Panels (R94, R95) -/

/-- The byte address of chunk `j` of panel row `n` of a panel at bank row `b` with `c` chunks per row (R95). -/
def panelAddr (b c n j : Nat) : Nat := 1024 * (b + c * (n / 16) + j) + 64 * ((n + j) % 16)

/-- Bank rows that a panel of `r` rows and `c` chunks spans (R154). -/
def panelSpan (r c : Nat) : Nat := c * ceilDiv r 16

/-- Reads byte `i` of panel row `n` (R95). -/
def panelByte (m : Mem) (b c n i : Nat) : Byte := m.rd (panelAddr b c n (i / 64) + i % 64)

/-- Reads `k` bytes from byte `i` of panel row `n` as a little-endian number. -/
def panelNat (m : Mem) (b c n i k : Nat) : Nat := leNat ((List.range k).map (fun x => panelByte m b c n (i + x)))

/-! ## Shares of a transfer and its SRAM ranges (R98, R113, R135) -/

/-- First panel row, rows, and of each row the first byte and the bytes of the share of rank `r` of `m` in a panel. Under RED a span need not be a
whole number of chunks (R95: metadata words, block scales, spur codes). -/
def panelShare (d : W256) (m r : Nat) : Nat × Nat × Nat × Nat :=
  let rows := dRows d
  let row := 64 * dChunks d
  match dSplit d with
  | 0 => (0, rows, 0, row)
  | 1 =>
    let (f, c) := shareOf rows m r
    (f, c, 0, row)
  | 2 =>
    let (f, c) := shareOf (ceilDiv rows 16) m r
    (16 * f, Nat.min (16 * c) (rows - 16 * f), 0, row)
  | _ =>
    let per := Nat.max 1 (Config.spanBytes d)
    let (f, c) := shareOf (Config.spanCount d) m r
    (0, rows, per * f, Nat.min (per * c) (row - per * f))

/-- Members and rank of the job of a core's tile (R107). -/
def State.placeOf (s : State) (job : Option Nat) (t : Nat) : Nat × Nat :=
  match job with
  | none => (1, 0)
  | some n => match s.job? n with
    | none => (1, 0)
    | some j => (Nat.max 1 j.nmem, j.rankOf t)

/-- Whether byte `i` of a transfer belongs to the share of rank `r` of `m` (R135): its panel row and place in the row do. Rows follow each
other in the source, each of 64 × CHUNKS bytes. -/
def inShare (d : W256) (m r i : Nat) : Bool :=
  let (r0, rows, b0, bytes) := panelShare d m r
  dChunks d != 0 && (let row := i / (64 * dChunks d)
    let at_ := i % (64 * dChunks d)
    decide (r0 ≤ row) && decide (row < r0 + rows) && decide (b0 ≤ at_) && decide (at_ < b0 + bytes))

/-- The range of tile SRAM that a transfer to this tile's SRAM writes: a skewed panel's bank rows, or bytes from DST_OFF (R95, R135; log
entry 152 for a linear split). -/
def landRange (d : W256) (m r : Nat) : Nat × Nat :=
  let (_, rows, _, bytes) := panelShare d m r
  if dLayout d = 1 then (1024 * dBrow d, 1024 * panelSpan rows (ceilDiv bytes 64))
  else if dSplit d = 0 then (dDstOff d, dLen d)
  else (dDstOff d, Nat.min (dLen d) (rows * bytes))

/-- The rank in its unit of a member tile of a Tier S copy (R134). -/
def SCopy.rank (c : SCopy) (t : Nat) : Nat := c.before + (c.tiles.filter (fun x => decide (x < t))).length

/-- Where byte `i` of a Tier S copy lies on tile `t`, when that tile holds it (R221). -/
def SCopy.place (c : SCopy) (size t i : Nat) : Option Nat :=
  if !c.tiles.contains t then none
  else if !c.stripe then some (1024 * c.brow + i)
  else
    let h := padTo 1024 (ceilDiv size (Nat.max 1 c.total))
    let r := c.rank t
    if r * h ≤ i ∧ i < r * h + h then some (1024 * c.brow + (i - r * h)) else none

/-- The part of a Tier S copy that a tile holds of the bytes from `off` on (R221): where its first byte lies in SRAM, its number, and how many
bytes it has; none when the tile holds none of them. -/
def SCopy.part (c : SCopy) (size t off n : Nat) : Option (Nat × Nat × Nat) :=
  let h := if c.stripe then padTo 1024 (ceilDiv size (Nat.max 1 c.total)) else size
  let first := if c.stripe then h * c.rank t else 0
  let lo := Nat.max off first
  let hi := Nat.min (off + n) (first + h)
  if c.tiles.contains t && decide (lo < hi) then some (1024 * c.brow + (lo - first), lo, hi - lo) else none

/-- The range of a tile's SRAM that a transfer writes into the Tier S copy of its destination object (R217, R221). -/
def State.copyRange (s : State) (x : Xfer) (t : Nat) (d : W256) : Nat × Nat :=
  match (if x.dst = 0 then none else find x.dst.toNat s.obj.dir) with
  | none => (0, 0)
  | some o => (((o.s.bind (fun c => c.part o.size t (dDstOff d) (dLen d))).map (fun (a, _, k) => (a, k))).getD (0, 0))

/-- The earlier stream transfers of the core that write into a range of its SRAM, a Tier S copy of an object there too, or, when `reads`, read
it (R98, R113). -/
def State.meeting (s : State) (t c a n : Nat) (reads : Bool) : List Xfer :=
  s.host.xfers.filter (fun x => x.tile == t && x.core == c && !x.cut &&
    (let d := (s.core t c).rd (BitVec.ofNat 5 x.dsc)
     let (m, r) := s.placeOf (some x.job) t
     let (b, k) := if dDstObj d = 0 then landRange d m r else s.copyRange x t d
     let meets (b m : Nat) : Bool := decide (b < a + n) && decide (a < b + m)
     (reads && dSrcObj d == 0 && meets (dSrcOff d) (dLen d)) || meets b k))

/-- Whether an earlier stream transfer of the core writes into a range of its SRAM or, when `reads`, reads it (R98, R113). -/
def State.streamMeets (s : State) (t c a n : Nat) (reads : Bool) : Bool := !(s.meeting t c a n reads).isEmpty

/-- The array or the stream channel of a tile halts at an uncorrectable word that a core's instruction or transfer meets (R423, R424). -/
def State.haltTile (s : State) (t c addr : Nat) : State := s.setTile t { s.tile t with halted := some (some addr), haltBy := some c }

/-- An access to SRAM waits for the stream transfers of the core that it meets (R113, R240). -/
def State.awaitStreams (s : State) (t : Fin 256) (c : Fin 4) (a n : Nat) : Act := .await s ((s.meeting t.val c.val a n true).map (fun x => x.dsc))

/-- Whether an earlier stream transfer of the core touches a range of its SRAM (R113). -/
def State.streamClash (s : State) (t c a n : Nat) : Bool := s.streamMeets t c a n true

/-- Whether an agent is a core with a matrix instruction in the queue, which still has to write CREC (R47, R110). -/
def State.crecPending (s : State) : Agent → Bool
  | .core t c => (s.tile t.val).queue.any (fun e => e.core == c.val)
  | .ctx _ _ => false

/-! ## Accesses to SRAM -/

/-- A read of `n` bytes of SRAM by a core's scalar or vector unit: traps, the wait of R113, ECC (R423), then
what the bytes give. -/
def readSram (t : Fin 256) (c : Fin 4) (a : W64) (n : Nat) (m : EccHit) (s : State) (k : State → Act) : Act :=
  match accessTrap a n with
  | some v => .trap v a
  | none =>
    if s.streamClash t.val c.val a.toNat n then s.awaitStreams t c a.toNat n
    else match s.eccOf 0 (s.physOf t.val) a.toNat n m with
    | .uncorrectable addr => .trapIn (s.noteUe (s.srcTile t.val) 0 (s.physOf t.val) 0 addr) 3 a
    | .correctable b addr => k (s.noteCe 0 (s.physOf t.val) 0 b addr)
    | .clean => k s

/-! ## Special registers -/

/-- A job field of an agent's job; 0 without one. -/
def State.jobField (s : State) (n : Option Nat) (f : Job → Nat) : W64 :=
  match n with
  | none => 0
  | some k => match s.job? k with
    | none => 0
    | some j => BitVec.ofNat 64 (f j)

/-- Reads a special register (R107, R108); none when the number is not listed for the agent. -/
def State.readSpecial (s : State) (ag : Agent) (n : Nat) : Option W64 :=
  let r := s.regs ag
  let common : Option W64 :=
    if n = 0x010 then some r.status else if n = 0x011 then some r.tctl else if n = 0x012 then some r.tcause
    else if n = 0x013 then some r.tpc else if n = 0x014 then some r.tval
    else if n = 0x024 then some (s.ownPos.setWidth 64)
    else if n = 0x025 then some (s.jobField r.job (fun j => j.client.toNat))
    else if n = 0x026 then some (s.jobField r.job (fun j => j.num)) else none
  match ag with
  | .ctx e k => if n = 0x022 then some (BitVec.ofNat 64 k.val) else if n = 0x023 then some (BitVec.ofNat 64 e.val) else common
  | .core t c =>
    let k := s.core t.val c.val
    if n = 0x000 then some k.actl
    else if n = 0x002 then some (k.crec.extractLsb' 0 64)
    else if n = 0x003 then some (k.crec.extractLsb' 64 64)
    else if 0x004 ≤ n ∧ n ≤ 0x00B then some ((k.rext ((n - 4) / 2)).extractLsb' (64 * (n % 2)) 64)
    else if n = 0x00C then some (k.srstate.extractLsb' 0 64)
    else if n = 0x00D then some (k.srstate.extractLsb' 64 64)
    else if n = 0x020 then some (s.jobField r.job (fun j => j.rankOf t.val))
    else if n = 0x021 then some (s.jobField r.job (fun j => j.nmem))
    else if n = 0x022 then some (BitVec.ofNat 64 c.val)
    else if n = 0x023 then some (BitVec.ofNat 64 t.val)
    else common

/-- Replaces half `h` (0 low, 1 high) of a 128-bit register. -/
def setHalf (x : W128) (h : Nat) (v : W64) : W128 :=
  if h = 0 then x.extractLsb' 64 64 ++ v else v ++ x.extractLsb' 0 64

/-- Writes a special register of an agent (R107, R108, R128, R142); a write to a read-only number is
discarded, none when the number is not listed. -/
def State.writeSpecial (s : State) (ag : Agent) (n : Nat) (v : W64) : Option State :=
  let common : Option State :=
    if n = 0x010 then some (s.updRegs ag (fun r => { r with status := v }))
    else if n = 0x011 then some (s.updRegs ag (fun r => { r with tctl := (r.tctl &&& 2) ||| (v &&& 1) }))
    else if n = 0x013 then some (s.updRegs ag (fun r => { r with tpc := v }))
    else if (s.readSpecial ag n).isSome then some s else none
  match ag with
  | .ctx _ _ => common
  | .core t c =>
    let k := s.core t.val c.val
    if n = 0x000 then some (s.setCore t.val c.val { k with actl := v &&& 1 })
    else if 0x004 ≤ n ∧ n ≤ 0x00B then
      some (s.setCore t.val c.val (k.wext ((n - 4) / 2) (setHalf (k.rext ((n - 4) / 2)) (n % 2) v)))
    else if n = 0x00C then some (s.setCore t.val c.val { k with srstate := setHalf k.srstate 0 v })
    else if n = 0x00D then some (s.setCore t.val c.val { k with srstate := setHalf k.srstate 1 v })
    else common

/-- ACTL.FTZ of a core (R45). -/
def Core.ftz (k : Core) : Bool := k.actl.getLsbD 0

/-! ## Lanes -/

/-- The lane numbers. -/
def lanes64 : List Nat := List.range 64
/-- The active lanes of a predicate mask (R121). -/
def activeLanes (m : W64) : List Nat := lanes64.filter (fun l => m.getLsbD l)
/-- A predicate whose bit l is 1 where `f l` holds. -/
def maskOf (f : Nat → Bool) : W64 := BitVec.ofNat 64 (lanes64.foldl (fun x l => if f l then x + 2 ^ l else x) 0)

/-! ## Record operands (R139, R501) -/

/-- A record operand that passes R139: address and flag. -/
def recOperand (x : W32) : Option (Nat × Option Nat) :=
  let a := x.toNat % 2097152
  if x.extractLsb' 29 3 ≠ 0 ∨ x.extractLsb' 21 3 ≠ 0 ∨ a % 32 ≠ 0 then none
  else some (a, if x.getLsbD 24 then some (x.extractLsb' 25 4).toNat else none)

/-- The low and high halves of a scalar operand. -/
def lo32 (x : W64) : W32 := x.setWidth 32
def hi32 (x : W64) : W32 := x.extractLsb' 32 32

/-- An instruction that ends for want of a member, by PEER_RESET or MEMBER_MISSING, writes a counter record of zeros into CREC (R137). -/
def State.shortRecord (s : State) (t c : Nat) (code : W16) : State :=
  if code = stPeerReset ∨ code = stMemberMissing then s.setCore t c { s.core t c with crec := crecOf {} } else s

end Sys2Proof.Machine
end

