-- ==== Sys2Proof/Machine/Objects.lean ====
section
/-! DEFINITION. The object directory, copies in the tiers, quotas, eviction and the sealed-object format
(08 R212 to R237). -/
namespace Sys2Proof.Machine

/-- The handle that names a job's RESULT object inside it (R215, R401). -/
def resultHandle : W32 := 0x0FFFFFFF

/-- Object `h`. -/
def State.obj? (s : State) (h : W32) : Option Obj := find h.toNat s.obj.dir
/-- Writes object `h`. -/
def State.setObj (s : State) (h : W32) (o : Obj) : State := { s with obj := { s.obj with dir := put h.toNat o s.obj.dir } }
/-- Applies `f` to object `h`. -/
def State.updObj (s : State) (h : W32) (f : Obj → Obj) : State :=
  match s.obj? h with
  | some o => s.setObj h (f o)
  | none => s
/-- Forgets object `h`. -/
def State.forget (s : State) (h : W32) : State := { s with obj := { s.obj with dir := remove h.toNat s.obj.dir } }

/-- Whether a type is pinned-class (R214). -/
def pinnedClass (typ : Nat) : Bool := decide (1 ≤ typ) && decide (typ ≤ 8)
/-- Whether a type value is listed (R214). -/
def typeListed (typ : Nat) : Bool := decide (1 ≤ typ) && decide (typ ≤ 0x0D)

/-- Units of 64 KiB that hold `n` bytes. -/
def unitsOf (n : Nat) : Nat := ceilDiv n 65536

/-- Running jobs. -/
def Job.running (j : Job) : Bool :=
  match j.phase with
  | .waiting => false
  | .written => true
  | _ => true

/-- Whether a job counted as SUBMITTED when it was fetched: a consolidation and a share of another member's query were not (R208). -/
def Job.submitted (j : Job) : Bool :=
  j.shareOf.isNone && (match j.kind with
    | .consolidate _ => false
    | _ => true)

/-- The number of the next job (R27, R191): the first from the counter on that no job of the drive still holds. -/
def State.freshNum (s : State) : BitVec 22 :=
  (((List.range (s.host.jobs.length + 1)).map (fun i => s.host.nextJob + BitVec.ofNat 22 i)).find? (fun n =>
    s.host.jobs.all (fun j => j.num != n.toNat))).getD s.host.nextJob

/-- A job joins the list under its number (R27, R205). -/
def State.addJob (s : State) (j : Job) : State :=
  { s with host := { s.host with jobs := s.host.jobs ++ [{ j with num := s.freshNum.toNat, order := s.host.order }], nextJob := s.freshNum + 1,
                                 order := s.host.order + 1 } }

/-- The object that a handle names inside a job (R18, R114, R401): its RESULT, a bound object or the one that
OBJECT_REPLACE bound in its place, or one that the job created; none when the handle is unbound. -/
def Job.named (j : Job) (h : W32) : Option W32 :=
  if h = resultHandle then (if j.result = 0 then none else some j.result)
  else
    let r := ((j.renamed.find? (fun p => p.1 == h)).map Prod.snd).getD h
    if j.bound.contains r || j.created.contains r || (j.result == r && r != 0) then some r else none

/-- The object that a handle names for the job of an agent, with its directory entry. -/
def State.named? (s : State) (job : Option Nat) (h : W32) : Option (W32 × Obj) :=
  match job with
  | none => none
  | some n => match s.job? n with
    | none => none
    | some j => match j.named h with
      | none => none
      | some r => (s.obj? r).map (fun o => (r, o))

/-- Whether a running job is bound to object `h` or keeps it (R218, R226, R302). -/
def State.boundTo (s : State) (h : W32) : Bool :=
  s.host.jobs.any (fun j => j.running && (j.bound.contains h || j.created.contains h || j.kept.contains h || j.made.contains h || j.result == h))

/-- The number of copies an object has. -/
def Obj.nCopies (o : Obj) : Nat := (if o.s.isSome then 1 else 0) + (if o.d.isSome then 1 else 0) + (if o.f.isSome then 1 else 0)

/-- Allocates a handle (R215): ascending, wrapping after 0x0FFF_FFFE, skipping handles in use. -/
def nextHandle (used : Nat → Bool) : Nat → Nat → Option Nat
  | 0, _ => none
  | n + 1, h =>
    let h := if 0x0FFFFFFE < h then 1 else h
    if used h then nextHandle used n (h + 1) else some h

/-! ## Rows of Tier S and units of Tier D -/

/-- Bank rows that the copy of an object of `size` bytes holds per member (R221). -/
def partRows (size m : Nat) (stripe : Bool) : Nat :=
  if stripe then ceilDiv (padTo 1024 (ceilDiv size (Nat.max 1 m))) 1024 else ceilDiv size 1024

/-- Rows that the member of rank `r` holds of a Tier S copy of an object of `size` bytes (R221). -/
def SCopy.rankRows (c : SCopy) (size r : Nat) : Nat :=
  if !c.stripe then c.rows else ceilDiv (Nat.min (1024 * c.rows) (size - 1024 * c.rows * r)) 1024

/-- Rows that member tile `t` holds of a Tier S copy of an object of `size` bytes (R221). -/
def SCopy.heldBy (c : SCopy) (size t : Nat) : Nat := if !c.tiles.contains t then 0 else c.rankRows size (c.rank t)

/-- Rows that a Tier S copy holds over the member tiles of its unit (R224), those of other drives too. -/
def SCopy.allRows (c : SCopy) (size : Nat) : Nat :=
  ((List.range (c.before + c.tiles.length)).map (c.rankRows size) ++
    (List.range (c.total - (c.before + c.tiles.length))).map (fun i => c.rankRows size (c.before + c.tiles.length + i))).foldl (· + ·) 0

/-- The rows of tile `t` held by Tier S copies: first row and count, with their object. -/
def State.rowsHeld (s : State) (t : Nat) : List (Nat × Nat × Nat) :=
  s.obj.dir.filterMap (fun (h, o) => match o.s with
    | some c => if c.heldBy o.size t ≠ 0 then some (c.brow, c.heldBy o.size t, h) else none
    | none => none)

/-- Whether a run of rows on a tile is free of Tier S copies, but those of object `skip`; a member that holds no part takes none. -/
def State.rowsFree (s : State) (t b n skip : Nat) : Bool :=
  n == 0 || (s.rowsHeld t).all (fun (x, k, h) => h == skip || decide (x + k ≤ b) || decide (b + n ≤ x))

/-- The first run of `n` free rows found scanning from row 2,047 downward (R221). -/
def State.findRows (s : State) (t n : Nat) : Option Nat :=
  if 2048 < n ∨ n = 0 then none
  else ((List.range (2049 - n)).map (fun i => 2048 - n - i)).find? (fun b => s.rowsFree t b n 0)

/-- Tier D units allocatable to objects, less retired ones (R212, R239). -/
def State.tierDCap (s : State) : Nat :=
  140 * 16384 - s.obj.retiredUnits.length
/-- Tier D units that copies hold. -/
def State.tierDUsed (s : State) : Nat :=
  (s.obj.dir.map (fun (_, o) => if o.d.isSome then unitsOf o.size else 0)).foldl (· + ·) 0
/-- The 64 KiB location, within its stack, of a unit of an object's Tier D copy (R222, R239): a unit moved after an error takes the next one
(log entry 15). -/
def DCopy.loc (c : DCopy) (h : W32) (u : Nat) : Nat := (Config.tierDUnit h u + c.moved.count u) % 1048576
/-- How many locations of unit `u` of an object, from number `k` on, are passed over because a retired unit lies there (R239); as many as there are
retired units, at most, since they differ. -/
def State.passed (s : State) (h : W32) (u k : Nat) : Nat :=
  let gone (i : Nat) : Bool := s.obj.retiredUnits.any (fun x => x.2 == (Config.tierDUnit h u + k + i) % 1048576)
  ((List.range s.obj.retiredUnits.length).takeWhile gone).length
/-- The locations that the units of a new Tier D copy pass over, as moves (R239). -/
def State.passes (s : State) (h : W32) (size : Nat) : List Nat :=
  if s.obj.retiredUnits.isEmpty then [] else (List.range (unitsOf size)).flatMap (fun u => List.replicate (s.passed h u 0) u)
/-- A new Tier D copy of an object of `size` bytes (R222), none of whose units stands in a retired one (R239). -/
def State.newD (s : State) (h : W32) (size : Nat) (pinned : Bool) : DCopy :=
  ⟨pinned, s.time.now, [], s.passes h size⟩
/-- Tier F units that sealed objects hold (R224). -/
def Obj.fUnits (o : Obj) : Nat :=
  match o.f with
  | some f => unitsOf f.stored * o.copies
  | none => 0

/-! ## Eviction (R226 to R228) -/

/-- Which copies of its source object a transfer of tile `t` reads, over a range (R158): Tier S when the tile holds a byte of the range or
there is no Tier D copy, and Tier D when the tile's part leaves a byte out. -/
def Obj.readCopies (o : Obj) (t off len : Nat) : Bool × Bool :=
  match o.s with
  | none => (false, o.d.isSome)
  | some c =>
    let first := (c.place o.size t off).isSome
    let last := (c.place o.size t (off + len - 1)).isSome
    let overlaps := first || last || (c.stripe && c.tiles.contains t &&
      decide (off < 1024 * c.rows * c.rank t) && decide (1024 * c.rows * (c.rank t + 1) ≤ off + len))
    (overlaps || o.d.isNone, o.d.isSome && !(first && last))

/-- Whether a stream transfer of any tile reads or writes object `h`. -/
def State.inFlight (s : State) (h : W32) : Bool :=
  s.host.xfers.any (fun x => !x.cut && (x.src == h || x.dst == h))

/-- Whether a stream transfer of any tile reads or writes the Tier S (`tierS`) or Tier D copy of an object (R226); a write is to every copy. -/
def State.copyInFlight (s : State) (h : W32) (o : Obj) (tierS : Bool) : Bool :=
  s.host.xfers.any (fun x => !x.cut && (x.dst == h || (x.src == h &&
    (let d := (s.core x.tile x.core).rd (BitVec.ofNat 5 x.dsc)
     let (inS, inD) := o.readCopies x.tile (dSrcOff d) (dLen d)
     if tierS then inS else inD))))

/-- Whether the Tier S (`tierS`) or Tier D copy of an object is evictable (R226, R238). -/
def State.evictable (s : State) (h : Nat) (o : Obj) (tierS : Bool) : Bool :=
  let w := BitVec.ofNat 32 h
  !s.copyInFlight w o tierS && !(o.nCopies == 1 && s.boundTo w) &&
  (if tierS then (o.s.map (fun c => !c.pinned)).getD false
   else (o.d.map (fun c => !c.pinned)).getD false && o.window.isNone && o.case_ != 1)

/-- Of objects with a copy in a tier, the one whose copy was touched longest ago; the first of equal times (R227). -/
def firstTouched (tierS : Bool) (cs : SMap Obj) : Option (Nat × Obj) :=
  let touch (o : Obj) : Nat := if tierS then (o.s.map (fun c => c.touch.toNat)).getD 0 else (o.d.map (fun c => c.touch.toNat)).getD 0
  cs.foldl (fun b c => match b with
    | none => some c
    | some b => if touch c.2 < touch b.2 then some c else some b) none

/-- Whether the Tier S copy of object `k` stands in rows that another copy of an object of `size` bytes would take (R221). -/
def State.overRows (s : State) (k size : Nat) (c : SCopy) : Bool :=
  c.tiles.any (fun t => (s.rowsHeld t).any (fun (b, n, i) => i == k && decide (b < c.brow + c.heldBy size t) && decide (c.brow < b + n)))

/-- The evictable copy touched longest ago, equal times in ascending handle order (R227); `onTile` limits Tier S copies to a tile. -/
def State.victim (s : State) (tierS : Bool) (onTile : Nat) : Option (Nat × Obj) :=
  firstTouched tierS (s.obj.dir.filter (fun (h, o) => s.evictable h o tierS &&
    (!tierS || (o.s.map (fun c => c.tiles.contains onTile)).getD false)))

/-- Evicts one copy (R228): OBJ_EVICTED; the last copy drops the object with OBJ_LOST. -/
def State.evict (s : State) (h : Nat) (o : Obj) (tierS : Bool) : State :=
  let o' := if tierS then { o with s := none } else { o with d := none }
  let s := s.stamp (srcControl 0) 0x48 (BitVec.ofNat 28 h)
  if o'.nCopies = 0 then (s.forget (BitVec.ofNat 32 h)).stamp (srcControl 0) 0x4B (BitVec.ofNat 28 h)
  else s.setObj (BitVec.ofNat 32 h) o'

/-- Evicts Tier D copies until `need` units are free, at most `fuel` times (R228). -/
def State.roomD : Nat → State → Nat → Bool × State
  | 0, s, need => (decide (s.tierDUsed + need ≤ s.tierDCap), s)
  | n + 1, s, need =>
    if s.tierDUsed + need ≤ s.tierDCap then (true, s)
    else match s.victim false 0 with
      | none => (false, s)
      | some (h, o) => State.roomD n (s.evict h o false) need

/-- Evicts Tier S copies of a tile until a run of `need` rows is free (R221, R228). -/
def State.roomS : Nat → State → Nat → Nat → Option Nat × State
  | 0, s, t, need => (s.findRows t need, s)
  | n + 1, s, t, need =>
    match s.findRows t need with
    | some b => (some b, s)
    | none => match s.victim true t with
      | none => (none, s)
      | some (h, o) => State.roomS n (s.evict h o true) t need

/-! ## Quotas (R224, R225) -/

/-- A client's quota in a tier (0 S, 1 D, 2 F): the live setting, else the tier's allocatable size. -/
def State.quota (s : State) (client : BitVec 6) (tier : Nat) : Nat :=
  match find (client.toNat + 256 * tier) s.set.quotas with
  | some q => q.toNat
  | none => if tier = 0 then 536870912 else if tier = 1 then 140 * 1073741824 else 3750000000 * 65536

/-- What a copy charges: rows × 1,024 over member tiles, size rounded to 64 KiB, stored bytes × COPIES (R224). -/
def Obj.charge (o : Obj) (tier : Nat) : Nat :=
  if !pinnedClass o.typ then 0
  else if tier = 0 then match o.s with
    | some c => if c.pinned then c.allRows o.size * 1024 else 0
    | none => 0
  else if tier = 1 then match o.d with
    | some c => if c.pinned || o.window.isSome then unitsOf o.size * 65536 else 0
    | none => 0
  else o.fUnits * 65536

/-- A client's charge in a tier. -/
def State.charged (s : State) (client : BitVec 6) (tier : Nat) : Nat :=
  (s.obj.dir.map (fun (_, o) => if o.owner = client then o.charge tier else 0)).foldl (· + ·) 0

/-- Whether a further charge of `n` bytes stays within the OWNER's quota (R225). -/
def State.withinQuota (s : State) (o : Obj) (tier n : Nat) : Bool :=
  !pinnedClass o.typ || decide (s.charged o.owner tier + n ≤ s.quota o.owner tier)

/-! ## Reading and writing content (R158, R221) -/

/-- Whether a byte of SRAM lies in a word with a recorded uncorrectable error. -/
def State.sramBad (s : State) (t a : Nat) : Bool :=
  s.ecc.bad.any (fun w => w.kind == 0 && w.unit == s.physOf t && decide (w.addr ≤ a) && decide (a < w.addr + 8))

/-- The position of a stored unit of a copy (R234). -/
def FCopy.place? (f : FCopy) (copy unit : Nat) : Option Nat := find (16777216 * copy + unit) f.places

/-- The die of a position of a stored unit. -/
def placeDie (a : Nat) : Nat := a / 8388608

/-- Whether a stored unit of a copy reads: no uncorrectable error is recorded in it, and its die has not failed (R237, R333). -/
def State.unitReads (s : State) (f : FCopy) (copy unit : Nat) : Bool :=
  !f.bad.contains (copy, unit) && (match f.place? copy unit with
    | some a => !(getD {} s.media.dies (placeDie a)).failed
    | none => true)

/-- The stored unit that holds byte `i` of an object (R230, R231). -/
def Obj.unitOf (o : Obj) (i : Nat) : Nat :=
  if o.direct then i / 65536 else Config.storedUnit o.stored o.size i % Nat.max 1 (unitsOf o.stored)

/-- Whether the Tier F copy that serves an object gives byte `i` (R237, R437): only under the bound media key; in case 2 it is the second copy,
in case 3 none. -/
def State.tierFReads (s : State) (o : Obj) (i : Nat) : Bool :=
  match o.f with
  | none => false
  | some f => s.sec.mbk && o.case_ != 3 && s.unitReads f (if o.case_ = 2 then 1 else 0) (o.unitOf i)

/-- Byte `i` of an object for a reader on tile `t`, from the nearest intact copy that holds it (R158): the Tier S
copy on the tile, Tier D, Tier S on another tile, Tier F, which reads only under the bound media key (R437); none when no copy holds it intact. -/
def State.objByte (s : State) (o : Obj) (t i : Nat) : Option Byte :=
  if o.gone.contains (i / 65536) then none else
  let inS (u : Nat) : Option Byte :=
    match o.s with
    | none => none
    | some c => match c.place o.size u i with
      | none => none
      | some a => if s.sramBad u a then none else some ((s.tile u).sram.rd a)
  match inS t with
  | some b => some b
  | none =>
    if o.case_ != 3 && (o.d.map (fun d => !d.bad.contains (i / 65536))).getD false then some (o.data.rd i)
    else match ((o.s.map (fun c => c.tiles)).getD []).findSome? inS with
      | some b => some b
      | none => if s.tierFReads o i then some (o.data.rd i) else none

/-- Bytes of an object, none when some byte has no intact copy. -/
def State.objBytes (s : State) (o : Obj) (t off n : Nat) : Option (List Byte) :=
  (List.range n).mapM (fun i => s.objByte o t (off + i))

/-- The content Rinsis reads outside any tile: every byte; what it takes for an unreadable one is free (R241, log entry 207). -/
def State.content (s : State) (o : Obj) : List Byte :=
  (List.range o.size).map (fun i => (s.objByte o 256 i).getD (Config.lostByte s.freeCtr i))

/-- Writes bytes into every copy of a ready object: Tier D, and the rows of a Tier S copy (R217, R221). -/
def State.writeObj (s : State) (h : W32) (o : Obj) (off : Nat) (bs : List Byte) : State :=
  let s := s.setObj h { o with data := o.data.wrBytes off bs }
  match o.s with
  | none => s
  | some c => c.tiles.foldl (fun s t => match c.part o.size t off bs.length with
      | some (a, i, n) => s.sramWrite t a ((bs.drop (i - off)).take n)
      | none => s) s

/-- Records a touch of the Tier S and the Tier D copy of an object, each where asked (R227). -/
def State.touchCopies (s : State) (h : W32) (inS inD : Bool) : State :=
  s.updObj h (fun o => { o with s := o.s.map (fun c => if inS then { c with touch := s.time.now } else c),
                                d := o.d.map (fun c => if inD then { c with touch := s.time.now } else c) })

/-- Records a touch of all copies of an object (R227). -/
def State.touch (s : State) (h : W32) : State := s.touchCopies h true true

/-- Records the touch of a read by a traversal context, which no tile serves: Tier D where there is a copy (R158, R227). -/
def State.touchRead (s : State) (h : W32) : State :=
  let inD := ((s.obj? h).map (fun o => o.d.isSome)).getD false
  s.touchCopies h (!inD) inD

/-! ## The IMPAIRED path (R237, R238) -/

/-- Whether the second copy of a sealed object reads: no unit of it has a recorded error or lies on a failed die. -/
def State.secondGood (s : State) (o : Obj) : Bool :=
  o.copies == 2 && (match o.f with
    | some f => f.bad.all (fun b => b.1 != 1) && f.places.all (fun (k, _) => k / 16777216 != 1 || s.unitReads f 1 (k % 16777216))
    | none => false)

/-- Whether a whole Tier D copy exists with no recorded error: none in its units, and none under a transfer that a halted channel holds
(R237, R239). -/
def State.wholeInD (s : State) (h : W32) (o : Obj) : Bool :=
  (o.d.map (fun d => d.bad.isEmpty)).getD false && !s.host.xfers.any (fun x => x.halted.isSome && x.src == h)

/-- The case of R237 that applies once a read of copy 0, or of the copy that serves, has failed; case 3 is left by the host alone. -/
def State.impairCase (s : State) (h : W32) (o : Obj) : Nat :=
  if o.state = 2 then (if o.case_ = 1 ∧ s.wholeInD h o then 1 else 3)
  else if s.wholeInD h o then 1
  else if s.secondGood o then 2 else 3

/-- Whether a job stops at the next saddle (R194, R195): a cause is marked, and its work still runs or has ended without being committed. One
whose queue or controller is gone (R389) also ends where its result is being written or has been, or where it has stopped. -/
def Job.stops (j : Job) : Bool :=
  j.stop.isSome && (j.phase == .admitted || j.phase == .workDone || (j.silent && j.phase != .waiting))

/-- Jobs bound to an object in case 3 stop at the next saddle with OBJECT_IMPAIRED (R237). -/
def State.stopBound (s : State) (h : W32) (code : W16) : State :=
  { s with host := { s.host with jobs := s.host.jobs.map (fun j =>
      if j.running && (j.bound.contains h || j.created.contains h) then { j with stop := j.stop.or (some code) } else j) } }

/-- A Tier F read of an object stayed uncorrectable or corrupt (R237, R238): the object turns IMPAIRED with
OBJ_IMPAIRED, or moves to the case that now applies. -/
def State.impair (s : State) (h : W32) : State :=
  match s.obj? h with
  | none => s
  | some o =>
    let c := s.impairCase h o
    let s' := s.setObj h { o with state := 2, case_ := c }
    let s' := if o.state = 2 then s' else s'.stamp (srcControl 0) 0x49 (h.setWidth 28)
    if c = 3 ∧ o.case_ ≠ 3 then s'.stopBound h stObjectImpaired else s'

/-! ## Placement (R219 to R222) -/

/-- Loads a Tier S copy's rows from the object's content (R221). -/
def State.loadRows (s : State) (o : Obj) (c : SCopy) (bytes : List Byte) : State :=
  c.tiles.foldl (fun s t => match c.part o.size t 0 bytes.length with
    | some (a, i, n) => s.sramWrite t a ((bytes.drop i).take n)
    | none => s) s

/-- The bytes that a new copy of an object is loaded from (R221, R222): a sealed object's from Tier D or Tier F, which no program alters. -/
def State.source (s : State) (o : Obj) : List Byte := if o.f.isSome then o.data.rdBytes 0 o.size else s.content o

/-- Whether every unit of the Tier F copy that serves a sealed object reads (R237, R333, R437). -/
def State.wholeInF (s : State) (o : Obj) : Bool :=
  match o.f with
  | none => false
  | some f => s.sec.mbk && o.case_ != 3 && (List.range (unitsOf f.stored)).all (fun u => s.unitReads f (if o.case_ = 2 then 1 else 0) u)

/-- Whether the bytes that a new copy is loaded from can all be read: a sealed object's from Tier D or Tier F, a ready object's from its copies. -/
def State.loads (s : State) (o : Obj) : Bool :=
  if o.f.isSome then (o.case_ != 3 && (o.d.map (fun d => d.bad.isEmpty)).getD false) || s.wholeInF o
  else (List.range o.size).all (fun i => (s.objByte o 256 i).isSome)

/-- Reads what a new copy of an object is loaded from (R221, R222). A Tier F copy that does not read makes the object IMPAIRED, and the second
copy serves when it can (R237). With an outcome when nothing serves: without the media key the media cannot be read (R437). -/
def State.load (s : State) (h : W32) (o : Obj) : W16 × State :=
  if s.loads o then (stOk, s)
  else if o.f.isNone then (stObjectImpaired, s)
  else if !s.sec.mbk && o.case_ != 3 then (stMediaUncorrectable, s)
  else
    let t := s.impair h
    (if ((t.obj? h).map t.loads).getD false then stOk else stObjectImpaired, t)

/-- Puts a Tier S copy in place, replacing the old one (R221). -/
def State.placeS (s : State) (h : W32) (o : Obj) (c : SCopy) : State :=
  let bytes := s.source o
  (s.setObj h { o with s := some c }).loadRows o c bytes

/-- Pins a Tier D copy: the existing one, or a new one loaded from the content (R221, R222). -/
def State.pinTierD (s : State) (h : W32) (o : Obj) : W16 × State :=
  let need := unitsOf o.size
  match o.d with
  | some c =>
    if c.pinned then (stOk, s)
    else if o.window.isSome then (stOk, s.setObj h { o with d := some { c with pinned := true } })
    else if !s.withinQuota o 1 (need * 65536) then (stQuotaExceeded, s)
    else (stOk, s.setObj h { o with d := some { c with pinned := true } })
  | none =>
    if !s.withinQuota o 1 (need * 65536) then (stQuotaExceeded, s)
    else match s.load h o with
    | (0, s) => (match State.roomD s.obj.dir.length s need with
      | (false, s) => (stTierFull, s)
      | (true, s) =>
        let o := (s.obj? h).getD o
        (stOk, s.setObj h { o with d := some (s.newD h o.size true), data := Mem.wrBytes [] 0 (s.source o) }))
    | (e, s) => (e, s)

/-- Pins a Tier S copy for a program's tile: the existing copy in place, or rows that Rinsis chooses (R220, R221). -/
def State.pinTierS (s : State) (h : W32) (o : Obj) (t : Nat) : W16 × State :=
  match o.s with
  | some c =>
    if c.pinned then (stOk, s)
    else if !s.withinQuota o 0 (c.allRows o.size * 1024) then (stQuotaExceeded, s)
    else (stOk, s.setObj h { o with s := some { c with pinned := true } })
  | none =>
    let n := partRows o.size 1 false
    if !s.withinQuota o 0 (n * 1024) then (stQuotaExceeded, s)
    else match s.load h o with
    | (0, s) => (match State.roomS s.obj.dir.length s t n with
      | (none, s) => (stTierFull, s)
      | (some b, s) => (stOk, s.placeS h ((s.obj? h).getD o) ⟨BitVec.ofNat 16 t, [t], false, b, n, true, s.time.now, 0, 1⟩))
    | (e, s) => (e, s)

/-- Frees a copy on unpin: it joins the shared pool (R226). -/
def State.unpin (s : State) (h : W32) (tierS : Bool) : State :=
  s.updObj h (fun o => if tierS then { o with s := o.s.map (fun c => { c with pinned := false }) }
    else { o with d := o.d.map (fun c => { c with pinned := false }) })

/-- No reload of a copy in Tier S or Tier D waits any more: the object is pinned there anew, or is no longer to be (R220, R223). -/
def State.unwant (s : State) (h : W32) (tierS : Bool) : State :=
  s.updObj h (fun o => if tierS then { o with wantS := none } else { o with wantD := none })

/-- Drops an object (R218): at once when no running job is bound, else when the last such job ends. -/
def State.dropObj (s : State) (h : W32) : State :=
  if s.boundTo h then s.updObj h (fun o => { o with dropped := true }) else s.forget h

/-- Every consolidation that failed is due again (R279). -/
def State.retryConsolidations (s : State) : State :=
  { s with idx := { s.idx with all := s.idx.all.map (fun (h, x) => (h, { x with due := x.due || x.failed })) } }

/-- Forgets dropped objects to which no running job is bound any more (R218); Tier F space that this frees after an OBJECT DROP lets a failed
consolidation run again (R279). -/
def State.reapObjs (s : State) : State :=
  let gone (h : Nat) (o : Obj) : Bool := o.dropped && !s.boundTo (BitVec.ofNat 32 h)
  let t := { s with obj := { s.obj with dir := s.obj.dir.filter (fun (h, o) => !gone h o) } }
  if s.obj.dir.any (fun (h, o) => gone h o && o.f.isSome && o.byHost) then t.retryConsolidations else t

/-- The next handle that neither an object nor an extent holds (R215, R415), and the counter after it. -/
def State.takeHandle (s : State) : Option (W32 × State) :=
  match nextHandle (fun h => (find h s.obj.dir).isSome || (find h s.media.extents).isSome)
      (s.obj.dir.length + s.media.extents.length + 2) s.obj.next with
  | none => none
  | some h => some (BitVec.ofNat 32 h, { s with obj := { s.obj with next := h + 1 } })

/-- Creates an object in the directory (R215), its Tier D copy clear of retired units (R239); none when the directory or the handle space is full. -/
def State.createObj (s : State) (o : Obj) : Option (W32 × State) :=
  if 4194304 ≤ s.obj.dir.length then none
  else match s.takeHandle with
    | none => none
    | some (h, s) => some (h, s.setObj h { o with d := o.d.map (fun c => { c with moved := s.passes h o.size }) })

/-! ## Sealing (R217, R220, R234, R235) -/

/-- Units of the user capacity (R355). -/
def userUnits : Nat := 3750000000

/-- The stored size of content that the drive encodes: its choice of modes is not specified (R235, log entry 19). -/
def storedOf (typ : Nat) (h : W32) (size : Nat) : Nat :=
  if typ = 4 ∨ typ = 5 then size else Config.storedSize h size % (padTo 16 size + 1)

/-! ## The sealed-object format (R229 to R233) -/

/-- The directory record of an object (R229), 160 bytes; zeros for a ready object (R414). -/
def Obj.record (o : Obj) : List Byte :=
  if o.state = 0 then List.replicate 160 0
  else leBytes 4 0x4F535A55 ++ [1, BitVec.ofNat 8 o.typ,
      BitVec.ofNat 8 (4 * o.copies + (if o.qlc then 2 else 0) + (if o.direct then 1 else 0)), BitVec.ofNat 8 o.blkshift] ++
    leBytes 8 o.size ++ leBytes 8 0 ++ leBytes 8 o.stored ++ leBytes 16 o.sealCairn.toNat ++ leBytes 64 o.digest.toNat ++
    ((o.name ++ List.replicate 32 0).take 32) ++ leBytes 16 0

/-- Reads the extension bytes of an LZ length (R232): the sum and the rest. -/
def lzExt : List Byte → Option (Nat × List Byte)
  | [] => none
  | b :: bs => if b = 255 then (lzExt bs).map (fun (n, r) => (n + 255, r)) else some (b.toNat, bs)

/-- Copies `n` bytes from distance `d` back, byte by byte; `out` holds the output reversed (R232). -/
def lzCopy (d : Nat) : Nat → List Byte → List Byte
  | 0, out => out
  | n + 1, out => lzCopy d n ((out[d - 1]?).getD 0 :: out)

/-- Decodes an LZ token stream to `size` bytes (R232, R233); none when it is corrupt. `out` is reversed. -/
def lzDecode (size : Nat) : Nat → List Byte → List Byte → Option (List Byte)
  | 0, _, _ => none
  | fuel + 1, inp, out =>
    if size ≤ out.length then (if inp.isEmpty then some out.reverse else none) else
    match inp with
    | [] => none
    | t :: rest =>
      let lit0 := t.toNat / 16
      match (if lit0 = 15 then (lzExt rest).map (fun (n, r) => (15 + n, r)) else some (lit0, rest)) with
      | none => none
      | some (lit, rest) =>
        if rest.length < lit ∨ size < out.length + lit then none else
        let out := (rest.take lit).reverse ++ out
        let rest := rest.drop lit
        if out.length = size then (if t.toNat % 16 = 0 ∧ rest.isEmpty then some out.reverse else none)
        else match rest with
          | a :: b :: rest =>
            let d := a.toNat + 256 * b.toNat
            match (if t.toNat % 16 = 15 then (lzExt rest).map (fun (n, r) => (19 + n, r)) else some (t.toNat % 16 + 4, rest)) with
            | none => none
            | some (len, rest) =>
              if d = 0 ∨ out.length < d ∨ size < out.length + len then none
              else lzDecode size fuel rest (lzCopy d len out)
          | _ => none

/-- Decodes one stored block to `size` bytes (R231, R233). -/
def blockDecode (mode size : Nat) (st : List Byte) : Option (List Byte) :=
  if mode = 0 then (if st.length = size then some st else none)
  else if mode = 1 then (if st.isEmpty then some (List.replicate size 0) else none)
  else if mode = 2 then
    if st.length = 0 ∨ 64 < st.length then none
    else some ((List.range size).map (fun i => (st[i % st.length]?).getD 0))
  else if mode = 3 then (if st.length = 0 ∨ size < st.length then none else lzDecode size (st.length + 1) st [])
  else none

/-- A field of a byte list as a little-endian number. -/
def fieldNat (bs : List Byte) (off n : Nat) : Nat := leNat ((bs.drop off).take n)

/-- Whether `n` bytes from `off` are all zero. -/
def zeroField (bs : List Byte) (off n : Nat) : Bool := ((bs.drop off).take n).all (fun b => b == 0)

/-- The blocks of an image's table and data from block `i` on (R230): decoded bytes; none when one is corrupt or
lies elsewhere than the format says. `at_` is where the next stored block starts, or ends the one before. -/
def imageBlocks (table data : List Byte) (size bs : Nat) : Nat → Nat → Nat → Option (List Byte × Nat)
  | 0, _, end_ => some ([], end_)
  | n + 1, i, end_ =>
    let e := (table.drop (16 * i)).take 16
    let off := fieldNat e 0 5
    let len := fieldNat e 8 4
    let mode := fieldNat e 7 1
    let want := Nat.min bs (size - bs * i)
    if !zeroField e 5 2 ∨ off ≠ padTo 16 end_ ∨ !zeroField data end_ (off - end_) ∨ data.length < off + len then none
    else match blockDecode mode want ((data.drop off).take len) with
      | none => none
      | some out => if crc32c out ≠ BitVec.ofNat 32 (fieldNat e 12 4) then none
        else (imageBlocks table data size bs n (i + 1) (off + len)).map (fun (r, x) => (out ++ r, x))

/-- What an hjx-seal image holds, once it passes R235: type, flags, size, block shift, stored bytes, content, digest. -/
structure Image where
  typ : Nat
  direct : Bool
  qlc : Bool
  copies : Nat
  size : Nat
  blkshift : Nat
  stored : Nat
  content : List Byte
  digest : BitVec 512
  deriving DecidableEq, Repr

/-- Checks and decodes an image (R229 to R233, R235). -/
def parseImage (b : List Byte) : Option Image :=
  let size := fieldNat b 8 8
  let shift := fieldNat b 7 1
  let flags := fieldNat b 6 1
  let stored := fieldNat b 24 8
  let direct := flags % 2 = 1
  let nb := ceilDiv size (2 ^ shift)
  if b.length < 160 ∨ fieldNat b 0 4 ≠ 0x4F535A55 ∨ fieldNat b 4 1 ≠ 1 ∨ 16 ≤ flags ∨ !zeroField b 16 8 ∨ !zeroField b 144 16 ∨
      size = 0 ∨ 2 ^ 40 ≤ size ∨ !(shift = 11 ∨ shift = 14 ∨ shift = 16) then none
  else
    let dg : BitVec 512 := BitVec.ofNat 512 (fieldNat b 48 64)
    if direct then
      let d := b.drop 160
      if d.length ≠ size ∨ stored ≠ size ∨ digestOf d ≠ dg then none
      else some ⟨fieldNat b 5 1, true, flags / 2 % 2 = 1, flags / 4, size, shift, stored, d, dg⟩
    else
      match imageBlocks ((b.drop 160).take (16 * nb)) (b.drop (160 + 16 * nb)) size (2 ^ shift) nb 0 0 with
      | none => none
      | some (content, end_) =>
        if end_ ≠ stored ∨ (b.drop (160 + 16 * nb)).length ≠ stored ∨ digestOf content ≠ dg then none
        else some ⟨fieldNat b 5 1, false, flags / 2 % 2 = 1, flags / 4, size, shift, stored, content, dg⟩

end Sys2Proof.Machine
end

