-- ==== Sys2Proof/Machine/Settings.lean ====
section
/-! DEFINITION. Groups and units (00 R3 to R7; 05 R132 to R134, R170) and the settings (07 R198 to R202; 03 R68). -/
namespace Sys2Proof.Machine

/-! ## Units and groups -/

/-- What a group ID names: tiles of this drive, other drives present, members and tiles in all (R170). -/
structure UnitInfo where
  tiles : List Nat
  others : List Nat
  members : Nat
  total : Nat
  deriving DecidableEq, Repr

/-- LEVEL and INDEX of a group ID (R4). -/
def gidLevel (g : W16) : Nat := g.toNat / 16384
def gidIndex (g : W16) : Nat := g.toNat % 16384
/-- The group ID of a level and an index. -/
def gidOf (level index : Nat) : W16 := BitVec.ofNat 16 (16384 * level + index)

/-- The bit of a ring position. -/
def bitOf (p : Nat) : Byte := BitVec.ofNat 8 (2 ^ p)
/-- Own ring position by the chain record (R458); 0 without one. -/
def State.ringPos (s : State) : BitVec 3 := (s.chain.record.map (fun r => r.pos)).getD 0

/-- Members that run in the chain with this drive, this one among them; it alone outside its chain (R283, R461). -/
def State.membersHere (s : State) : Byte := if s.chain.inChain then s.chain.present else bitOf s.ringPos.toNat
/-- Members of the record that have left the chain, or that this drive is without (R283). -/
def State.membersAway (s : State) : Byte :=
  (s.chain.record.map (fun r => (BitVec.ofNat 8 (2 ^ r.n - 1) : Byte))).getD 0 &&& ~~~ s.membersHere

/-- The drives present in the chain, by ring position. -/
def State.drives (s : State) : List Nat :=
  if s.chain.inChain then (List.range 8).filter (fun d => s.chain.present.getLsbD d) else [s.ownPos.toNat]

/-- Tiles of a unit that rank before those of this drive (R134). The members on other drives are whole drives: an ID that a group table gives
to a level-2 group names one of this drive's (log entry 172). -/
def State.tilesBefore (s : State) (u : UnitInfo) : Nat := 256 * (u.others.filter (fun d => decide (d < s.ownPos.toNat))).length

/-- All logical tiles. -/
def allTiles : List Nat := List.range 256

/-- What a group ID names in a group table when no tile is lost. -/
def State.unitNamed (s : State) (groups : SMap Group) (g : W16) : Option UnitInfo :=
  let i := gidIndex g
  let own := s.ownPos.toNat
  let created : Option UnitInfo := (find g.toNat groups).map (fun x =>
    ⟨x.tiles, x.drives, x.members.length, x.tiles.length + 256 * x.drives.length⟩)
  match gidLevel g with
  | 0 => if i < 256 then some ⟨[i], [], 1, 1⟩ else none
  | 1 => if i < 16 then some ⟨(List.range 16).map (fun k => 16 * i + k), [], 16, 16⟩ else created
  | 2 =>
    if i < 8 then
      if i = own then some ⟨allTiles, [], 16, 256⟩
      else if s.drives.contains i then some ⟨[], [i], 16, 256⟩ else none
    else created
  | _ =>
    if i = 0 then some ⟨allTiles, s.drives.filter (fun d => decide (d ≠ own)), s.drives.length, 256 * s.drives.length⟩ else created

/-- What a group ID names in a group table (R4 to R7, R132, R170); none when it names nothing, or a lost tile (R470). -/
def State.unitIn (s : State) (groups : SMap Group) (g : W16) : Option UnitInfo :=
  (s.unitNamed groups g).filter (fun u => u.tiles.all (fun t => !(s.tile t).lost))

/-- What a group ID names in the live table. -/
def State.unit? (s : State) (g : W16) : Option UnitInfo := s.unitIn s.set.groups g

/-- All logical tiles that a list names, each once, ascending (R134). -/
def tileUnion (ts : List Nat) : List Nat := allTiles.filter (fun t => ts.contains t)

/-- A group of a level with its members resolved in a group table (R134); a member that names nothing there gives no tile (log entry 170). -/
def State.formGroup (s : State) (groups : SMap Group) (level : Nat) (members : List W16) : Group :=
  let us := members.filterMap (s.unitNamed groups)
  ⟨level, members, tileUnion (us.flatMap (fun u => u.tiles)), (us.flatMap (fun u => u.others)).eraseDups⟩

/-- The group table as it would stand after the next commit (R134, R199): each group created has its members resolved as they then stand, those
of a lower level first; a member freed at the same saddle still stands for its tiles (log entry 170). -/
def State.stagedGroups (s : State) : SMap Group :=
  let made := s.set.pendGroups.foldl (fun m (k, p) => match p with
    | .create g => put k (s.formGroup m g.level g.members) m
    | _ => m) s.set.groups
  s.set.pendGroups.foldl (fun m (k, p) => match p with
    | .create _ => m
    | _ => remove k m) made

/-- First index and capacity of created groups by level (R132). -/
def groupRange (level : Nat) : Nat × Nat := if level = 1 then (16, 1024) else if level = 2 then (8, 256) else (1, 8)

/-- Whether an index is taken: live, pending, or held by a running job after its free (R133, R134). -/
def State.groupTaken (s : State) (k : Nat) : Bool :=
  (find k s.set.groups).isSome || (find k s.set.pendGroups).isSome ||
  (s.set.heldGroups.contains k && s.host.jobs.any (fun j => match j.kind with
    | .program _ u _ _ _ => u.toNat == k && j.phase != .waiting
    | _ => false))

/-- Lists no number twice. -/
def noRepeat : List Nat → Bool
  | [] => true
  | x :: xs => !xs.contains x && noRepeat xs

/-- Checks a group create (R133) against the values live after the next commit (R199): its level, group, or the refusal. At level 3 a drive
gives one member, itself or one of its level-2 groups (R132). -/
def State.checkGroup (s : State) (members : List W16) : Except W16 (Nat × Group) :=
  match members with
  | [] => .error stInvalidField
  | m :: _ =>
    let level := gidLevel m + 1
    let units := members.map (s.unitIn s.stagedGroups)
    if units.any Option.isNone then .error stInvalidGroup
    else if 3 < level ∨ members.any (fun x => gidLevel x ≠ gidLevel m) then .error stGroupOverlap
    else
      let us := units.filterMap id
      let tiles := us.flatMap (fun u => u.tiles)
      let others := us.flatMap (fun u => u.others)
      if !noRepeat tiles || !noRepeat others || (level == 3 && decide (1 < us.countP (fun u => !u.tiles.isEmpty))) then .error stGroupOverlap
      else if 256 < members.length ∨ (level = 3 ∧ 8 < members.length) then .error stInvalidField
      else .ok (level, s.formGroup s.stagedGroups level members)

/-! ## Scalar settings (R201) -/

/-- Number, default, and values of each scalar setting (R201). -/
def scalarDefault (n : Nat) : Option W64 :=
  if n = 1 then some 250000 else if n = 2 then some 250000 else if n = 3 then some 0 else if n = 4 then some 300
  else if n = 0x10 ∨ n = 0x11 ∨ n = 0x12 then some 64 else if n = 0x20 then some 1024 else if n = 0x21 then some 16777216 else none

/-- Whether a value lies in a scalar setting's range (R201). -/
def scalarRange (n v : Nat) : Bool :=
  if n = 1 then decide (v = 0) || (decide (20000 ≤ v) && decide (v ≤ 10000000))
  else if n = 2 then decide (20000 ≤ v) && decide (v ≤ 10000000)
  else if n = 3 then decide (v ≤ 1)
  else if n = 4 then [150, 200, 250, 300].contains v
  else if n = 0x10 ∨ n = 0x11 ∨ n = 0x12 then decide (v ≤ 4096)
  else if n = 0x20 then decide (1 ≤ v) && decide (v ≤ 65535)
  else if n = 0x21 then decide (65536 ≤ v) && decide (v ≤ 1073741824)
  else false

/-- Whether a number names a setting of the catalogue (R201): a scalar, or one of the four tables. -/
def settingExists (n : Nat) : Bool := (scalarDefault n).isSome || (decide (0x100 ≤ n) && decide (n ≤ 0x103))
/-- The live value of a scalar setting; 0 for a number that names none. -/
def State.liveOf (s : State) (n : Nat) : W64 := (find n s.set.live).getD ((scalarDefault n).getD 0)
/-- The value that would be live after the next commit (R199). -/
def State.nextOf (s : State) (n : Nat) : W64 := (find n s.set.pend).getD (s.liveOf n)

/-- CHAIN_SYNC live (R201). -/
def State.chainSync (s : State) : Bool := s.liveOf 3 != 0

/-- STEP_PERIOD and CHAIN_SYNC agree (R199). -/
def pairOk (period sync : W64) : Bool := !(period == 0 && sync != 0)

/-! ## Weight bindings (R67, R68, R500) -/

/-- A field of an object's content. -/
def Obj.field (o : Obj) (off n : Nat) : Nat := o.data.rdNat off n

/-- K, N and weight format of a weight set's header, when it passes R500. -/
def weightHeader (o : Obj) : Option (Nat × Nat × Nat) :=
  let k := o.field 8 4
  let n := o.field 12 4
  if o.typ ≠ 1 ∨ o.size < 64 ∨ o.field 0 4 ≠ 0x53575A55 ∨ o.field 4 1 ≠ 1 ∨ o.field 6 2 ≠ 0 ∨ k = 0 ∨ n = 0 ∨ 3 < o.field 5 1 ∨
      (o.data.rdBytes 32 32).any (fun b => b != 0) then none
  else some (k, n, o.field 5 1)

/-- K, N and weight format of a scale table (R67). -/
def scaleHeader (o : Obj) : Option (Nat × Nat × Nat) :=
  if o.typ ≠ 2 then none else some (o.field 0 4, o.field 4 4, o.field 8 1)

/-- An object that new bindings may name. -/
def State.live? (s : State) (h : W32) : Option Obj :=
  match s.obj? h with
  | some o => if o.dropped then none else some o
  | none => none

/-- Checks a WEIGHT_BINDING value (R68, R199). -/
def State.checkBinding (s : State) (v : W64) : Bool :=
  if v = 0 then true
  else if lo32 v = 0 ∨ hi32 v = 0 then false
  else match s.live? (lo32 v), s.live? (hi32 v) with
    | some a, some b => match weightHeader a, scaleHeader b with
      | some x, some y => x == y
      | _, _ => false
    | _, _ => false

/-! ## Staging -/

/-- Stages one pending entry per key, at most `limit` (R200). -/
def pendPut {α : Type} (limit : Nat) (m : SMap α) (k : Nat) (v : α) : Except W16 (SMap α) :=
  if (find k m).isNone && decide (limit ≤ m.length) then .error stStageFull else .ok (put k v m)

/-- Stages a group create (R133): a level-3 group only where CHAIN_SYNC would be 1 after the next commit (R199). The index among the free ones
is the drive's choice (log entry 12). A create past the 256 pending entries is refused with STAGE_FULL before the level's capacity is looked at
(log entry 171, the model's choice). -/
def State.stageCreate (s : State) (members : List W16) : Except W16 (W64 × State) :=
  match s.checkGroup members with
  | .error e => .error e
  | .ok (level, g) =>
    if level = 3 ∧ s.nextOf 3 = 0 then .error stInvalidField else
    let (lo, cap) := groupRange level
    let free := ((List.range cap).map (lo + ·)).filter (fun i => !s.groupTaken (gidOf level i).toNat)
    if 256 ≤ s.set.pendGroups.length then .error stStageFull
    else match free with
    | [] => .error stGroupTableFull
    | f :: fs =>
      let (n, s) := s.draw
      let i := if fs.isEmpty then f else ((f :: fs)[Config.allot n % (f :: fs).length]?).getD f
      let gid := gidOf level i
      .ok (gid.setWidth 64, { s with set := { s.set with pendGroups := put gid.toNat (.create g) s.set.pendGroups } })

/-- Stages a group free (R134): of a live group, or in place of a pending create. -/
def State.stageFree (s : State) (gid : W16) : Except W16 (W64 × State) :=
  match find gid.toNat s.set.pendGroups, find gid.toNat s.set.groups with
  | some .dead, _ => .error stInvalidGroup
  | some .free, _ => .ok (0, s)
  | some (.create _), _ => .ok (0, { s with set := { s.set with pendGroups := put gid.toNat .dead s.set.pendGroups } })
  | none, some _ =>
    match pendPut 256 s.set.pendGroups gid.toNat .free with
    | .error e => .error e
    | .ok m => .ok (0, { s with set := { s.set with pendGroups := m } })
  | none, none => .error stInvalidGroup

/-- Whether a setting has chain scope (R201). -/
def chainScope (num : Nat) (level3 : Bool) : Bool :=
  num == 1 || num == 3 || num == 0x21 || num == 0x101 || (num == 0x100 && level3)

/-- Stages one change (R198 to R200): checked against the values that would be live after the next commit. -/
def State.stageLocal (s : State) (num : Nat) (key value : W64) (members : List W16) : Except W16 (W64 × State) :=
  if num = 0x100 then
    if value = 0 then (if key = 0 then s.stageCreate members else .error stInvalidField)
    else if value = 1 then (if key.toNat < 65536 then s.stageFree (key.setWidth 16) else .error stInvalidGroup)
    else .error stInvalidField
  else if num = 0x101 then
    if 4294967296 ≤ key.toNat ∨ !s.checkBinding value then .error stInvalidField
    else match pendPut 256 s.set.pendBindings key.toNat value with
      | .error e => .error e
      | .ok m => .ok (0, { s with set := { s.set with pendBindings := m } })
  else if num = 0x102 then
    match s.live? (lo32 key), s.live? (lo32 value) with
    | some a, some b =>
      if hi32 key ≠ 0 ∨ hi32 value ≠ 0 ∨ a.typ ≠ b.typ then .error stInvalidField
      else match pendPut 1024 s.set.pendReplaces key.toNat (lo32 value) with
        | .error e => .error e
        | .ok m => .ok (0, { s with set := { s.set with pendReplaces := m } })
    | _, _ => .error stInvalidField
  else if num = 0x103 then
    if 64 ≤ key.toNat % 256 ∨ 3 ≤ key.toNat / 256 then .error stInvalidField
    else match pendPut 192 s.set.pendQuotas key.toNat value with
      | .error e => .error e
      | .ok m => .ok (0, { s with set := { s.set with pendQuotas := m } })
  else if (scalarDefault num).isNone ∨ key ≠ 0 ∨ !scalarRange num value.toNat then .error stInvalidField
  else
    let period := if num = 1 then value else s.nextOf 1
    let sync := if num = 3 then value else s.nextOf 3
    if (num = 1 ∨ num = 3) ∧ !pairOk period sync then .error stInvalidField
    else
      .ok (0, { s with set := { s.set with pend := put num value s.set.pend } })

/-- The timing master's ring position: the lowest present (R182). -/
def State.master (s : State) : Nat := ((List.range 8).find? (fun d => s.chain.present.getLsbD d)).getD s.chain.pos.toNat

/-- Puts a chain-scope change that the master has accepted into the staged copy, as every member does alike (R202, R203); a group create
carries the index that the master allotted as its key. -/
def State.applyChange (s : State) (c : StagedChange) : State :=
  let k := c.key.toNat
  if c.num = 0x100 then
    let p : PendGroup := if c.value = 0 then .create (s.formGroup s.stagedGroups (gidLevel (c.key.setWidth 16)) c.members)
      else match find k s.set.pendGroups with
        | some (.create _) => .dead
        | some .dead => .dead
        | _ => .free
    { s with set := { s.set with pendGroups := put k p s.set.pendGroups } }
  else if c.num = 0x101 then { s with set := { s.set with pendBindings := put k c.value s.set.pendBindings } }
  else { s with set := { s.set with pend := put c.num.toNat c.value s.set.pend } }

/-- The staged copy as it would stand with every chain-scope change accepted so far, in order (R199, R202). -/
def State.withAccepted (s : State) : State :=
  (((s.chain.flit.map Prod.snd).getD [] ++ s.chain.accepted ++ s.chain.forwarded).foldl State.applyChange) s

/-- Whether a change goes to the timing master (R201, R202): a chain-scope change while CHAIN_SYNC is live. -/
def State.toMaster (s : State) (num : Nat) (key : W64) (members : List W16) : Bool :=
  let level3 := match members with
    | m :: _ => gidLevel m == 2
    | [] => decide (key.toNat / 16384 = 3)
  s.chainSync && chainScope num level3

/-- Stages a change (R198, R202): a chain-scope change goes to the master while CHAIN_SYNC is live, which accepts it in order; every
other one lands in this drive's staged copy. A change forwarded to another drive completes as that drive would accept it, from what this
one knows (log entry 37). -/
def State.stageChange (s : State) (num : Nat) (key value : W64) (members : List W16) : Except W16 (W64 × State) :=
  if s.toMaster num key members then
    match s.withAccepted.stageLocal num key value members with
    | .error e => .error e
    | .ok (v, t) =>
      let c : StagedChange := ⟨BitVec.ofNat 16 num, if num = 0x100 ∧ value = 0 then v else key, value, members⟩
      let ch := if s.master = s.chain.pos.toNat then { s.chain with accepted := s.chain.accepted ++ [c] }
        else { s.chain with forwarded := s.chain.forwarded ++ [c] }
      .ok (v, { s with freeCtr := t.freeCtr, chain := ch })
  else s.stageLocal num key value members

/-- The number of pending staged changes (R197 PENDING), each scalar and each key of a table once, whether it stands here or on its way
to the master and back (R202). A ledger import is not staged: R198 does not list it, and no reset discards it (log entry
113). -/
def State.pendingCount (s : State) : Nat :=
  let t := (s.withAccepted).set
  t.pend.length + t.pendGroups.length + t.pendBindings.length + t.pendReplaces.length + t.pendQuotas.length +
  (if t.pendPower.isSome then 1 else 0)

/-- The value of a setting as READ gives it (R412): live, or staged. -/
def State.readSetting (s0 : State) (num : Nat) (key : W64) (staged : Bool) : W64 :=
  let s := if staged then s0.withAccepted else s0
  if num = 0x100 then
    match s.unitIn (if staged then s.stagedGroups else s.set.groups) (key.setWidth 16) with
    | some u => BitVec.ofNat 64 (u.members + 65536 * u.total)
    | none => 0
  else if num = 0x101 then
    let live := getD 0 s.set.bindings key.toNat
    if staged then (find key.toNat s.set.pendBindings).getD live else live
  else if num = 0x102 then
    let live := getD 0 s.set.replaces key.toNat
    (if staged then (find key.toNat s.set.pendReplaces).getD live else live).setWidth 64
  else if num = 0x103 then
    let live := BitVec.ofNat 64 (s.quota (key.setWidth 6) (key.toNat / 256 % 4))
    if staged then (find key.toNat s.set.pendQuotas).getD live else live
  else if staged then s.nextOf num else s.liveOf num

end Sys2Proof.Machine
end

