-- ==== Sys2Proof/Machine/HostPort.lean ====
section
/-! DEFINITION. The host's side of a command: fetch, refusal, data and completion (13 R385 to R389, R395, R402, R405,
R406, R409, R418; 15 R472). -/
namespace Sys2Proof.Machine

/-! ## Statuses -/

/-- An NVMe status: SCT and SC. -/
abbrev NvStatus := Nat × Nat

/-- NVMe statuses that the drive returns by name; the numbers are those of the specifications R386 names (log entry 28). -/
def nvOk : NvStatus := (0, 0x00)
def nvInvalidField : NvStatus := (0, 0x02)
def nvAborted : NvStatus := (0, 0x07)
def nvInvalidNamespace : NvStatus := (0, 0x0B)
def nvWriteProtected : NvStatus := (0, 0x20)
def nvLbaRange : NvStatus := (0, 0x80)
def nvCapacity : NvStatus := (1, 0x15)
def nvInvalidQueue : NvStatus := (1, 0x01)
def nvInvalidCq : NvStatus := (1, 0x00)
def nvUnrecovered : NvStatus := (2, 0x81)

/-- Drive status codes as NVMe statuses (R406). -/
def nvOf (c : W16) : NvStatus :=
  if c = stOk then nvOk
  else if c = stInvalidOperand ∨ c = stInvalidField ∨ c = stSpurMapInvalid then nvInvalidField
  else if c = stAborted then nvAborted
  else if c = stMediaUncorrectable then nvUnrecovered
  else if c = stMediaProgramFail then (2, 0x80)
  else if c = stInvalidGroup then (7, 0x81)
  else if c = stGroupTableFull then (7, 0x82)
  else if c = stGroupOverlap then (7, 0x83)
  else if c = stPeerReset then (7, 0x84)
  else if c = stMemberMissing then (7, 0x85)
  else if c = stObjectUnknown then (7, 0x90)
  else if c = stObjectImpaired then (7, 0x91)
  else if c = stObjectSealed then (7, 0x92)
  else if c = stQuotaExceeded then (7, 0x93)
  else if c = stTierFull then (7, 0x94)
  else if c = stOutOfRange then (7, 0x95)
  else if c = stMediaNotErased then (7, 0xA0)
  else if c = stMediaNotOwned then (7, 0xA1)
  else if c = stMediaEraseFail then (7, 0xA3)
  else if c = stContextExhausted then (7, 0xB0)
  else if c = stStageFull then (7, 0xB1)
  else if c = stProgramTrap then (7, 0xB2)
  else if c = stDeferredWriteError then (7, 0xC0)
  else (7, 0xC1)

/-! ## Controllers and queues -/

/-- Controller `c`. -/
def State.ctrl (s : State) (c : Fin 33) : Ctrl := getD {} s.host.ctrls c.val
/-- Writes controller `c`. -/
def State.setCtrl (s : State) (c : Fin 33) (x : Ctrl) : State := { s with host := { s.host with ctrls := put c.val x s.host.ctrls } }
/-- Applies `f` to controller `c`. -/
def State.updCtrl (s : State) (c : Fin 33) (f : Ctrl → Ctrl) : State := s.setCtrl c (f (s.ctrl c))
/-- An I/O submission queue of a controller. -/
def State.sq? (s : State) (c : Fin 33) (q : W16) : Option Sq := find q.toNat (s.ctrl c).sqs
/-- Applies `f` to an I/O submission queue. -/
def State.updSq (s : State) (c : Fin 33) (q : W16) (f : Sq → Sq) : State :=
  match s.sq? c q with
  | some x => s.updCtrl c (fun k => { k with sqs := put q.toNat (f x) k.sqs })
  | none => s

/-! ## What the drive sends -/

/-- Whether the memory requests of a controller wait: it is in D3hot (R472), or the drive is leaving a power state (R418). -/
def State.waits (s : State) (c : Fin 33) : Bool := (s.ctrl c).d3 || s.pwr.exiting

/-- Sends something to the host, or holds it. What follows a held output of the same controller is held too. -/
def State.send (s : State) (o : HostOut) : State :=
  if s.waits o.ctrl then { s with host := { s.host with held := s.host.held ++ [o] } }
  else { s with host := { s.host with out := s.host.out ++ [o] } }

/-- Sends the held outputs of controllers that no longer wait, in their order. -/
def State.flushHeld (s : State) : State :=
  let go := s.host.held.filter (fun o => !s.waits o.ctrl)
  { s with host := { s.host with out := s.host.out ++ go, held := s.host.held.filter (fun o => s.waits o.ctrl) } }

/-- The MSI-X message of a completion queue (R387): the admin queue's vector is 0. -/
def State.sendMsix (s : State) (c : Fin 33) (sqid : W16) : State :=
  if sqid = 0 then s.send (.msix c 0 0)
  else match s.sq? c sqid with
    | none => s
    | some q => match find q.cqid.toNat (s.ctrl c).cqs with
      | some x => if x.interrupts then s.send (.msix c q.cqid x.vector) else s
      | none => s

/-- Posts a completion entry and its message (R24, R405). -/
def State.complete (s : State) (c : HostCmd) (dw0 dw1 : W32) (st : NvStatus) : State :=
  (s.send (.done ⟨c.ctrl, c.sqid, c.cid, dw0, dw1, st.1, st.2⟩)).sendMsix c.ctrl c.sqid

/-- Completes a command with an NVMe status alone. -/
def State.fail (s : State) (c : HostCmd) (st : NvStatus) : State := s.complete c 0 0 st
/-- Completes a command with a drive status alone. -/
def State.failSt (s : State) (c : HostCmd) (st : W16) : State := s.fail c (nvOf st)
/-- Completes a command with success and dword 0. -/
def State.ok (s : State) (c : HostCmd) (dw0 : W32) : State := s.complete c dw0 0 nvOk
/-- Writes bytes into the host buffer of a command, then completes it with success. -/
def State.reply (s : State) (c : HostCmd) (bytes : List Byte) (dw0 : W32) : State :=
  (s.send (.bytes ⟨c.ctrl, c.sqid, c.cid, 0, bytes⟩)).ok c dw0

/-! ## Fetch -/

end Sys2Proof.Machine

namespace Sys2Proof
open Machine

/-- A byte of the command's host buffer; the list holds its bytes from offset 0, and a byte beyond it reads 0. -/
def HostCmd.byte (c : HostCmd) (i : Nat) : Byte := (c.data[i]?).getD 0
/-- `n` bytes of the host buffer. -/
def HostCmd.bytes (c : HostCmd) (off n : Nat) : List Byte := (List.range n).map (fun i => c.byte (off + i))
/-- A little-endian field of the host buffer. -/
def HostCmd.nat (c : HostCmd) (off n : Nat) : Nat := leNat (c.bytes off n)
/-- A 32-bit field of the host buffer. -/
def HostCmd.w32 (c : HostCmd) (off : Nat) : W32 := BitVec.ofNat 32 (c.nat off 4)
/-- Whether `n` bytes of the host buffer from `off` are 0. -/
def HostCmd.zero (c : HostCmd) (off n : Nat) : Bool := (c.bytes off n).all (fun b => b == 0)
/-- Whether command dwords 12 to 15 are 0. -/
def HostCmd.restZero (c : HostCmd) : Bool := c.cdw12 == 0 && c.cdw13 == 0 && c.cdw14 == 0 && c.cdw15 == 0

end Sys2Proof

namespace Sys2Proof.Machine

/-- The client of a command (R388): its queue's; the admin queue has the client its controller starts with. -/
def State.clientOf (s : State) (c : HostCmd) : BitVec 6 :=
  match s.sq? c.ctrl c.sqid with
  | some q => q.client
  | none => BitVec.ofNat 6 c.ctrl.val

/-- No I/O command is outstanding and the write buffer is empty (R418). -/
def State.ioDone (s : State) : Bool := s.ftl.buf.isEmpty && s.ftl.waiting.isEmpty && s.ftl.zeroing.isEmpty

/-- Whether entry into a non-operational power state has begun (R418): its selection has committed, no job runs and the buffer is empty. -/
def State.entryBegun (s : State) : Bool := s.pwr.entering.isSome && s.host.jobs.isEmpty && s.ioDone

/-- A command that arrives while the drive enters or holds a non-operational power state returns it to the last
operational one (R418); its completion waits for the exit latency. -/
def State.leaveLow (s : State) : State :=
  if s.entryBegun || decide (3 ≤ s.pwr.ps) then
    { s with pwr := { s.pwr with entering := none, exiting := true, ps := s.pwr.lastOp } }
  else s

/-- The fetch of a command: nothing is fetched on a controller that is not ready, in D3hot or being disabled, nor on an I/O
queue that does not exist, is frozen or is being deleted (R386, R389, R409, R432, R472). A tag that was known is forgotten (R209). A
command whose queue and namespace have a pending notice is not executed: it completes with DEFERRED_WRITE_ERROR (R409); one whose CDW1 is
ignored `names` no namespace (R407). -/
def State.fetchAs (s : State) (c : HostCmd) (names : Bool) (body : State → State) : State :=
  let k := s.ctrl c.ctrl
  if !k.rdy || k.cfs || k.disabling || k.d3 then s
  else if c.sqid = 0 then body s.leaveLow
  else match s.sq? c.ctrl c.sqid with
    | none => s
    | some q =>
      if q.frozen || q.deleting.isSome then s
      else
        let s := s.leaveLow
        let s := { s with host := { s.host with tags := s.host.tags.filter (fun t => t.1 != (c.ctrl, c.sqid, c.cid)) } }
        if names && q.notices.contains c.nsid then
          let s := s.updSq c.ctrl c.sqid (fun q => { q with notices := q.notices.filter (fun n => n != c.nsid) })
          let s := { s with host := { s.host with deferred := s.host.deferred.map (fun (e : DefErr) =>
            if e.ctrl = c.ctrl ∧ e.sqid = c.sqid ∧ e.nsid = c.nsid ∧ e.report = 0 then { e with report := 1 } else e) } }
          s.failSt c stDeferredWriteError
        else body s

/-- The fetch of a command that names a namespace in CDW1. -/
def State.fetch (s : State) (c : HostCmd) (body : State → State) : State := s.fetchAs c true body

/-- The fetch of an admin command: only on the admin queue. -/
def State.admin (s : State) (c : HostCmd) (body : State → State) : State :=
  if c.sqid = 0 then s.fetch c body else s

/-- The fetch of an I/O command: only on an I/O queue. -/
def State.io (s : State) (c : HostCmd) (body : State → State) : State :=
  if c.sqid = 0 then s else s.fetch c body

end Sys2Proof.Machine
end

