-- ==== Sys2Proof/Machine/Media.lean ====
section
/-! DEFINITION. Dies, block-state records, retirement and extents (11 R323 to R351; 06 R162 to R167; 12 R378 to R380),
and the record instructions' issue and completion (06 R139, R140). -/
namespace Sys2Proof.Machine

/-! ## Completion records -/

/-- The drive time of a channel controller's detail: channel and die (R383). -/
def dieDetail (d : Nat) : BitVec 9 := BitVec.ofNat 9 d

/-- Adds a record operation of a core (R139, R140): it completes later. -/
def State.addRec (s : State) (t : Fin 256) (c : Fin 4) (w : IWord) (rec : Nat × Option Nat) (kind : RecKind) (out : Option (W16 × W64)) : State :=
  let r := s.regs (.core t c)
  let op : RecOp := { id := s.host.nextRec, tile := t.val, core := c.val, job := r.job.getD 0, word := r.pc.toNat, stamp := w.stamp,
                      addr := rec.1, flag := rec.2, kind := kind, outcome := out }
  { s with host := { s.host with recs := s.host.recs ++ [op], nextRec := s.host.nextRec + 1 } }

/-- Sets the outcome of record operation `id` (R140): it completes when its record is written. -/
def State.setOutcome (s : State) (id : Nat) (code : W16) (value : W64) : State :=
  { s with host := { s.host with recs := s.host.recs.map (fun r =>
      if r.id = id ∧ r.outcome.isNone then { r with outcome := some (code, value), served := true } else r) } }

/-- Marks record operation `id` as served. -/
def State.markServed (s : State) (id : Nat) : State :=
  { s with host := { s.host with recs := s.host.recs.map (fun r => if r.id = id then { r with served := true } else r) } }

/-- Marks an FREAD as served, with the sectors that it reads as they stand on its receipt (R167). -/
def State.markRead (s : State) (id : Nat) (bs : List Byte) : State :=
  { s with host := { s.host with recs := s.host.recs.map (fun r => if r.id = id then { r with served := true, got := bs } else r) } }

/-- The 32 bytes of a completion record (R140). -/
def recordBytes (code : W16) (value : W64) (cairn : W128) : List Byte :=
  [1, 0] ++ leBytes 2 code.toNat ++ leBytes 4 0 ++ leBytes 8 value.toNat ++ leBytes 16 cairn.toNat

/-- Writes the record of an operation, sets its flag, and ends it (R122, R131, R140). -/
def State.writeRecord (s : State) (t : Fin 256) (c : Fin 4) (op : RecOp) (code : W16) (value : W64) : State :=
  let s := { s with host := { s.host with recs := s.host.recs.filter (fun r => r.id != op.id) } }
  let (cairn, s) := s.stampGet (s.srcTile t.val) 0x32 (s.jobDetail (some op.job)) []
  let s := s.sramWrite t.val op.addr (recordBytes code value cairn)
  let s := s.updRegs (.core t c) (fun r => r.outcome code)
  let s := match op.flag with
    | some f => s.setFlag t op.job (BitVec.ofNat 4 f)
    | none => s
  s.stampIf op.stamp (.core t c) (BitVec.ofNat 64 op.word)

/-! ## Dies and channels -/

/-- Die `d` (channel × 16 + position). -/
def State.die (s : State) (d : Nat) : Die := getD {} s.media.dies d
/-- Writes die `d`. -/
def State.setDie (s : State) (d : Nat) (x : Die) : State := { s with media := { s.media with dies := put d x s.media.dies } }
/-- Applies `f` to die `d`. -/
def State.updDie (s : State) (d : Nat) (f : Die → Die) : State := s.setDie d (f (s.die d))
/-- The channel of die `d`. -/
def State.chanOf (s : State) (d : Nat) : Chan := getD {} s.media.chans (d / 16)
/-- Applies `f` to the channel of die `d`. -/
def State.updChan (s : State) (d : Nat) (f : Chan → Chan) : State :=
  { s with media := { s.media with chans := put (d / 16) (f (s.chanOf d)) s.media.chans } }
/-- The record of the block at ring position `p`. -/
def Die.blk (x : Die) (p : Nat) : Blk := getD {} x.blocks p
/-- Applies `f` to the record of the block at position `p` of die `d`. -/
def State.updBlk (s : State) (d p : Nat) (f : Blk → Blk) : State :=
  s.updDie d (fun x => { x with blocks := put p (f (x.blk p)) x.blocks })

/-- Units of a block by mode (R323). -/
def blockUnits (qlc : Bool) : Nat := if qlc then 2048 else 512
/-- Wear that an erase adds (R325). -/
def eraseWear (qlc : Bool) : Nat := if qlc then 10 else 1

/-- Ring position of the extent block of window index `j` (R349). -/
def Die.ringPos (x : Die) (j : Nat) : Nat :=
  if x.winW = 0 then x.winS % 4096 else (x.winS + (j + x.winW - x.winR % x.winW) % x.winW) % 4096

/-- Whether a position lies in the window of a die (R349). -/
def Die.inWindow (x : Die) (p : Nat) : Bool := decide ((p + 4096 - x.winS % 4096) % 4096 < x.winW)

/-- Whether a position holds nothing of the translation layer, and no erase of it is due. -/
def Die.idleAt (x : Die) (p : Nat) : Bool := (x.blk p).use == .free && !(x.blk p).erasing

/-- The die of block `i` of an extent (R345). -/
def dieOfBlock (i : Nat) : Nat := (i % 32) * 16 + (i / 32) % 16

/-- Free blocks of the translation layer on a die: one erased pSLC block is kept aside on every die (R371). -/
def Die.freeBlocks (x : Die) : Nat :=
  if x.failed then 0
  else 4095 - x.winW - (x.blocks.filter (fun (_, b) => match b.use with
    | .open_ => true
    | .closed => true
    | .gone => true
    | _ => false)).length

/-- All die numbers. -/
def dieIds : List Nat := List.range 512

/-- Free blocks drive-wide (R382 FREEBLK). -/
def State.freeBlocks (s : State) : Nat :=
  s.media.dies.foldl (fun n (_, x) => n + x.freeBlocks) (4095 * (512 - s.media.dies.length))

/-- Free spare blocks over dies that have not failed (R379, R382). -/
def State.spareFree (s : State) : Nat :=
  s.media.dies.foldl (fun n (_, x) => n + if x.failed then 0 else x.spares) (120 * (512 - s.media.dies.length))

/-- The drive turns read-only (R380). -/
def State.checkReadOnly (s : State) : State :=
  if !s.ftl.readOnly && decide (s.spareFree < 2048) then
    ({ s with ftl := { s.ftl with readOnly := true } }).stamp (srcControl 0) 0x6A 0
  else s

/-- The block that replaces a retired one on a die (R348, R378): the next spare; on a die without one, the block of a free position, which leaves
service. Answers the physical block, its wear, and that position. A die without a free block goes on with the block it has (log entry 202). -/
def Die.replacement (x : Die) (p n : Nat) : Nat × Nat × Option Nat :=
  let phys (q : Nat) : Nat := (find q x.remap).getD q
  if x.spares ≠ 0 then (4096 + (120 - x.spares), 0, none)
  else
    let free := (List.range 4096).filter (fun q => q != p && !x.inWindow q && x.idleAt q)
    match free[Config.allot n % free.length]? with
    | some q => (phys q, (x.blk q).wear, some q)
    | none => (phys p, (x.blk p).wear, none)

/-- Retires the block at a position and puts its replacement there, erased (R348, R378); BLOCK_RETIRED names the physical block. -/
def State.retire (s : State) (d p : Nat) : State :=
  let x := s.die d
  let b := x.blk p
  let phys := (find p x.remap).getD p
  let (n, s) := s.draw
  let (next, wear, from_) := x.replacement p n
  let blocks := match from_ with
    | some q => put q { x.blk q with use := .gone } x.blocks
    | none => x.blocks
  let s := s.setDie d { x with spares := x.spares - 1, retired := x.retired + 1, remap := put p next x.remap,
                               blocks := put p { b with replaced := true, wear := wear + eraseWear b.qlc, stopped := false } blocks }
  let s := (s.updChan d (fun c => { c with erases := c.erases + 1 }))
  let s := { s with media := { s.media with sinceMove := s.media.sinceMove + 1 } }
  (s.stamp (srcChannel (d / 16)) 0x64 (dieDetail d ++ (0 : BitVec 6) ++ BitVec.ofNat 13 phys)).checkReadOnly

/-! ## Extents -/

/-- The dies that hold the slot's reserved blocks (R453): on each of channels 0 to 3 the lowest that has not failed. -/
def State.slotDies (s : State) : List Nat :=
  (List.range 4).filterMap (fun ch => ((List.range 16).map (16 * ch + ·)).find? (fun d => !(s.die d).failed))

/-- Extent `h`: one whose allocation has ended (R415). -/
def State.extent? (s : State) (h : W32) : Option Extent := (find h.toNat s.media.extents).filter (fun e => e.waits.isNone)
/-- Applies `f` to extent `h`. -/
def State.updExtent (s : State) (h : W32) (f : Extent → Extent) : State :=
  match s.extent? h with
  | some e => { s with media := { s.media with extents := put h.toNat (f e) s.media.extents } }
  | none => s

/-- Die and ring position of block `i` of an extent (R345, R349). -/
def State.extentAt (s : State) (e : Extent) (i : Nat) : Nat × Nat :=
  let d := dieOfBlock i
  (d, (s.die d).ringPos ((e.slots[i]?).getD 0))

/-- Byte offset of a unit in an extent's content. -/
def unitAt (block unit : Nat) : Nat := 65536 * (2048 * block + unit)

/-- Whether a block of an extent holds part of an undropped sealed object (R164). -/
def State.blockSealed (s : State) (h : W32) (block : Nat) : Bool :=
  s.obj.dir.any (fun (_, o) => !o.dropped && (match o.extent with
    | some (e, bs) => e == h && bs.contains block
    | none => false))

/-! ## Die scheduling (R330, R331) -/

/-- Microseconds in ns. -/
def us (n : Nat) : Nat := 1000 * n

/-- Run time of a write (R328, R344). -/
def Die.runTime (x : Die) (w : DieWrite) : Nat :=
  if w.erase then (if x.calDef then us 10000 else us 8000)
  else if w.qlc then (if x.calDef then us 2400 else us 1800)
  else if x.calDef then us 200 else us 150

/-- Minimum run of a write after its start or a resume (R328). -/
def minRun (w : DieWrite) : Nat := if w.erase then us 800 else us 250

/-- The bucket of a value: how many of the lower bounds it reaches (R338). -/
def bucket (bounds : List Int) (v : Int) : Nat := bounds.countP (fun b => decide (b ≤ v))

/-- Age, temperature and wear buckets of a block (R338). -/
def ageBucket (minutes : Nat) : Nat := bucket [60, 1440, 10080, 43200, 129600, 259200, 525600] minutes
def tempBucket (dt : Int) : Nat := bucket [-39, -19, -5, 6, 20, 40, 60] dt
def wearBucket (wear : Nat) : Nat := bucket [2000, 5000, 10000, 15000, 20000, 25000, 30000] wear

/-- The ledger entry of a read of a block (R338): index 64a + 8t + w by its age, its first program's temperature less the die's now, and its wear. -/
def ledgerIndex (epoch : Nat) (x : Die) (b : Blk) : Nat :=
  64 * ageBucket (epoch - b.minute) + 8 * tempBucket (b.temp.toInt - x.temp.toInt) + wearBucket b.wear

/-- Whether a die runs nothing and nothing waits on it, so that a write may start and end (R330). -/
def Die.idle (x : Die) : Bool := x.reading.isNone && x.reads.isEmpty && x.writing.isNone && x.writes.isEmpty

/-- A die's array read begins (R327, R338): it takes the offsets of its ledger entry; RDMAX counts its wait, with `late` ns of suspend latency. -/
def State.issueRead (s : State) (d : Nat) (r : DieRead) (rest : List DieRead) (late : Nat) : State :=
  let x := s.die d
  let i := ledgerIndex s.time.epoch.toNat x (x.blk r.block)
  let wait := s.time.now.toNat + late - r.at_
  (s.setDie d { x with reading := some r, reads := rest, entry := some (i, s.media.ledger.rdBytes (16 * i) 16) }).updChan d (fun c => { c with
    reads := c.reads + 1, rdmax := BitVec.ofNat 32 (Nat.max c.rdmax.toNat (Nat.min wait 0xFFFFFFFF)) })

/-- A stage has halted: from then on nothing is written to flash (R443). -/
def State.mute (s : State) : Bool :=
  match s.boot.phase with
  | .halted _ => true
  | _ => false

/-- Starts what the die may run next (R330, R331, R443): the oldest read when no write runs or the write is suspended with
its window open, else the oldest write. The first read of a window waits for the suspend latency (R328, log entry 174). -/
def State.startDie (s : State) (d : Nat) : State :=
  let x := s.die d
  if x.failed || x.reading.isSome then s
  else match x.reads, x.writing with
  | r :: rs, none => s.issueRead d r rs 0
  | r :: rs, some _ =>
    if x.suspended && decide (x.served < 8) then
      let (n, t) := s.draw
      if x.served = 0 then t.issueRead d r rs (Config.suspendLatency n % 20001) else s.issueRead d r rs 0
    else s
  | [], none => match x.writes with
    | [] => s
    | w :: ws =>
      if s.mute then s
      else (s.setDie d { x with writing := some w, writes := ws, wStart := s.time.now.toNat, wLeft := x.runTime w,
                                suspended := false, suspendAt := none }).updChan d
        (fun c => if w.erase then { c with erases := c.erases + 1 } else { c with progs := c.progs + 1 })
  | [], some _ => s

/-- Puts a write in a die's queue and starts it when it may (R330). -/
def State.queueWrite (s : State) (d : Nat) (w : DieWrite) : State :=
  (s.updDie d (fun x => { x with writes := x.writes ++ [w] })).startDie d

/-- The instant at which a read that arrived at `t` lets the running write be suspended; none when the write completes
first (R331). -/
def Die.suspendTime (x : Die) (t : Nat) : Option Nat :=
  match x.writing with
  | none => none
  | some w =>
    let ts := Nat.max t (x.wStart + minRun w)
    if x.wStart + x.wLeft < ts + us 20 then none else some ts

/-- A read of the drive's own reaches a die (R331): a running write is suspended for it as for any other. -/
def Die.wantsRead (x : Die) (t : Nat) : Die :=
  if x.writing.isSome && !x.suspended && x.suspendAt.isNone then { x with suspendAt := x.suspendTime t } else x

/-! ## Serving media primitives (R164 to R167, R346, R347) -/

/-- Writes of a die that concern a position, queued or running. -/
def Die.pendingAt (x : Die) (p : Nat) (f : DieWrite → Bool) : Bool :=
  (x.writes ++ x.writing.toList).any (fun w => w.pos == p && f w)

/-- Whether a window move copies the block at a position: what reaches it waits (R167, R346). -/
def State.movesBlock (s : State) (d p : Nat) : Bool := s.media.move.any (fun m => m.die == d && m.src == p)

/-- Reads of units of a block for the drive itself join the die's queue (R330, R347, R351). -/
def State.driveReads (s : State) (d p : Nat) (units : List Nat) : State :=
  let x := s.die d
  let rs := units.map (fun u => (⟨p, u, (x.blk p).qlc, s.time.now.toNat, .drive⟩ : DieRead))
  if x.failed || rs.isEmpty then s else (s.setDie d ({ x with reads := x.reads ++ rs }.wantsRead s.time.now.toNat)).startDie d

/-- Whether the job of an operation is bound to an extent. -/
def State.ownsExtent (s : State) (job : Nat) (h : W32) : Bool :=
  match s.job? job with
  | none => false
  | some j => (j.named h) == some h

/-- The bytes of sectors of a unit of an extent. -/
def Extent.sectors (e : Extent) (block page first n : Nat) : List Byte := e.data.rdBytes (unitAt block page + 2048 * first) (2048 * n)

/-- Serves an FREAD (R163, R164, R166, R167); none when it waits. -/
def State.serveFread (s : State) (op : RecOp) (h : W32) (block page first count addr : Nat) : Option State :=
  match s.extent? h with
  | none => some (s.setOutcome op.id stMediaNotOwned 0)
  | some e =>
    let (d, p) := s.extentAt e block
    let b := (s.die d).blk p
    if !s.ownsExtent op.job h || decide (e.blocks ≤ block) then some (s.setOutcome op.id stMediaNotOwned 0)
    else if b.check || s.movesBlock d p then none
    else if b.wp ≤ page then some (s.setOutcome op.id stOutOfRange 0)
    else if e.held.contains (2048 * block + page) then
      some ((s.sramWrite op.tile addr (e.sectors block page first count)).setOutcome op.id stOk (BitVec.ofNat 64 count))
    else if b.wp - b.running ≤ page then none
    else if (s.die d).failed then some (s.setOutcome op.id stMediaUncorrectable 0)
    else some (s.markRead op.id (e.sectors block page first count))

/-- The refusals that FPROG and FERASE share (R164). -/
def State.mediaRefusal (s : State) (op : RecOp) (h : W32) (block : Nat) : Option W16 :=
  match s.extent? h with
  | none => some stMediaNotOwned
  | some e =>
    if !(op.orphan || s.ownsExtent op.job h) || decide (e.blocks ≤ block) || s.ftl.readOnly then some stMediaNotOwned
    else if s.blockSealed h block then some stObjectSealed else none

/-- QLC units of extents that the write buffer holds (R166). -/
def State.heldUnits (s : State) : Nat := (s.media.extents.map (fun (_, e) => e.held.length)).foldl (· + ·) 0

/-- The slots of the write buffer that may be used: 256 while the hold-up bank is measured (R479). -/
def State.slotsUsable (s : State) : Nat := if s.pwr.measuring then Nat.min 256 s.ftl.slots else s.ftl.slots

/-- The slots free in the write buffer: a held unit of an extent takes one too (R166, R361). -/
def State.slotsFree (s : State) : Nat := s.slotsUsable - s.ftl.buf.length - s.heldUnits

/-- The check after a refusal is queued (R347): a read at the write pointer, and one past each unit that holds data, up to the block's end. -/
def State.queueCheck (s : State) (d p : Nat) : State :=
  let b := (s.die d).blk p
  (s.updBlk d p (fun b => { b with check := true })).driveReads d p ((List.range (Nat.min (b.cut + 1) (blockUnits b.qlc - b.wp))).map (b.wp + ·))

/-- Serves an FPROG (R164, R166, R167); none when it waits, in QLC also while the write buffer is full (R361). The unit's data is read from tile SRAM as it is accepted. -/
def State.serveFprog (s : State) (op : RecOp) (h : W32) (block page addr : Nat) : Option State :=
  match s.mediaRefusal op h block, s.extent? h with
  | some c, _ => some (s.setOutcome op.id c 0)
  | none, none => some s
  | none, some e =>
    let (d, p) := s.extentAt e block
    let x := s.die d
    let b := x.blk p
    if b.check || b.erasing || s.movesBlock d p then none
    else if x.failed then some (s.setOutcome op.id stMediaProgramFail 0)
    else if !b.erased || page != b.wp then some ((s.queueCheck d p).setOutcome op.id stMediaNotErased 0)
    else if e.qlc && s.slotsFree == 0 then none
    else
      let bytes := if op.orphan then op.got else (s.tile op.tile).sram.rdBytes addr 65536
      let s := s.updBlk d p (fun b => { b with
        wp := b.wp + 1, running := if e.qlc then b.running else b.running + 1 })
      let s := s.updExtent h (fun e => { e with data := e.data.wrBytes (unitAt block page) bytes,
                                                held := if e.qlc then e.held ++ [2048 * block + page] else e.held,
                                                writers := if e.qlc then put (2048 * block + page) (4 * op.tile + op.core, op.id) e.writers else e.writers })
      if e.qlc then some (s.setOutcome op.id stOk 0)
      else some ((s.markServed op.id).queueWrite d ⟨p, false, false, .fprog op.id⟩)

/-- Serves an FERASE (R164, R166, R167, R346); none when it waits. -/
def State.serveFerase (s : State) (op : RecOp) (h : W32) (block : Nat) : Option State :=
  match s.mediaRefusal op h block, s.extent? h with
  | some c, _ => some (s.setOutcome op.id c 0)
  | none, none => some s
  | none, some e =>
    let (d, p) := s.extentAt e block
    let x := s.die d
    let b := x.blk p
    let drop (e : Extent) : Extent := { e with held := e.held.filter (fun u => u / 2048 != block), writers := e.writers.filter (fun w => w.1 / 2048 != block) }
    if b.check || b.running != 0 || x.pendingAt p (fun w => !w.erase) || b.erasing || s.movesBlock d p then none
    else if x.failed then some ((s.updExtent h drop).setOutcome op.id stMediaEraseFail 0)
    else
      let s := (s.updExtent h drop).updBlk d p (fun b => { b with erased := false, wp := 0, erasing := true, cut := 0 })
      some ((s.markServed op.id).queueWrite d ⟨p, true, e.qlc, .ferase op.id⟩)

/-- Serves an FSTAT (R163, R347); none when it waits. -/
def State.serveFstat (s : State) (op : RecOp) (h : W32) (block : Nat) : Option State :=
  match s.extent? h with
  | none => some (s.setOutcome op.id stMediaNotOwned 0)
  | some e =>
    let (d, p) := s.extentAt e block
    let b := (s.die d).blk p
    if !s.ownsExtent op.job h || decide (e.blocks ≤ block) then some (s.setOutcome op.id stMediaNotOwned 0)
    else if b.check || s.movesBlock d p then none
    else some (s.setOutcome op.id stOk (BitVec.ofNat 32 b.wear ++ (0 : BitVec 18) ++ BitVec.ofBool b.replaced ++ BitVec.ofBool b.erased ++ BitVec.ofNat 12 b.wp))

/-- Whether a complete QLC word line of an extent, with a unit that an FPROG of this core before operation `id` wrote, is held and not yet on flash
(R163, R166); on a failed die it never will be. -/
def State.linesHeld (s : State) (e : Extent) (core id : Nat) : Bool :=
  e.held.any (fun u =>
    (match find u e.writers with
     | some (c, w) => c == core && decide (w < id)
     | none => false) &&
    [0, 1, 2, 3].all (fun i => e.held.contains (4 * (u / 4) + i)) && !(s.die (dieOfBlock (u / 2048))).failed)

/-- Serves an FSYNC (R163): when every earlier FPROG of the core into the extent is on flash, or held in a word line that is not complete. -/
def State.serveFsync (s : State) (op : RecOp) (h : W32) (block : Nat) : Option State :=
  match s.extent? h with
  | none => some (s.setOutcome op.id stMediaNotOwned 0)
  | some e =>
    if !s.ownsExtent op.job h || decide (e.blocks ≤ block) then some (s.setOutcome op.id stMediaNotOwned 0)
    else if s.host.recs.any (fun r => decide (r.id < op.id) && r.tile == op.tile && r.core == op.core && r.outcome.isNone &&
        (match r.kind with
         | .fprog x _ _ _ => x == h
         | _ => false)) then none
    else if s.linesHeld e (4 * op.tile + op.core) op.id then none
    else some (s.setOutcome op.id stOk (BitVec.ofNat 64 e.held.length))

/-- Serves one media primitive; none when it waits. -/
def State.serveOne (s : State) (op : RecOp) : Option State :=
  match op.kind with
  | .fread h b p f n a => s.serveFread op h b p f n a
  | .fprog h b p a => s.serveFprog op h b p a
  | .ferase h b => s.serveFerase op h b
  | .fstat h b => s.serveFstat op h b
  | .fsync h b => s.serveFsync op h b
  | _ => none

/-- The block that a media primitive touches. -/
def RecKind.block : RecKind → Option (W32 × Nat)
  | .fread h b _ _ _ _ => some (h, b)
  | .fprog h b _ _ => some (h, b)
  | .ferase h b => some (h, b)
  | .fstat h b => some (h, b)
  | _ => none

/-- A served primitive of a job that has stopped is kept no longer. -/
def State.doneIssued (s : State) (op : RecOp) : State :=
  if op.orphan then { s with host := { s.host with issued := s.host.issued.filter (fun r => r.id != op.id) } } else s

/-- Serves the waiting primitives in order of receipt (R167): one that waits holds back those behind it on its block. -/
def State.serveFrom (s : State) (held : List (W32 × Nat)) : List RecOp → State
  | [] => s
  | op :: ops =>
    if op.served || op.outcome.isSome then s.serveFrom held ops
    else match op.kind.block with
      | some b => if held.contains b then s.serveFrom held ops
        else (match s.serveOne op with
          | some s' => (s'.doneIssued op).serveFrom held ops
          | none => s.serveFrom (b :: held) ops)
      | none => match s.serveOne op with
        | some s' => s'.serveFrom held ops
        | none => s.serveFrom held ops

/-- Serves every media primitive that can be served now. -/
def State.serveMedia (s : State) : State :=
  s.serveFrom [] (if s.host.issued.isEmpty then s.host.recs else (s.host.recs ++ s.host.issued).mergeSort (fun a b => a.id ≤ b.id))

/-- Programs and erases of records that go away, which their channel controller has received, stay and are done on flash (R167): their data as it
lies now. -/
def State.keepIssued (s : State) (f : RecOp → Bool) : State :=
  let left := s.host.recs.filterMap (fun r =>
    if !f r || r.served || r.outcome.isSome then none
    else match r.kind with
      | .fprog h _ _ a => if s.ownsExtent r.job h then some { r with orphan := true, got := (s.tile r.tile).sram.rdBytes a 65536 } else none
      | .ferase h _ => if s.ownsExtent r.job h then some { r with orphan := true } else none
      | _ => none)
  { s with host := { s.host with recs := s.host.recs.filter (fun r => !f r), issued := s.host.issued ++ left } }

/-! ## Ends of die operations -/

/-- The record operations whose programs wait behind a failed one at a position: their queue entries leave. -/
def Die.fprogsAt (x : Die) (p : Nat) : List Nat :=
  x.writes.filterMap (fun w => match w.serves with
    | .fprog op => if w.pos = p then some op else none
    | _ => none)

/-- Sets the outcome of several operations. -/
def State.setOutcomes (s : State) (code : W16) : List Nat → State
  | [] => s
  | i :: is => (s.setOutcome i code 0).setOutcomes code is

/-- The spare of a position takes its first program when units are copied into it (R326). -/
def State.dateBlock (s : State) (d p : Nat) : State :=
  s.updBlk d p (fun b => { b with minute := s.time.epoch.toNat, temp := (s.die d).temp })

/-- Copies the written units below a failing position into the spare: ordinary reads and programs (R165). -/
def State.copyBelow (s : State) (d units progs : Nat) : State :=
  s.updChan d (fun c => { c with reads := c.reads + BitVec.ofNat 64 units, progs := c.progs + BitVec.ofNat 64 progs })

/-- A pSLC FPROG's program has ended (R165, R167); the first of its block dates it (R326). -/
def State.fprogEnds (s : State) (d p op : Nat) (pass : Bool) : State :=
  if pass then
    let b := (s.die d).blk p
    let s := if b.wp = b.running then s.dateBlock d p else s
    (s.updBlk d p (fun b => { b with running := b.running - 1 })).setOutcome op stOk 0
  else
    let x := s.die d
    let b := x.blk p
    let behind := x.fprogsAt p
    let at_ := b.wp - b.running
    let s := s.setDie d { x with writes := x.writes.filter (fun w => !(w.pos == p && (match w.serves with
      | .fprog _ => true
      | _ => false))) }
    let s := ((s.retire d p).copyBelow d at_ at_).dateBlock d p
    let s := s.updBlk d p (fun b => { b with wp := at_, running := 0 })
    (s.setOutcome op stMediaProgramFail 0).setOutcomes stMediaProgramFail behind

/-- An FERASE's erase has ended (R163, R165, R325). -/
def State.feraseEnds (s : State) (d p op : Nat) (qlc pass : Bool) : State :=
  let s := { s with media := { s.media with sinceMove := s.media.sinceMove + 1 } }
  let done (b : Blk) : Blk := { b with erased := true, erasing := false, wp := 0, qlc := qlc, stopped := false, refresh := false, cut := 0 }
  if pass then
    let s := s.updBlk d p (fun b => { done b with wear := b.wear + eraseWear qlc })
    s.setOutcome op stOk (BitVec.ofNat 64 ((s.die d).blk p).wear)
  else ((s.retire d p).updBlk d p done).setOutcome op stMediaEraseFail 0

/-- A QLC word line of an extent has ended (R166); the first of its block dates it (R326). -/
def State.lineEnds (s : State) (d p h block line : Nat) (pass : Bool) : State :=
  if pass then
    let held := ((s.extent? (BitVec.ofNat 32 h)).map (fun e => e.held.countP (fun u => u / 2048 == block))).getD 0
    let s := if held = ((s.die d).blk p).wp then s.dateBlock d p else s
    s.updExtent (BitVec.ofNat 32 h) (fun e => { e with
      held := e.held.filter (fun u => u / 4 != 512 * block + line), writers := e.writers.filter (fun w => w.1 / 4 != 512 * block + line) })
  else
    let s := ((s.retire d p).copyBelow d (4 * line) line).dateBlock d p
    s.queueWrite d ⟨p, false, true, .line h block line⟩

/-- An erase that no primitive asked for has ended (R325, R334, R348): the block is erased in its mode. -/
def State.erasedAgain (s : State) (d : Nat) (w : DieWrite) (pass : Bool) : State :=
  let s := { s with media := { s.media with sinceMove := s.media.sinceMove + 1 } }
  let s := if pass then s.updBlk d w.pos (fun b => { b with wear := b.wear + eraseWear w.qlc }) else s.retire d w.pos
  s.updBlk d w.pos (fun b => { b with erased := true, erasing := false, wp := 0, qlc := w.qlc, stopped := false, refresh := false, cut := 0 })

/-- Whether a position of a die is taken by an extent block, its own or of Rinsis. -/
def Die.taken (x : Die) (p : Nat) : Bool := x.slots.any (fun (j, v) => v.isSome && x.ringPos j == p)

/-- An extent whose allocation ends without it gives its blocks back: the window positions are empty, and free when their erases end. -/
def State.dropAllot (s : State) (h : Nat) (e : Extent) : State :=
  (List.range e.blocks).foldl (fun s i =>
    let d := dieOfBlock i
    let j := (e.slots[i]?).getD 0
    (s.updBlk d ((s.die d).ringPos j) (fun b => { b with use := .free })).updDie d (fun x => { x with slots := put j none x.slots }))
    { s with media := { s.media with extents := remove h s.media.extents } }

/-- The EXTENT ALLOCATEs whose blocks are all erased complete (R415); one with a block on a die that has failed meanwhile gives its blocks back and
completes with TIER_FULL (log entry 203). -/
def State.endAllots (s : State) : State :=
  s.media.extents.foldl (fun s (h, e) => match e.waits with
    | none => s
    | some c =>
      let at_ := (List.range e.blocks).map (fun i => ((dieOfBlock i), (e.slots[i]?).getD 0))
      if at_.any (fun (d, _) => (s.die d).failed) then (s.dropAllot h e).failSt c stTierFull
      else if at_.any (fun (d, j) => ((s.die d).blk ((s.die d).ringPos j)).erasing) then s
      else ({ s with media := { s.media with extents := put h { e with waits := none } s.media.extents } }).ok c (BitVec.ofNat 32 h)) s

/-- EXTENT ALLOCATEs that a reset ends do so without a completion, and give their blocks back (R415, R473). -/
def State.dropAllots (s : State) (of_ : HostCmd → Bool) : State :=
  s.media.extents.foldl (fun s (h, e) => match e.waits with
    | none => s
    | some c => if of_ c then s.dropAllot h e else s) s

/-- The bucket tests of R377 that call for a refresh: age bucket 6 or more, or temperature bucket 0 or 7. -/
def refreshDue (s : State) (x : Die) (b : Blk) : Bool :=
  let dt := b.temp.toInt - x.temp.toInt
  decide (b.wp ≠ 0) && (decide (6 ≤ ageBucket (s.time.epoch.toNat - b.minute)) || tempBucket dt == 0 || tempBucket dt == 7)

/-- What a deep retry, age or temperature of a read calls for (R377): a refresh of a block of the translation layer or of Rinsis,
REFRESH_DUE for a block of a program-owned extent. -/
def State.noteRefresh (s : State) (d p : Nat) (deep : Bool) : State :=
  let x := s.die d
  let b := x.blk p
  if deep || refreshDue s x b then
    match b.use with
    | .open_ => s.updBlk d p (fun b => { b with refresh := true })
    | .closed => s.updBlk d p (fun b => { b with refresh := true })
    | .sealed => s.updBlk d p (fun b => { b with refresh := true })
    | .extent _ _ => s.stamp (srcChannel (d / 16)) 0x6B (dieDetail d ++ (0 : BitVec 7) ++ BitVec.ofNat 12 p)
    | _ => s
  else s

/-- The blocks whose age has entered bucket 6 of R338 since an epoch minute: die and position (R377). -/
def State.aged (s : State) (since : Nat) : List (Nat × Nat) :=
  s.media.dies.flatMap (fun (d, x) => if x.failed then []
    else (x.blocks.filter (fun (_, b) => b.wp != 0 && decide (since - b.minute < 259200) && decide (259200 ≤ s.time.epoch.toNat - b.minute))).map
      (fun (p, _) => (d, p)))

/-- The age of those blocks calls for a refresh, or REFRESH_DUE (R377). -/
def State.ageBlocks (s : State) (since : Nat) : State := (s.aged since).foldl (fun s (d, p) => s.noteRefresh d p false) s

/-- Four held units of a word line of an extent go to the die (R166). -/
def State.queueLine (s : State) (ext : W32) (block line : Nat) : State :=
  match s.extent? ext with
  | none => s
  | some e =>
    let (d, p) := s.extentAt e block
    let x := s.die d
    if x.failed || s.movesBlock d p || !([0, 1, 2, 3].all (fun i => e.held.contains (2048 * block + 4 * line + i))) ||
        x.pendingAt p (fun w => w.serves == .line ext.toNat block line) then s
    else s.queueWrite d ⟨p, false, true, .line ext.toNat block line⟩

/-- QLC_WORD_LINE_PROGRAM (R166): a complete word line goes to the die. -/
def execQlcWordLineProgram (ext : W32) (block line : Nat) (s : State) : Out := .next (s.queueLine ext block line)

/-- Every word line of an extent whose four units are held goes to its die (R374 step 6). -/
def State.queueLines (s : State) : State :=
  s.media.extents.foldl (fun s (h, e) => (e.held.filter (fun u => u % 4 == 0)).foldl (fun s u =>
    s.queueLine (BitVec.ofNat 32 h) (u / 2048) (u % 2048 / 4)) s) s

/-- MEDIA_CHECK (R330, R331, R347): once its reads are done, the queued check advances the pointer past units that hold data. -/
def execMediaCheck (ext : W32) (block : Nat) (s : State) : Out :=
  .next (match s.extent? ext with
  | none => s
  | some e =>
    let (d, p) := s.extentAt e block
    let b := (s.die d).blk p
    if !b.check || (s.die d).reading.isSome || !(s.die d).reads.isEmpty || ((s.die d).writing.isSome && !(s.die d).suspended) then s
    else if (s.die d).failed then (s.updBlk d p (fun b => { b with check := false })).serveMedia
    else
      let wp := Nat.min (b.wp + b.cut) (blockUnits e.qlc)
      let s := s.updBlk d p (fun b => { b with wp := wp, cut := 0, check := false })
      (s.stamp (srcChannel (d / 16)) 0x63 (dieDetail d ++ (0 : BitVec 7) ++ BitVec.ofNat 12 wp)).serveMedia)

/-! ## Media primitives at issue (R162, R163) -/

/-- How a media primitive is encoded. -/
def opMedia (minor : Nat) (imm : W32) : Op :=
  { major := 0x28, minor := minor, a := .s, b := .s, imm := imm, refusable := true, accept := .core }

/-- A media primitive at issue: its operands (R162, R163, R501), then its channel controller receives it. `n` bytes of
SRAM from the data address are its range; `kind` makes it from extent, block, page and address. -/
def mediaAct (ag : Agent) (w : IWord) (n : Nat) (bad : Nat → Bool) (kind : W32 → Nat → Nat → Nat → RecKind) (now : Bool) (s : State) : Act :=
  match ag with
  | .ctx _ _ => .hold
  | .core t c =>
    let r := s.regs ag
    let a := r.rs w.srcA
    let b := r.rs w.srcB
    let page := a.toNat % 2048
    let block := a.toNat / 2048 % 2097152
    let ext := hi32 a
    let addr := (lo32 b).toNat
    match recOperand (hi32 b) with
    | none => .refuse stInvalidOperand
    | some rec =>
      let limit := match s.extent? ext with
        | some e => blockUnits e.qlc
        | none => 2048
      if addr % 1024 ≠ 0 ∨ (n ≠ 0 ∧ !inSram addr n) ∨ limit ≤ page ∨ bad page then .refuse stInvalidOperand
      else if now then .async (s.addRec t c w rec (kind ext block page addr) (some (stOk, 0)))
      else .async ((s.addRec t c w rec (kind ext block page addr) none).serveMedia)

/-- FREAD (R163): COUNT 0 completes at once. -/
def execFread (ag : Agent) (w : IWord) (s : State) : Out :=
  let first := w.imm.toNat / 64 % 32
  let count := w.imm.toNat % 64
  .next (s.issue (opMedia 0x00 0x7FF) ag w (mediaAct ag w (2048 * count) (fun _ => decide (32 < first + count))
    (fun e b p a => .fread e b p first count a) (count == 0)))

/-- FPROG (R163). -/
def execFprog (ag : Agent) (w : IWord) (s : State) : Out :=
  .next (s.issue (opMedia 0x01 0) ag w (mediaAct ag w 65536 (fun _ => false) (fun e b p a => .fprog e b p a) false))

/-- FERASE (R163): PAGE must be 0. -/
def execFerase (ag : Agent) (w : IWord) (s : State) : Out :=
  .next (s.issue (opMedia 0x02 0) ag w (mediaAct ag w 0 (fun p => p != 0) (fun e b _ _ => .ferase e b) false))

/-- FSYNC (R163). -/
def execFsync (ag : Agent) (w : IWord) (s : State) : Out :=
  .next (s.issue (opMedia 0x03 0) ag w (mediaAct ag w 0 (fun _ => false) (fun e b _ _ => .fsync e b) false))

/-- FSTAT (R163). -/
def execFstat (ag : Agent) (w : IWord) (s : State) : Out :=
  .next (s.issue (opMedia 0x04 0) ag w (mediaAct ag w 0 (fun _ => false) (fun e b _ _ => .fstat e b) false))

end Sys2Proof.Machine
end

