-- ==== Sys2Proof/Machine/Capacity.lean ====
section
/-! DEFINITION. The user capacity that namespaces and sealed extents share, and the units of Rinsis that are live (12 R355; 08 R236). -/
namespace Sys2Proof.Machine

/-- Whether a unit that a block of Rinsis holds is live: its object is in the directory and has it here. -/
def State.unitLive (s : State) (k page : Nat) (x : Nat × Nat × Nat) : Bool :=
  x.1 != 0 && (((s.obj? (BitVec.ofNat 32 x.1)).bind (fun o => o.f)).bind (fun f => f.place? x.2.1 x.2.2)) == some (2048 * k + page)

/-- The live units of a block of Rinsis. -/
def State.liveUnits (s : State) (k : Nat) : Nat :=
  ((find k s.media.sealBlocks).map (fun b => b.units.zipIdx.countP (fun (x, i) => s.unitLive k i x))).getD 0

/-- Whether a block of Rinsis is charged: nothing has been written in it, or a unit of it is live. -/
def State.blockCharged (s : State) (k : Nat) (b : SealBlock) : Bool := b.units.isEmpty || s.liveUnits k != 0

/-- Units that namespaces and the blocks of sealed extents, Rinsis's among them, hold of the user capacity (R355): 2,048 for each block, whatever
its mode (log entry 185). -/
def State.usedUnits (s : State) : Nat :=
  (s.ftl.spaces.map (fun (_, n) => if n.big then n.size else ceilDiv n.size 16)).foldl (· + ·) 0 +
  (s.media.extents.map (fun (_, e) => 2048 * e.blocks)).foldl (· + ·) 0 +
  2048 * s.media.sealBlocks.countP (fun (k, b) => s.blockCharged k b)

end Sys2Proof.Machine
end

