-- ==== Sys2Proof/Machine/Ftl.lean ====
section
/-! DEFINITION. The translation layer and the mapped namespaces (12 R353 to R382; 13 R391, R392, R409, R410;
11 R349, R350). -/
namespace Sys2Proof.Machine

/-! ## Headers (R357 to R360) -/

/-- The code of a unit's KIND (R359). -/
def UnitKind.code : UnitKind → Byte
  | .data => 1
  | .trim => 2
  | .partial_ => 3
  | .summary => 4
  | .system => 5

/-- The 32-byte header of a unit (R358). -/
def FUnit.header (u : FUnit) : List Byte :=
  let b := leBytes 4 u.lua ++ leBytes 2 u.nsx ++ leBytes 6 u.seq ++ leBytes 2 u.gen ++ leBytes 4 u.minute ++ [u.temp, u.kind.code] ++
    leBytes 2 u.lost.toNat ++ leBytes 2 (if u.kind = .partial_ then u.valid.toNat else 0) ++ leBytes 4 0
  b ++ leBytes 4 (crc32c b).toNat

/-- The 32-byte tag of a block (R357), ring position and die as 4,096 × die + position (log entry 204). -/
def Blk.tag (b : Blk) (d p : Nat) : List Byte :=
  leBytes 4 (4096 * d + p) ++ leBytes 6 b.lowSeq ++ leBytes 4 b.minute ++ [b.temp, if b.qlc then 1 else 0] ++ leBytes 16 0

/-- The 256 metadata bytes of a unit's sectors (R357): its header twice, and the tag of its block. -/
def FUnit.metadata (u : FUnit) (tag : List Byte) : List Byte := u.header ++ u.header ++ tag ++ List.replicate 160 0

/-- The valid header in a unit's metadata (R357): that of a copy which passes its CRC; none when neither passes, or when both pass and differ. -/
def readHeader (m : List Byte) : Option (List Byte) :=
  let one (b : List Byte) : Option (List Byte) := if b.drop 28 = leBytes 4 (crc32c (b.take 28)).toNat then some b else none
  match one (m.take 32), one ((m.drop 32).take 32) with
  | some x, some y => if x = y then some x else none
  | some x, none => some x
  | none, y => y

/-- The 16 bytes of a trim entry (R365). -/
def Trim.bytes (t : Trim) : List Byte := leBytes 4 t.lua ++ leBytes 4 t.count ++ leBytes 2 t.nsx ++ leBytes 6 t.seq

/-- The data of a unit on flash: a TRIM unit holds its entries (R359, R365). -/
def FUnit.content (u : FUnit) : Mem := if u.kind = .trim then memOf (u.trims.flatMap Trim.bytes) else u.data

/-! ## The map and the units -/

/-- The map key of a unit. -/
def mapKey (nsx lua : Nat) : Nat := 4294967296 * nsx + lua
/-- The map entry of a unit (R354): unmapped when there is none. -/
def State.mapEnt (s : State) (nsx lua : Nat) : MapEnt := getD ⟨0, 0⟩ s.ftl.map (mapKey nsx lua)
/-- Writes a map entry. -/
def State.setMap (s : State) (nsx lua : Nat) (e : MapEnt) : State :=
  { s with ftl := { s.ftl with map := putD ⟨0, 0⟩ s.ftl.map (mapKey nsx lua) e } }

/-- Die, ring position and unit of a physical unit address (R354). -/
def puaDie (a : Nat) : Nat := a / 8388608
def puaPos (a : Nat) : Nat := a / 2048 % 4096
def puaUnit (a : Nat) : Nat := a % 2048
/-- The physical unit address of a unit. -/
def puaOf (d p u : Nat) : Nat := 8388608 * d + 2048 * p + u

/-- What a unit reads as: its bytes, its lost slots (R364), and the slots whose flash copy does not read (R381). -/
structure UView where
  data : Mem
  lost : W16
  bad : W16
  deriving DecidableEq, Repr

/-- The flash unit that a map entry names. -/
def State.flashView (s : State) (e : MapEnt) : UView :=
  if e.state = 1 ∨ e.state = 3 then
    match find e.at_ s.ftl.units with
    | none => ⟨[], 0, 0⟩
    | some u => if (s.die (puaDie e.at_)).failed || s.ftl.bad.contains e.at_ then ⟨[], 0, 0xFFFF⟩ else ⟨u.data, u.lost, 0⟩
  else ⟨[], 0, 0⟩

/-- Copies the slots of a mask from one unit's bytes over another's. -/
def overSlots (mask : W16) (src dst : Mem) : Mem :=
  (List.range 16).foldl (fun m i => if mask.getLsbD i then m.wrBytes (4096 * i) (src.rdBytes (4096 * i) 4096) else m) dst

/-- What a buffered unit reads as: the slots it holds, over its flash copy (R361, R363). -/
def State.bufView (s : State) (u : FUnit) : UView :=
  if u.valid = 0xFFFF then ⟨u.data, u.lost, 0⟩
  else
    let f := s.flashView u.old
    ⟨overSlots u.valid u.data f.data, u.lost ||| (f.lost &&& ~~~ u.valid), f.bad &&& ~~~ u.valid⟩

/-- What a unit of a mapped namespace reads as (R354, R361). -/
def State.unitView (s : State) (nsx lua : Nat) : UView :=
  let e := s.mapEnt nsx lua
  if e.state = 2 then (match find e.at_ s.ftl.buf with
    | some u => s.bufView u
    | none => ⟨[], 0, 0⟩)
  else s.flashView e

/-- Bytes of a logical block; none when the block is lost or does not read (R364, R381), or the media key is not bound (R437). -/
def State.readBlock (s : State) (n : Nspace) (lba : Nat) : Option (List Byte) :=
  if !s.sec.mbk then none
  else if n.big then
    let v := s.unitView n.nsx lba
    if v.lost ≠ 0 ∨ v.bad ≠ 0 then none else some (v.data.rdBytes 0 65536)
  else
    let v := s.unitView n.nsx (lba / 16)
    if v.lost.getLsbD (lba % 16) || v.bad.getLsbD (lba % 16) then none else some (v.data.rdBytes (4096 * (lba % 16)) 4096)

/-- Bytes of a logical block of a namespace. -/
def Nspace.blockBytes (n : Nspace) : Nat := if n.big then 65536 else 4096
/-- Units of a namespace (R355). -/
def Nspace.units (n : Nspace) : Nat := if n.big then n.size else ceilDiv n.size 16
/-- A mapped namespace by its NSID. -/
def State.space? (s : State) (nsid : W32) : Option Nspace := find nsid.toNat s.ftl.spaces

/-! ## The buffer -/

/-- The lowest free slot of the write buffer (R361); which free slot a unit takes is a DESIGN CHOICE, log entry 29. -/
def State.freeSlot (s : State) : Option Nat := (List.range s.slotsUsable).find? (fun i => (find i s.ftl.buf).isNone)

/-- Whether host write data of `n` new slots may enter the buffer (R361, R366, R479): there is room, no more slots are in use than may be, and below 2,048 free blocks collection has freed
as much (log entry 181). -/
def State.roomFor (s : State) (n : Nat) : Bool := decide (n ≤ s.slotsFree) && decide (s.ftl.buf.length + s.heldUnits ≤ s.slotsUsable) && (decide (2048 ≤ s.freeBlocks) || decide (n ≤ s.ftl.credit))

/-- Host write data of `n` new slots is let in (R366). -/
def State.takeCredit (s : State) (n : Nat) : State :=
  if 2048 ≤ s.freeBlocks then s else { s with ftl := { s.ftl with credit := s.ftl.credit - n } }

/-- The next host-write sequence value (R356). -/
def State.nextSeq (s : State) : Nat × State := (s.ftl.seq + 1, { s with ftl := { s.ftl with seq := s.ftl.seq + 1, clean := false } })

/-- Writes slots `first` to `first + n − 1` of a unit into the buffer (R356, R361, R363): the image takes the next sequence
value, keeps the slots it has, and its written slots are no longer lost. -/
def State.bufWrite (s : State) (tag : Option (Fin 33 × W16 × W16)) (nsx lua first : Nat) (bytes : List Byte) : State :=
  let n := bytes.length / 4096
  let mask : W16 := BitVec.ofNat 16 ((2 ^ n - 1) * 2 ^ first)
  let (seq, s) := s.nextSeq
  let e := s.mapEnt nsx lua
  let upd (u : FUnit) : FUnit := { u with seq := seq, valid := u.valid ||| mask, lost := u.lost &&& ~~~ mask, gen := 0, tag := tag,
                                          data := u.data.wrBytes (4096 * first) bytes }
  let new : FUnit := { kind := .data, nsx := nsx, lua := lua, seq := seq, valid := 0, old := e }
  match (if e.state = 2 then (find e.at_ s.ftl.buf).map (fun u => (e.at_, u)) else none) with
  | some (i, u) => { s with ftl := { s.ftl with buf := put i (upd u) s.ftl.buf } }
  | none => match s.freeSlot with
    | none => s
    | some i => ({ s with ftl := { s.ftl with buf := put i (upd new) s.ftl.buf } }).setMap nsx lua ⟨2, i⟩

/-- Entries that one TRIM unit holds (R359). -/
def trimCap : Nat := 4096

/-- Adds a trim entry to the buffer (R365): into the buffered TRIM unit that has room, else into a new slot; the units' map
entries become unmapped. -/
def State.addTrim (s : State) (nsx lua count : Nat) : State :=
  let (seq, s) := s.nextSeq
  let t : Trim := ⟨nsx, lua, count, seq⟩
  let m := s.ftl.map.filter (fun (k, _) => !(decide (mapKey nsx lua ≤ k) && decide (k < mapKey nsx lua + count)))
  let s := { s with ftl := { s.ftl with map := m } }
  match s.ftl.buf.find? (fun (_, u) => u.kind == .trim && decide (u.trims.length < trimCap)) with
  | some (i, u) => { s with ftl := { s.ftl with buf := put i { u with trims := u.trims ++ [t], seq := seq } s.ftl.buf } }
  | none => match s.freeSlot with
    | none => s
    | some i =>
      let u : FUnit := { kind := .trim, nsx := 0, lua := 0, seq := seq, trims := [t] }
      { s with ftl := { s.ftl with buf := put i u s.ftl.buf } }

/-- Whether a trim entry of sequence `seq` stays live (R372). -/
def State.trimLive (s : State) (seq : Nat) : Bool :=
  s.media.dies.any (fun (_, x) => x.blocks.any (fun (_, b) => (b.use == .open_ || b.use == .closed) && b.wp != 0 && decide (b.lowSeq < seq)))

/-- The parts of a range of logical blocks by unit: unit, first slot and slots. -/
def Nspace.parts (n : Nspace) (slba nlb : Nat) : List (Nat × Nat × Nat) :=
  if n.big then (List.range nlb).map (fun i => (slba + i, 0, 16))
  else if nlb = 0 then []
  else
    let u0 := slba / 16
    let u1 := (slba + nlb - 1) / 16
    (List.range (u1 + 1 - u0)).map (fun i =>
      let u := u0 + i
      let f := if u = u0 then slba % 16 else 0
      let l := if u = u1 then (slba + nlb - 1) % 16 else 15
      (u, f, l + 1 - f))

/-- New slots that writes of these parts take. -/
def State.slotsNeeded (s : State) (n : Nspace) (ps : List (Nat × Nat × Nat)) : Nat :=
  (ps.filter (fun p => (s.mapEnt n.nsx p.1).state != 2)).length

/-- Writes the parts of a range in ascending order; `bytes` is what is left to write. -/
def State.writeParts (s : State) (tag : Option (Fin 33 × W16 × W16)) (nsx : Nat) : List (Nat × Nat × Nat) → List Byte → State
  | [], _ => s
  | (u, f, k) :: ps, bytes => (s.bufWrite tag nsx u f (bytes.take (4096 * k))).writeParts tag nsx ps (bytes.drop (4096 * k))

/-- Runs of consecutive whole units (R365). -/
def unitRuns : List Nat → List (Nat × Nat)
  | [] => []
  | u :: us => match unitRuns us with
    | (v, k) :: rs => if u + 1 = v then (u, k + 1) :: rs else (u, 1) :: (v, k) :: rs
    | [] => [(u, 1)]

/-- Deallocates a range (R365): a trim entry per run of whole units, zeros written in partial ones. -/
def State.deallocate (s : State) (tag : Option (Fin 33 × W16 × W16)) (n : Nspace) (slba nlb : Nat) : State :=
  let ps := n.parts slba nlb
  let runs := unitRuns ((ps.filter (fun p => p.2.2 == 16)).map Prod.fst)
  let s := runs.foldl (fun s r => s.addTrim n.nsx r.1 r.2) s
  let partials := ps.filter (fun p => p.2.2 != 16)
  partials.foldl (fun s p => s.bufWrite tag n.nsx p.1 p.2.1 (List.replicate (4096 * p.2.2) 0)) (s.takeCredit (s.slotsNeeded n partials))

/-- Whether a range of logical blocks has a unit whose map entry an uncorrectable word of map memory held, so that reads and writes of it wait for
the entry to be rebuilt (R425; log entry 46). -/
def State.mapWaits (s : State) (n : Nspace) (slba nlb : Nat) : Bool :=
  s.ecc.bad.any (fun w => w.kind == 3 && (n.parts slba nlb).any (fun p => Config.mapHolds w.addr n.nsx p.1))

/-! ## Block I/O (R392) -/

/-- Checks of a block command's namespace and range: the namespace and its parts, or the status. -/
def State.blockRange (s : State) (c : HostCmd) (slba nlb : Nat) (writes : Bool) : Except NvStatus Nspace :=
  match s.space? c.nsid with
  | none => .error nvInvalidNamespace
  | some n =>
    if c.fuse ≠ 0 then .error nvInvalidField
    else if n.size < slba + nlb then .error nvLbaRange
    else if writes && s.ftl.readOnly then .error nvWriteProtected
    else .ok n

/-- Starting LBA of a block command. -/
def slbaOf (c : HostCmd) : Nat := (c.cdw11 ++ c.cdw10).toNat
/-- Logical blocks of a block command, which names them zero-based. -/
def nlbOf (c : HostCmd) : Nat := c.cdw12.toNat % 65536 + 1
/-- The tag of a command. -/
def tagOf (c : HostCmd) : Fin 33 × W16 × W16 := (c.ctrl, c.sqid, c.cid)

/-- READ (R392): a range with a block that is lost or does not read ends as an unrecovered read error. It waits for map entries that are being
rebuilt (R425; log entry 9). -/
def execRead (c : HostCmd) (s : State) : Out :=
  .next (s.io c (fun s1 =>
    match s1.blockRange c (slbaOf c) (nlbOf c) false with
    | .error e => s1.fail c e
    | .ok n =>
      if 2097152 < nlbOf c * n.blockBytes then s1.fail c nvInvalidField
      else if s1.mapWaits n (slbaOf c) (nlbOf c) then s
      else match (List.range (nlbOf c)).mapM (fun i => s1.readBlock n (slbaOf c + i)) with
        | none => s1.fail c nvUnrecovered
        | some bs => s1.reply c bs.flatten 0))

/-- A WRITE's data enters the buffer and the command completes (R361), when there is room and no map entry of it is being rebuilt (R425). -/
def State.takeWrite (s : State) (c : HostCmd) (n : Nspace) : Option State :=
  let ps := n.parts (slbaOf c) (nlbOf c)
  if s.mapWaits n (slbaOf c) (nlbOf c) || !s.roomFor (s.slotsNeeded n ps) then none
  else some (((s.takeCredit (s.slotsNeeded n ps)).writeParts (some (tagOf c)) n.nsx ps (c.bytes 0 (nlbOf c * n.blockBytes))).ok c 0)

/-- WRITE (R361): completes once all of its data is in the buffer; data that finds no room, or a write before it that waits, waits for free slots. -/
def execWrite (c : HostCmd) (s : State) : Out :=
  .next (s.io c (fun s =>
    match s.blockRange c (slbaOf c) (nlbOf c) true with
    | .error e => s.fail c e
    | .ok n =>
      if 2097152 < nlbOf c * n.blockBytes then s.fail c nvInvalidField
      else match (if s.ftl.waiting.isEmpty then s.takeWrite c n else none) with
        | some t => t
        | none => { s with ftl := { s.ftl with waiting := s.ftl.waiting ++ [c] } }))

/-- The writes that wait enter the buffer in their order, up to the first that finds no room (R361); one whose range has gone meanwhile completes with
its refusal. -/
def State.serveWaiting (s : State) : List HostCmd → State
  | [] => { s with ftl := { s.ftl with waiting := [] } }
  | c :: cs => match s.blockRange c (slbaOf c) (nlbOf c) true with
    | .error e => (s.fail c e).serveWaiting cs
    | .ok n => match s.takeWrite c n with
      | some t => t.serveWaiting cs
      | none => { s with ftl := { s.ftl with waiting := c :: cs } }

/-- FLUSH (R386): completes at once. -/
def execFlush (c : HostCmd) (s : State) : Out :=
  .next (s.io c (fun s =>
    if c.fuse ≠ 0 then s.fail c nvInvalidField
    else if c.nsid = 0xFFFFFFFF then s.ok c 0
    else match s.space? c.nsid with
      | none => s.fail c nvInvalidNamespace
      | some _ => s.ok c 0))

/-- VERIFY (R392). -/
def execVerify (c : HostCmd) (s : State) : Out :=
  .next (s.io c (fun s1 =>
    match s1.blockRange c (slbaOf c) (nlbOf c) false with
    | .error e => s1.fail c e
    | .ok n =>
      if s1.mapWaits n (slbaOf c) (nlbOf c) then s
      else if (List.range (nlbOf c)).all (fun i => (s1.readBlock n (slbaOf c + i)).isSome) then s1.ok c 0 else s1.fail c nvUnrecovered))

/-- The zeros or the trim entries of a WRITE_ZEROES enter the buffer and the command completes (R361, R365), when there is room: with DEAC (CDW12 bit 25) whole
units are deallocated, else zeros are written. -/
def State.takeZeroes (s : State) (c : HostCmd) (n : Nspace) : Option State :=
  let ps := n.parts (slbaOf c) (nlbOf c)
  if s.mapWaits n (slbaOf c) (nlbOf c) then none
  else if c.cdw12.getLsbD 25 then
    if s.roomFor (s.slotsNeeded n (ps.filter (fun p => p.2.2 != 16)) + 1) then some ((s.deallocate (some (tagOf c)) n (slbaOf c) (nlbOf c)).ok c 0) else none
  else if s.roomFor (s.slotsNeeded n ps) then
    some (((s.takeCredit (s.slotsNeeded n ps)).writeParts (some (tagOf c)) n.nsx ps (List.replicate (nlbOf c * n.blockBytes) 0)).ok c 0)
  else none

/-- The ranges of a DATASET_MANAGEMENT (R392), 16 bytes each: length at byte 4, first block at byte 8. -/
def trimRanges (c : HostCmd) : List (Nat × Nat) := (List.range (c.cdw10.toNat % 256 + 1)).map (fun i => (c.nat (16 * i + 8) 8, c.nat (16 * i + 4) 4))

/-- The ranges of a DATASET_MANAGEMENT are deallocated and the command completes (R361, R365), when there is room. -/
def State.takeTrim (s : State) (c : HostCmd) (n : Nspace) : Option State :=
  let ranges := trimRanges c
  if ranges.any (fun r => s.mapWaits n r.1 r.2) ||
      !s.roomFor ((ranges.map (fun r => s.slotsNeeded n ((n.parts r.1 r.2).filter (fun p => p.2.2 != 16)) + 1)).foldl (· + ·) 0) then none
  else some ((ranges.foldl (fun s r => s.deallocate (some (tagOf c)) n r.1 r.2) s).ok c 0)

/-- A WRITE_ZEROES: its refusal, or the namespace (R392). -/
def State.zeroesSpace (s : State) (c : HostCmd) : Except NvStatus Nspace := s.blockRange c (slbaOf c) (nlbOf c) true

/-- A DATASET_MANAGEMENT of the Deallocate attribute: its refusal, or the namespace (R392). -/
def State.trimSpace (s : State) (c : HostCmd) : Except NvStatus Nspace :=
  match s.space? c.nsid with
  | none => .error nvInvalidNamespace
  | some n =>
    if c.fuse ≠ 0 then .error nvInvalidField
    else if (trimRanges c).any (fun r => decide (n.size < r.1 + r.2)) then .error nvLbaRange
    else if c.cdw11.getLsbD 2 && s.ftl.readOnly then .error nvWriteProtected
    else .ok n

/-- The deallocations and writes of zeroes that wait act in their order, up to the first that finds no room (R361). -/
def State.serveZeroing (s : State) : List (Bool × HostCmd) → State
  | [] => { s with ftl := { s.ftl with zeroing := [] } }
  | (trim, c) :: cs => match (if trim then s.trimSpace c else s.zeroesSpace c) with
    | .error e => (s.fail c e).serveZeroing cs
    | .ok n => match (if trim then s.takeTrim c n else s.takeZeroes c n) with
      | some t => t.serveZeroing cs
      | none => { s with ftl := { s.ftl with zeroing := (trim, c) :: cs } }

/-- What waits for free slots of the write buffer is served (R361). -/
def State.serveWaiters (s : State) : State :=
  let s := if s.ftl.waiting.isEmpty then s else s.serveWaiting s.ftl.waiting
  if s.ftl.zeroing.isEmpty then s else s.serveZeroing s.ftl.zeroing

/-- Commands that wait in the drive and that `of_` takes out end without a completion: writes and deallocations without room, and allocations (R361, R415). -/
def State.dropWaiting (s : State) (of_ : HostCmd → Bool) : State :=
  let s := s.dropAllots of_
  { s with ftl := { s.ftl with waiting := s.ftl.waiting.filter (fun c => !of_ c), zeroing := s.ftl.zeroing.filter (fun x => !of_ x.2) } }

/-- WRITE_ZEROES (R361, R365, R392): data that finds no room waits for free slots. -/
def execWriteZeroes (c : HostCmd) (s : State) : Out :=
  .next (s.io c (fun s =>
    match s.zeroesSpace c with
    | .error e => s.fail c e
    | .ok n => (s.takeZeroes c n).getD { s with ftl := { s.ftl with zeroing := s.ftl.zeroing ++ [(false, c)] } }))

/-- DATASET_MANAGEMENT (R361, R365, R392): the ranges of the Deallocate attribute (CDW11 bit 2); without the attribute nothing is deallocated. What finds no
room waits for free slots. -/
def execDatasetManagement (c : HostCmd) (s : State) : Out :=
  .next (s.io c (fun s =>
    match s.trimSpace c with
    | .error e => s.fail c e
    | .ok n =>
      if !c.cdw11.getLsbD 2 then s.ok c 0
      else (s.takeTrim c n).getD { s with ftl := { s.ftl with zeroing := s.ftl.zeroing ++ [(true, c)] } }))

/-! ## Namespace management (R391) -/

/-- The lowest NSX that is not in use, nor held by a live trim entry (R391). -/
def State.freeNsx (s : State) : Nat :=
  ((List.range 65536).find? (fun x => s.ftl.spaces.all (fun (_, n) => n.nsx != x) &&
    s.ftl.deadNsx.all (fun (y, q) => y != x || !s.trimLive q))).getD 0

/-- NSIDs that name no namespace of the drive. -/
def State.freeNsids (s : State) : List Nat :=
  ((List.range 260).map (· + 1)).filter (fun i => (find i s.ftl.spaces).isNone && BitVec.ofNat 32 i != s.host.nsCompute &&
    BitVec.ofNat 32 i != s.host.nsMemory && s.host.nsChain != some (BitVec.ofNat 32 i))

/-- The NSID of a new namespace: one that names none; which one is the drive's choice (log entry 30). -/
def State.takeNsid (s : State) : Nat × State :=
  let (k, t) := s.draw
  ((s.freeNsids[Config.allot k % s.freeNsids.length]?).getD 0, t)

/-- Deletes a mapped namespace (R391, R438): a trim entry for its whole range; its key pair is destroyed. -/
def State.deleteSpace (s : State) (nsid : Nat) (n : Nspace) : State :=
  let s := if n.units = 0 then s else s.addTrim n.nsx 0 n.units
  { s with sec := { s.sec with nsKeys := remove n.nsx s.sec.nsKeys },
           ftl := { s.ftl with spaces := remove nsid s.ftl.spaces, deadNsx := s.ftl.deadNsx ++ [(n.nsx, s.ftl.seq)] } }

/-- NAMESPACE_MANAGEMENT (R391): CDW10 bits 3:0 select 0 create, 1 delete, 2 resize (log entry 31); the data gives the size in
logical blocks in bytes 7:0 and the LBA format in bits 3:0 of byte 26. -/
def execNamespaceManagement (c : HostCmd) (s : State) : Out :=
  .next (s.admin c (fun s1 =>
    let sel := c.cdw10.toNat % 16
    let size := c.nat 0 8
    let fmt := (c.byte 26).toNat % 16
    if c.ctrl ≠ 0 then s1.fail c nvInvalidField
    else if sel = 0 then
      let n : Nspace := ⟨s1.freeNsx, fmt == 1, size⟩
      if 1 < fmt ∨ size = 0 then s1.fail c nvInvalidField
      else if 256 ≤ s1.ftl.spaces.length then s1.fail c (1, 0x16)
      else if userUnits < s1.usedUnits + n.units then s1.fail c nvCapacity
      else
        let (id, s1) := s1.takeNsid
        let s1 := { s1 with sec := { s1.sec with nsKeys := put n.nsx s1.sec.keysDrawn s1.sec.nsKeys, keysDrawn := s1.sec.keysDrawn + 1 } }
        ({ s1 with ftl := { s1.ftl with spaces := put id n s1.ftl.spaces } }).ok c (BitVec.ofNat 32 id)
    else if sel = 1 then
      if c.nsid = 0xFFFFFFFF then
        if s1.slotsFree < s1.ftl.spaces.length then s
        else (s1.ftl.spaces.foldl (fun s x => s.deleteSpace x.1 x.2) s1).ok c 0
      else match s1.space? c.nsid with
        | none => s1.fail c nvInvalidNamespace
        | some n => if s1.slotsFree = 0 then s else (s1.deleteSpace c.nsid.toNat n).ok c 0
    else if sel = 2 then
      match s1.space? c.nsid with
      | none => s1.fail c nvInvalidNamespace
      | some n =>
        let n' : Nspace := { n with size := size }
        if size = 0 then s1.fail c nvInvalidField
        else if userUnits < s1.usedUnits + n'.units - n.units then s1.fail c nvCapacity
        else if n'.units < n.units ∧ s1.slotsFree = 0 then s
        else
          let s2 := if n'.units < n.units then s1.addTrim n.nsx n'.units (n.units - n'.units) else s1
          ({ s2 with ftl := { s2.ftl with spaces := put c.nsid.toNat n' s2.ftl.spaces } }).ok c 0
    else s1.fail c nvInvalidField))

/-! ## Deferred write errors (R364, R409, R410) -/

/-- The NSID of an NSX. -/
def State.nsidOf (s : State) (nsx : Nat) : W32 :=
  match s.ftl.spaces.find? (fun (_, n) => n.nsx == nsx) with
  | some (i, _) => BitVec.ofNat 32 i
  | none => 0

/-- Entries of log page 0xC2 (R410). -/
def deferredCap : Nat := 256

/-- A deferred write error (R409, R410): the log entry, the event, and the notice or the frozen queue. -/
def State.deferError (s : State) (u : FUnit) (lost : W16) (cairn : W128) (freezes : Bool) : State :=
  match u.tag with
  | none => s
  | some (ctrl, sqid, cid) =>
    let k := s.ctrl ctrl
    let early := !k.rdy
    let frozen := freezes || early || (List.range 33).any (fun c => (s.ctrl (Fin.ofNat 33 c)).selfTest) || s.boot.test
    let nsid := s.nsidOf u.nsx
    let slots := if ((s.space? nsid).map (fun n => n.big)).getD false then 1 else 16
    let e : DefErr := { cairn := cairn, nsid := nsid, sqid := sqid, ctrl := ctrl, cid := cid, slba := BitVec.ofNat 64 (slots * u.lua),
                        lostmask := lost, report := if frozen then 2 else 0, read := false, early := early }
    let all := s.host.deferred ++ [e]
    let gone := all.take (all.length - deferredCap)
    let h := { s.host with deferred := all.drop (all.length - deferredCap), defWritten := s.host.defWritten + 1,
                           defLost := s.host.defLost + BitVec.ofNat 64 (gone.countP (fun e => !e.read)), events := s.host.events ++ [0xC20000] }
    ({ s with host := h }).updSq ctrl sqid (fun q =>
      if frozen then { q with frozen := true }
      else { q with notices := if q.notices.contains nsid then q.notices else q.notices ++ [nsid] })

/-- UNIT_LOST (R383): the cairn, with its attachment. -/
def State.unitLost (s : State) (u : FUnit) (lost : W16) : W128 × State :=
  s.stampNow (srcControl 0) 0x69 0 [(0 : W16) ++ BitVec.ofNat 48 u.seq ++ lost ++ BitVec.ofNat 16 u.nsx ++ BitVec.ofNat 32 u.lua]

/-- Reads of a die that media management makes and that count as they end (R327, R336): those that stay uncorrectable took every retry step. -/
def State.readVictim (s : State) (d n bad : Nat) : State :=
  if (s.die d).failed then s
  else s.updChan d (fun c => { c with reads := c.reads + BitVec.ofNat 64 n, retries := c.retries + BitVec.ofNat 64 (7 * bad), uncorr := c.uncorr + BitVec.ofNat 64 bad })

/-- The merge of a buffered sub-unit image (R363, R364); `readable` says whether the read of the flash copy decodes. -/
def State.mergeSlot (s : State) (slot : Nat) (u : FUnit) (readable freezes : Bool) : State :=
  let f := s.flashView u.old
  let keep := ~~~ u.valid
  let mapped := u.old.state == 1 || u.old.state == 3
  let s := if mapped then s.readVictim (puaDie u.old.at_) 1 (if readable && f.bad == 0 then 0 else 1) else s
  if mapped && (!readable || f.bad != 0) then
    let u' : FUnit := { u with data := overSlots u.valid u.data [], lost := keep, valid := 0xFFFF }
    let (cairn, s) := s.unitLost u' keep
    ({ s with ftl := { s.ftl with buf := put slot u' s.ftl.buf } }).deferError u' keep cairn freezes
  else
    let u' : FUnit := { u with data := overSlots u.valid u.data f.data, lost := u.lost ||| (f.lost &&& keep), valid := 0xFFFF }
    { s with ftl := { s.ftl with buf := put slot u' s.ftl.buf } }

/-! ## Programming the buffer (R360 to R362, R369) -/

/-- Whether the block at a position has the least wear among the free blocks of its die (R362). -/
def Die.leastWorn (x : Die) (p : Nat) : Bool :=
  (x.blk p).wear == 0 || ((List.range 4096).all (fun q => x.inWindow q || (x.blk q).use != .free || decide ((x.blk p).wear ≤ (x.blk q).wear)))

/-- A block's record as it opens for host or collected units (R362). -/
def Blk.opened (b : Blk) : Blk := { b with use := .open_, wp := 0, lowSeq := 0, stopped := false, refresh := false, minute := 0, temp := 0 }

/-- Opens a free block for host or collected units (R362): erased in QLC mode first, a write of its die (R330), when it is not. -/
def State.openBlock (s : State) (d p : Nat) : State :=
  let b := (s.die d).blk p
  if b.erased && b.qlc then s.updBlk d p Blk.opened
  else (s.updBlk d p (fun b => { b.opened with erased := false, erasing := true })).queueWrite d ⟨p, true, true, .again⟩

/-- Opens a free block at once; one whose erase fails is retired (R348; log entry 173). -/
def State.openNow (s : State) (d p : Nat) : State :=
  let b := (s.die d).blk p
  let s := if b.erased && b.qlc then s
    else
      let (n, s) := s.draw
      (s.updChan d (fun c => { c with erases := c.erases + 1 })).erasedAgain d ⟨p, true, true, .again⟩ (!Config.eraseFails n)
  s.updBlk d p Blk.opened

/-- Units in word lines, four to a line (R362). -/
def wordLines (us : List (FUnit × MapEnt)) : List (List (FUnit × MapEnt)) := (List.range (ceilDiv us.length 4)).map (fun i => (us.drop (4 * i)).take 4)

/-- The write pointer of a block of the translation layer once what its die's queue holds for it is programmed; after copies it stands at a word line's
end (log entry 33). -/
def Die.planned (x : Die) (p : Nat) : Nat :=
  (x.writing.toList ++ x.writes).foldl (fun n w => match w.serves with
    | .units us victim _ => if w.pos = p then (if victim.isSome then Nat.min 2047 (padTo 4 (n + us.length)) else n + us.length) else n
    | _ => n) (if (x.blk p).use == .open_ then (x.blk p).wp else 0)

/-- Whether a write of a die programs units of the translation layer that `f` names. -/
def State.queued (s : State) (f : Option (Nat × Bool) → MapEnt → Bool) : Bool :=
  s.media.dies.any (fun (_, x) => (x.writing.toList ++ x.writes).any (fun w => match w.serves with
    | .units us victim _ => us.any (fun u => f victim u.2)
    | _ => false))

/-- Whether a word line that holds the unit of a buffer slot waits or runs on a die. -/
def State.slotQueued (s : State) (i : Nat) : Bool := s.queued (fun v e => v.isNone && e.at_ == i)

/-- Whether copies of a block's units wait or run on a die: 4,096 × die + position. -/
def State.copiesQueued (s : State) (key : Nat) : Bool := s.queued (fun v _ => (v.map Prod.fst) == some key)

/-- Whether a die is quiet (R362): it holds units of an INDEX_EXTENT or ENTRY_LAYER that is bound to a job admitted within the last second. -/
def State.quietDie (s : State) (d : Nat) : Bool :=
  s.host.jobs.any (fun j => decide (s.time.now.toNat < j.admittedAt.toNat + 1000000000) && j.bound.any (fun h =>
    match s.obj? h with
    | some o => (o.typ == 4 || o.typ == 5) && ((o.f.map (fun f => f.places.any (fun (_, a) => placeDie a == d))).getD false)
    | none => false))

/-- Whether a die may have a block opened on it (R362): not a quiet one while at least 64 others that are not quiet have free blocks. -/
def State.opensOn (s : State) (d : Nat) : Bool :=
  !s.quietDie d || decide ((dieIds.filter (fun e => !s.quietDie e && decide (0 < (s.die e).freeBlocks))).length < 64)

/-- Whether the erase of a collected block on a die is put off (R362): the die is quiet, not every die is, and more than 8,192 free blocks are
left. -/
def State.putsOff (s : State) (d : Nat) : Bool := s.quietDie d && decide (8192 < s.freeBlocks) && !(dieIds.all s.quietDie)

/-- Whether a block of a die can take a word line of `n` units of the translation layer; the block's last line holds three and its summary
(R360, R362). -/
def State.takesUnits (s : State) (d p n : Nat) : Bool :=
  let x := s.die d
  let b := x.blk p
  let wp := x.planned p
  !x.failed && !x.inWindow p && decide (0 < n) && decide (n ≤ 4) && decide (wp + n ≤ 2047) && ((wp + n) % 4 == 0 || wp + n == 2047) &&
  (match b.use with
   | .open_ => true
   | .free => decide (0 < x.freeBlocks) && !b.erasing && x.leastWorn p && s.opensOn d
   | _ => false)

/-- Programs units at a block's write pointer: headers take the epoch and the die's temperature (R358), map entries that still
name `src` of their unit switch, and a full block is closed by its summary (R360). `host` marks units from the buffer; a copy keeps `src`. -/
def State.programUnits (s : State) (d p : Nat) (host keepAge : Bool) : List (FUnit × MapEnt) → State
  | [] => s
  | (u, src) :: us =>
    let b := (s.die d).blk p
    let a := puaOf d p b.wp
    let u' : FUnit := { u with tag := none, old := if host then ⟨0, 0⟩ else src, data := u.content, minute := if keepAge then u.minute else s.time.epoch.toNat,
                               temp := if keepAge then u.temp else (s.die d).temp }
    let f := s.ftl
    let f := { f with units := put a u' f.units, mediaUnits := f.mediaUnits + 1,
                      hostUnits := if host && u.kind == .data then f.hostUnits + 1 else f.hostUnits }
    let s := { s with ftl := f }
    let s := if u.kind == .data && s.mapEnt u.nsx u.lua == src then s.setMap u.nsx u.lua ⟨if u.lost = 0 then 1 else 3, a⟩ else s
    let s := s.updBlk d p (fun b => { b with
      wp := b.wp + 1, lowSeq := if b.wp = 0 then u.seq else Nat.min b.lowSeq u.seq,
      minute := if b.wp = 0 then s.time.epoch.toNat else b.minute, temp := if b.wp = 0 then (s.die d).temp else b.temp })
    s.programUnits d p host keepAge us

/-- The summary of a block (R360): the headers of its units in order, and in its last 32 bytes the tag. A unit that a copy left unwritten has
a header of zeros. -/
def State.summary (s : State) (d p : Nat) : FUnit :=
  let b := (s.die d).blk p
  let heads := (List.range (blockUnits b.qlc - 1)).flatMap (fun u => ((find (puaOf d p u) s.ftl.units).map FUnit.header).getD (List.replicate 32 0))
  { kind := .summary, nsx := 0, lua := 0, seq := b.lowSeq, minute := s.time.epoch.toNat, temp := (s.die d).temp,
    data := memOf (heads ++ b.tag d p) }

/-- Closes a block that is written up to its last unit, with its summary (R360). -/
def State.closeIfFull (s : State) (d p : Nat) : State :=
  let last := blockUnits ((s.die d).blk p).qlc - 1
  if ((s.die d).blk p).wp = last then
    ({ s with ftl := { s.ftl with mediaUnits := s.ftl.mediaUnits + 1, units := put (puaOf d p last) (s.summary d p) s.ftl.units } }).updBlk d p
      (fun b => { b with use := .closed, wp := last + 1 })
  else s

/-- Whether a die can take a host word line (R362): it works, and has an open block with room or may have one opened. -/
def State.takesLine (s : State) (d : Nat) : Bool :=
  let x := s.die d
  !x.failed && (x.blocks.any (fun (p, b) => b.use == .open_ && decide (x.planned p < 2047)) || (decide (0 < x.freeBlocks) && s.opensOn d))

/-- Whether it is a die's turn to take a host word line (R362): no die between the last one that took a line and it can take one. -/
def State.inTurn (s : State) (d : Nat) : Bool :=
  match s.ftl.lastDie with
  | none => true
  | some l => ((List.range 512).map (fun i => (l + 1 + i) % 512)).find? (fun e => e == d || s.takesLine e) == some d

/-- BUFFER_PROGRAM (R330, R362): a word line of buffered units that need no merge joins the write queue of the next die in turn, for a block with room there;
DIE_PROGRAM_DONE ends it (R361, R369). -/
def execBufferProgram (slots : List Nat) (die : Fin 512) (pos : Fin 4096) (fails : Bool) (s : State) : Out :=
  let d := die.val
  let p := pos.val
  .next (
    let us := slots.filterMap (fun i => (find i s.ftl.buf).map (fun u => (u, (⟨2, i⟩ : MapEnt))))
    if us.length ≠ slots.length ∨ !noRepeat slots ∨ slots.any s.slotQueued ∨ !s.inTurn d ∨ us.any (fun (u, _) => u.valid != 0xFFFF) ∨ !s.takesUnits d p us.length then s
    else
      let s := if ((s.die d).blk p).use == .free then s.openBlock d p else s
      ({ s with ftl := { s.ftl with lastDie := some d } }).queueWrite d ⟨p, false, true, .units us none fails⟩)

/-- The map entry of a unit that left its slot while its word line was programmed: none has it. -/
def noEntry : MapEnt := ⟨4, 0⟩

/-- Whether a slot of the buffer still holds the unit that a word line took from it. -/
def State.stillBuffered (s : State) (u : FUnit) (e : MapEnt) : Bool := ((find e.at_ s.ftl.buf).map (fun v => v.seq == u.seq)).getD false

/-- A word line of the buffer is on flash (R361, R362): its slots are free, but for those written again meanwhile. -/
def State.bufferProgrammed (s : State) (d p : Nat) (us : List (FUnit × MapEnt)) : State :=
  let now := us.map (fun (u, e) => (u, if s.stillBuffered u e then e else noEntry))
  let s := s.programUnits d p true false now
  let done := (now.filter (fun x => x.2 != noEntry)).map (fun x => x.2.at_)
  ({ s with ftl := { s.ftl with buf := s.ftl.buf.filter (fun (i, _) => !done.contains i) } }).closeIfFull d p

/-- The program of a word line of the buffer has failed (R348, R369): the block is retired, what stood below is copied into its replacement, and the units
stay in the buffer for another block. -/
def State.hostLineFails (s : State) (d p : Nat) : State :=
  let wp := ((s.die d).blk p).wp
  let s := (s.retire d p).copyBelow d wp (ceilDiv wp 4)
  if wp = 0 then s else s.dateBlock d p

/-! ## Garbage collection (R366 to R369, R377, R381) -/

/-- The valid units of a block: map entries that name its units. -/
def State.validUnits (s : State) (d p : Nat) : List (Nat × MapEnt) :=
  s.ftl.map.filter (fun (_, e) => (e.state == 1 || e.state == 3) && e.at_ / 2048 == 4096 * d + p)

/-- The closed blocks that are not being erased: die, position and record. -/
def State.closedBlocks (s : State) : List (Nat × Nat × Blk) :=
  s.media.dies.flatMap (fun (d, x) => x.blocks.filterMap (fun (p, b) => if b.use == .closed && !b.erasing then some (d, p, b) else none))

/-- The valid units of a block with its trim units that hold a live entry (R366, R367, R372). -/
def State.validCount (s : State) (d p : Nat) : Nat :=
  (s.validUnits d p).length +
    s.ftl.units.countP (fun (a, u) => a / 2048 == 4096 * d + p && u.kind == .trim && u.trims.any (fun t => s.trimLive t.seq))

/-- Whether a block is the victim (R366, R377): one that a refresh names, or below 8,192 free blocks the closed block with the fewest
valid units, among equals of least wear. -/
def State.isVictim (s : State) (d p : Nat) : Bool :=
  let b := (s.die d).blk p
  let n := s.validCount d p
  b.use == .closed && !b.erasing && (b.refresh || (decide (s.freeBlocks < 8192) && s.closedBlocks.all (fun (e, q, c) =>
    let k := s.validCount e q
    decide (n < k) || (k == n && decide (b.wear ≤ c.wear)))))

/-- Below 1,024 free blocks with no closed block that holds an invalid unit, the drive turns read-only (R380). -/
def State.checkBlocksLeft (s : State) : State :=
  if !s.ftl.readOnly && decide (s.freeBlocks < 1024) && s.closedBlocks.all (fun (d, p, _) => decide (2047 ≤ s.validCount d p)) then
    ({ s with ftl := { s.ftl with readOnly := true } }).stamp (srcControl 0) 0x6A 1
  else s

/-- The copies of a victim's units (R366 to R368, R381): the data units that the map names and the trim units with the entries that are live, a unit that does
not read as zeros with every slot lost; each with its source's map entry, and whether it is lost. -/
def State.copies (s : State) (d p : Nat) (bad : List Nat) : List (FUnit × MapEnt × Bool) :=
  let lostAll (a : Nat) : Bool := (s.die d).failed || s.ftl.bad.contains a || bad.contains (puaUnit a)
  let datas := (s.validUnits d p).filterMap (fun (_, e) => (find e.at_ s.ftl.units).map (fun u =>
    (if lostAll e.at_ then { u with data := [], lost := 0xFFFF } else u, e, lostAll e.at_)))
  let trims := s.ftl.units.filterMap (fun (a, u) =>
    let live := u.trims.filter (fun t => s.trimLive t.seq)
    if a / 2048 = 4096 * d + p ∧ u.kind = .trim ∧ !live.isEmpty then
      some (if lostAll a then { u with trims := [], lost := 0xFFFF } else { u with trims := live }, ⟨1, a⟩, lostAll a) else none)
  datas ++ trims

/-- A copy's generation: GEN + 1, or a fresh SEQ and GEN 0 when it would pass 0xFFFF (R367, R368). -/
def State.bumpGen (s : State) : List (FUnit × MapEnt × Bool) → List (FUnit × MapEnt) × State
  | [] => ([], s)
  | (u, e, _) :: us =>
    if u.gen < 65535 then
      let (r, s) := s.bumpGen us
      (({ u with gen := u.gen + 1 }, e) :: r, s)
    else
      let (q, s) := s.nextSeq
      let (r, s) := s.bumpGen us
      (({ u with gen := 0, seq := q }, e) :: r, s)

/-- Buffered sub-unit images whose flash copy lies in the victim are merged before it goes (R363; log entry 32). -/
def State.mergeFrom (s : State) (d p : Nat) (bad : List Nat) : State :=
  s.ftl.buf.foldl (fun s (i, u) =>
    if u.kind == .data && u.valid != 0xFFFF && u.old.state != 0 && u.old.at_ / 2048 == 4096 * d + p
    then s.mergeSlot i u (!bad.contains (puaUnit u.old.at_)) false else s) s

/-- What stood in a block of the translation layer is gone with its erase (R367); copies of it no longer have a source. -/
def State.dropUnits (s : State) (d p : Nat) : State :=
  let here (a : Nat) : Bool := a / 2048 == 4096 * d + p
  { s with ftl := { s.ftl with bad := s.ftl.bad.filter (fun a => !here a), units := (s.ftl.units.filter (fun (a, _) => !here a)).map (fun (a, u) =>
      (a, if here u.old.at_ then { u with old := ⟨0, 0⟩ } else u)) } }

/-- Frees a victim whose valid units have moved, at the end of its erase: erased, or retired when its erase fails (R367, R369). Nothing is sent to a
failed die, and its blocks leave the pool (R381). -/
def State.freeVictim (s : State) (d p : Nat) (fails : Bool) : State :=
  let s := ({ s with ftl := { s.ftl with credit := if 2048 ≤ s.freeBlocks then 0 else s.ftl.credit + if (s.die d).failed then 0 else 2047 } }).dropUnits d p
  let free (b : Blk) : Blk := { b with use := .free, wp := 0, erased := true, erasing := false, qlc := true, lowSeq := 0, refresh := false }
  if (s.die d).failed then s.updBlk d p (fun b => { b with use := .free, wp := 0, erased := false, erasing := false, refresh := false })
  else
    let s := { s with media := { s.media with sinceMove := s.media.sinceMove + 1 } }
    if fails then (s.retire d p).updBlk d p free
    else s.updBlk d p (fun b => { free b with wear := b.wear + eraseWear true })

/-- Programs the copies of a victim's units into a block, from its write pointer on, in whole word lines (a last line that is not full is left so, log
entry 33), and switches the map (R367). -/
def State.placeCopies (s : State) (td tp : Nat) (cs : List (FUnit × MapEnt × Bool)) : State :=
  let s := if ((s.die td).blk tp).use == .open_ then s else s.openNow td tp
  let s := s.updChan td (fun c => { c with progs := c.progs + BitVec.ofNat 64 (ceilDiv cs.length 4), reads := c.reads + BitVec.ofNat 64 cs.length })
  let s := cs.foldl (fun s (u, _, l) => if l then (s.unitLost u 0xFFFF).2 else s) s
  let (us, s) := s.bumpGen cs
  ((s.programUnits td tp false true us).updBlk td tp (fun b => { b with wp := Nat.min 2047 (padTo 4 b.wp) })).closeIfFull td tp

/-- A block of the translation layer is collected at once: its valid units move, and it is freed (R366 to R368). Which of its programs and erases fail is free
(log entry 173): a target whose program fails is retired, and the copies go into its replacement. -/
def State.collectInto (s : State) (d p td tp : Nat) (bad : List Nat) : State :=
  let s := s.mergeFrom d p bad
  let cs := s.copies d p bad
  let (n, s) := s.draw
  let (m, s) := s.draw
  let s := if cs.isEmpty then s
    else
      let s := s.readVictim d cs.length (cs.countP (fun c => c.2.2))
      (if (Config.sealFaults m).any id then (s.updChan td (fun c => { c with progs := c.progs + 1 })).retire td tp else s).placeCopies td tp cs
  (if (s.die d).failed then s else s.updChan d (fun c => { c with erases := c.erases + 1 })).freeVictim d p (Config.eraseFails n)

/-- Whether a block has a unit that is still to be copied: one that the map names, or a TRIM unit with a live entry of which no copy stands. -/
def State.uncollected (s : State) (d p : Nat) : Bool :=
  !(s.validUnits d p).isEmpty || s.ftl.units.any (fun (a, u) => a / 2048 == 4096 * d + p && u.kind == .trim && u.trims.any (fun t => s.trimLive t.seq) &&
    s.ftl.units.all (fun (_, v) => v.old != ⟨1, a⟩))

/-- The erase of a block whose units have moved joins its die's queue (R330, R367 step 4), on a quiet die later (R362); nothing is sent to a failed die
(R381). -/
def State.eraseVictim (s : State) (d p : Nat) (fails : Bool) : State :=
  if ((s.die d).blk p).use != .closed || ((s.die d).blk p).erasing || s.uncollected d p || s.copiesQueued (4096 * d + p) || s.putsOff d then s
  else if (s.die d).failed then (s.freeVictim d p false).checkBlocksLeft
  else (s.updBlk d p (fun b => { b with erasing := true })).queueWrite d ⟨p, true, true, .victim fails⟩

/-- A word line of copies is on flash (R367): the headers are read back, and the map entries that still name their sources switch. -/
def State.copiesProgrammed (s : State) (d p : Nat) (us : List (FUnit × MapEnt)) : State :=
  let s := s.updChan d (fun c => { c with reads := c.reads + BitVec.ofNat 64 us.length })
  ((s.programUnits d p false true us).updBlk d p (fun b => { b with wp := Nat.min 2047 (padTo 4 b.wp) })).closeIfFull d p

/-- The program of a copy has failed (R348, R369): the target is retired; every copy in it whose source still stands is released and its map entry points back,
the copies that wait for it are not made, and what else stood there is copied into the replacement. -/
def State.copiesFail (s : State) (d p : Nat) : State :=
  let here (a : Nat) : Bool := a / 2048 == 4096 * d + p
  let back := s.ftl.units.filter (fun (a, u) => here a && u.old.state != 0)
  let s := back.foldl (fun (s : State) (a, u) =>
    let e := s.mapEnt u.nsx u.lua
    if u.kind == .data && (e.state == 1 || e.state == 3) && e.at_ == a then s.setMap u.nsx u.lua u.old else s) s
  let s := { s with ftl := { s.ftl with units := s.ftl.units.filter (fun (a, u) => !(here a && u.old.state != 0)) } }
  let left := s.ftl.units.filter (fun (a, _) => here a)
  let wp := Nat.min 2047 (padTo 4 (left.foldl (fun n x => Nat.max n (puaUnit x.1 + 1)) 0))
  let s := s.updDie d (fun x => { x with writes := x.writes.filter (fun w => !(w.pos == p && (match w.serves with
    | .units _ (some _) _ => true
    | _ => false))) })
  let s := ((s.retire d p).copyBelow d left.length (ceilDiv left.length 4)).updBlk d p (fun b => { b with wp := wp })
  (if wp = 0 then s else s.dateBlock d p).checkBlocksLeft

/-- What stays of a word line of the translation layer whose program has ended (R361, R367, R369). Where the block has left the translation layer meanwhile,
nothing does. -/
def State.unitsEnd (s : State) (d p : Nat) (us : List (FUnit × MapEnt)) (copies passes : Bool) : State :=
  if ((s.die d).blk p).use != .open_ then s
  else match copies, passes with
  | false, true => s.bufferProgrammed d p us
  | false, false => s.hostLineFails d p
  | true, true => s.copiesProgrammed d p us
  | true, false => s.copiesFail d p

/-- GARBAGE_COLLECTION (R330, R366 to R369): the victim's units are read, and their copies join the write queue of the target's die, in word lines, for a block
with room; DIE_PROGRAM_DONE switches the map, and when every copy stands the victim's erase joins its die's queue. -/
def execGarbageCollection (die : Fin 512) (pos : Fin 4096) (toDie : Fin 512) (toPos : Fin 4096) (bad : List Nat)
    (programFails eraseFails : Bool) (s : State) : Out :=
  let (d, p, td, tp) := (die.val, pos.val, toDie.val, toPos.val)
  .next (
    let x := s.die td
    let b := x.blk tp
    if !s.isVictim d p || s.copiesQueued (4096 * d + p) || (d == td && p == tp) then s
    else
      let s0 := s
      let s := s.mergeFrom d p bad
      let cs := s.copies d p bad
      let room := !x.failed && !x.inWindow tp && decide (x.planned tp + cs.length ≤ 2047) && (b.use == .open_ || (b.use == .free && decide (0 < x.freeBlocks) && !b.erasing && x.leastWorn tp && s0.opensOn td))
      if !s0.uncollected d p then (s0.eraseVictim d p eraseFails).serveWaiters
      else if cs.isEmpty then (s.eraseVictim d p eraseFails).serveWaiters
      else if !room then s0.checkBlocksLeft
      else
        let s := s.readVictim d cs.length (cs.countP (fun c => c.2.2))
        let s := cs.foldl (fun s (u, _, l) => if l then (s.unitLost u 0xFFFF).2 else s) s
        let (us, s) := s.bumpGen cs
        let s := if b.use == .open_ then s else s.openBlock td tp
        (wordLines us).zipIdx.foldl (fun (s : State) (l, i) =>
          s.queueWrite td ⟨tp, false, true, .units l (some (4096 * d + p, eraseFails)) (programFails && i == 0)⟩) s)

/-- PATROL (R336, R377): the summary of a closed block is read once per 10,080 minutes of epoch, and its age, temperature or retry depth
may call for a refresh. Whether a read that took step 7 fails there is free (log entry 217). -/
def execPatrol (die : Fin 512) (pos : Fin 4096) (depth : Fin 8) (s : State) : Out :=
  let d := die.val
  let p := pos.val
  .next (
    let key := 4096 * d + p
    let due := (find key s.media.patrolled).isNone || decide (getD 0 s.media.patrolled key + 10080 ≤ s.time.epoch.toNat)
    if (s.die d).failed || ((s.die d).blk p).use != .closed || !due then s
    else
      let (n, s) := s.draw
      let bad := depth == 7 && Config.readFails n
      let s := s.updChan d (fun c => { c with
        reads := c.reads + 1, retries := c.retries + BitVec.ofNat 64 depth.val, uncorr := if bad then c.uncorr + 1 else c.uncorr })
      let s := { s with media := { s.media with patrolled := put key s.time.epoch.toNat s.media.patrolled } }
      s.noteRefresh d p (decide (5 ≤ depth.val)))

end Sys2Proof.Machine
end

