-- ==== Sys2Proof/Machine/Matrix.lean ====
section
/-! DEFINITION. The matrix group and the array (06 R152 to R156; 04 R79 to R95; 03 R52 to R66; 05 R112, R135 to R137). -/
namespace Sys2Proof.Machine

/-- The code format of panel b, the weights (R52). -/
def Pair.weights : Pair → Code
  | .q4aq4a => .q4a
  | .q2aq4a => .q2a
  | .ternq4a => .tern
  | .q2a => .q2a
  | .tern => .tern
  | .mxfp4 => .mxfp4
/-- The code format of panel a, the activations (R52). -/
def Pair.acts : Pair → Code
  | .q4aq4a => .q4a
  | .q2aq4a => .q4a
  | .ternq4a => .q4a
  | .q2a => .q2a
  | .tern => .tern
  | .mxfp4 => .mxfp4
/-- Whether a cell forms two products per cycle (R78). -/
def Pair.double : Pair → Bool
  | .q2a => true
  | .tern => true
  | _ => false

/-- Groups of a reduction length. -/
def groupsOf (k : Nat) : Nat := ceilDiv k 32
/-- Spans of a reduction length (R65). -/
def spansOf (k : Nat) : Nat := ceilDiv k 256
/-- Chunks per row of a code panel (R94). -/
def codeChunks (c : Code) (k : Nat) : Nat := ceilDiv (k * c.width) 512
/-- Chunks per row of a metadata panel (R95). -/
def metaChunks (c : Code) (k : Nat) : Nat := if c = .mxfp4 then ceilDiv (groupsOf k) 64 else ceilDiv (4 * groupsOf k) 64

/-! ## The arithmetic of one output (R53 to R66) -/

/-- Group `g` of panel row `n`: decoded integers, codes read as TERN 0b10, and the metadata (R53, R55, R95). -/
def readGroup (m : Mem) (c : Code) (b bm k n g : Nat) : List Int × Nat × W32 :=
  let w := c.width
  let x := panelNat m b (codeChunks c k) n (4 * w * g) (4 * w)
  let md : W32 := if c = .mxfp4 then BitVec.ofNat 32 (panelNat m bm (metaChunks c k) n g 1)
                  else BitVec.ofNat 32 (panelNat m bm (metaChunks c k) n (4 * g) 4)
  let cs := (List.range 32).map (unpackCode w x)
  (cs.map (codeInt c md), if c = .tern then cs.countP (· == 2) else 0, md)

/-- The exact sum of products (R53). -/
def dotInt (a b : List Int) : Int := ((a.zip b).map (fun (x, y) => x * y)).foldl (· + ·) 0

/-- T = RNE(FP32(G) × RNE(sa × sw)), and whether both scales are finite (R56, R57, R64). -/
def scaledTerm (g : Int) (sa sw : W32) : W32 × Bool :=
  (rMul (f32OfInt g) (rMul (metaScale32 sa) (metaScale32 sw)), !nonFinite (metaScale32 sa) && !nonFinite (metaScale32 sw))

/-- The term of an MXFP4 group (R58). -/
def mxTerm (q : Int) (ea eb : Nat) : W32 × Bool :=
  if ea = 255 ∨ eb = 255 then (nan32, false)
  else (BitVec.ofNat 32 (fmtF32.encode false (.num (decide (q < 0)) q.natAbs ((ea : Int) + eb - 256))).1, true)

/-- The term of group `g` for activation row `r` and output column `j` (R56 to R58). -/
def groupTerm (m : Mem) (p : Pair) (pn : Panels) (k r j g : Nat) : W32 × Bool :=
  let (wi, _, wm) := readGroup m p.weights pn.w pn.wm k j g
  let (ai, _, am) := readGroup m p.acts pn.a pn.am k r g
  if p = .mxfp4 then mxTerm (dotInt wi ai) am.toNat wm.toNat else scaledTerm (dotInt wi ai) am wm

/-- The spur term of local span `q` (R59). -/
def spurTerm (m : Mem) (pn : Panels) (spans r j q : Nat) : W32 × Bool :=
  let cc := ceilDiv (32 * spans) 64
  let mc := ceilDiv (4 * spans) 64
  let row (b bm n : Nat) : List Int × W32 :=
    let md := BitVec.ofNat 32 (panelNat m bm mc n (4 * q) 4)
    ((List.range 32).map (fun i => codeInt .q8a md (panelByte m b cc n (32 * q + i)).toNat), md)
  let (wi, wm) := row pn.w pn.wm j
  let (ai, am) := row pn.a pn.am r
  scaledTerm (dotInt wi ai) am wm

/-- The chain of R62: each term is added; the first opens the chain when nothing precedes it. -/
def chain : Option W32 → List (W32 × Bool) → Option W32
  | acc, [] => acc
  | none, t :: ts => chain (some t.1) ts
  | some x, t :: ts => chain (some (rAdd x t.1)) ts

/-- The terms of one output in order: groups of each span, then its spur term when COUNT is not 0 (R62). -/
def termsOf (m : Mem) (e : QEntry) (r j : Nat) : List (W32 × Bool) :=
  (List.range (spansOf e.k)).flatMap (fun q =>
    let gs := ((List.range 8).map (fun i => 8 * q + i)).filter (fun g => decide (g < groupsOf e.k))
    gs.map (groupTerm m e.pair e.panels e.k r j) ++
      (match e.spur with
       | some (sp, spans) => if ((spans[q]?).map SpurSpan.count).getD 0 = 0 then [] else [spurTerm m sp (spansOf e.k) r j q]
       | none => []))

/-- The elements of a panel read as TERN 0b10 over all its rows (R55). A 0b10 that a panel holds at a pad position, at or beyond K, is
counted like any other (log entry 153, the model's choice: R30 says that pads hold 0b00). -/
def panelInv (m : Mem) (c : Code) (b bm k rows : Nat) : Nat :=
  ((List.range rows).map (fun n => ((List.range (groupsOf k)).map (fun g => (readGroup m c b bm k n g).2.1)).foldl (· + ·) 0)).foldl (· + ·) 0

/-- Bank and element of output (r, j) (R92). -/
def outSlot (f : AForm) (base r j : Nat) : Nat × Nat :=
  match f with
  | .standard => (base + r / 4, 64 * (r % 4) + j)
  | .wide => (base, j)
  | .deep => (base, 16 * r + j)

/-- The banks an instruction writes (R92, R93). -/
def banksOf (f : AForm) (base m : Nat) : List Nat :=
  match f with
  | .standard => (List.range (ceilDiv m 4)).map (base + ·)
  | _ => [base]

/-- The destination format (R153). -/
def dstFmt (d : Nat) : Fmt := if d = 1 then fmtBf16 else if d = 2 then fmtF16 else if d = 3 then fmtE5m2 else fmtF32

/-- One output in its destination format and what it counts (R64). -/
def outputOf (d : Nat) (ftz : Bool) (x : W32) (finite : Bool) : W32 × Ev :=
  let (b, ev) := (dstFmt d).encode ftz (f32 x)
  let ev := match (dstFmt d).decode b with
    | .nan => .nanp
    | .inf _ => if finite then .ovf else .none
    | .num _ _ _ => if ev = .flush then .flush else .none
  (BitVec.ofNat 32 b, ev)

/-! ## Issue -/

/-- The form chosen for a share, or none when it is refused (R79, R86, R88). -/
def chooseForm (form : Nat) (spur : Bool) (m n : Nat) : Option AForm :=
  let fits (f : AForm) : Option AForm :=
    match f with
    | .standard => if 1 ≤ m ∧ m ≤ 16 ∧ 1 ≤ n ∧ n ≤ 64 then some f else none
    | .wide => if m = 1 ∧ 1 ≤ n ∧ n ≤ 256 ∧ !spur then some f else none
    | .deep => if 1 ≤ m ∧ m ≤ 16 ∧ 1 ≤ n ∧ n ≤ 16 ∧ !spur then some f else none
  if form = 1 then fits .standard
  else if form = 2 then fits .wide
  else if form = 3 then fits .deep
  else if spur then fits .standard
  else if m = 1 ∧ 17 ≤ n ∧ n ≤ 256 then some .wide
  else if 1 ≤ m ∧ m ≤ 16 ∧ 1 ≤ n ∧ n ≤ 16 then some .deep
  else if 2 ≤ m ∧ m ≤ 16 ∧ 17 ≤ n ∧ n ≤ 64 then some .standard
  else none

/-- The limits of a share: form, block and banks (R79, R86, R92). -/
def shareForm (form : Nat) (spur : Bool) (base m n : Nat) : Option AForm :=
  match chooseForm form spur m n with
  | some .standard => if base + ceilDiv m 4 ≤ 4 then some .standard else none
  | x => x

/-- The share of rank `r`: M, N, K and first span (R135). -/
def shareShape (split mem r m n k : Nat) : Nat × Nat × Nat × Nat :=
  if split = 1 then ((shareOf m mem r).2, n, k, 0)
  else if split = 2 then
    let (f, c) := shareOf (ceilDiv n 16) mem r
    (m, Nat.min (16 * c) (n - 16 * f), k, 0)
  else if split = 3 then
    let (f, c) := shareOf (spansOf k) mem r
    (m, n, Nat.min (256 * c) (k - 256 * f), f)
  else (m, n, k, 0)

/-- Units that a split divides (R135). -/
def splitUnits (split m n k : Nat) : Nat :=
  if split = 1 then m else if split = 2 then ceilDiv n 16 else if split = 3 then spansOf k else 1

/-- A spur map entry; none when it breaks R61 for a span of `len` channels. -/
def spurSpan (bs : List Byte) (len : Nat) : Option SpurSpan :=
  let n := ((bs[0]?).getD 0).toNat
  let cs := ((bs.drop 8).take n).map BitVec.toNat
  if 32 < n then none
  else if (cs.zip (cs.drop 1)).all (fun (a, b) => decide (a < b)) && cs.all (fun c => decide (c < len)) then some ⟨n, cs⟩
  else none

/-- The entries of a spur map for reduction length `k` (R61, R156). -/
def spurMap (m : Mem) (a k : Nat) : Option (List SpurSpan) :=
  (List.range (spansOf k)).mapM (fun p => spurSpan (m.rdBytes (a + 40 * p) 40) (Nat.min 256 (k - 256 * p)))

/-- A panel lies within bank rows 0 to 2,047 (R154). -/
def panelFits (b rows chunks : Nat) : Bool := decide (b ≤ 2047) && decide (b + panelSpan rows chunks ≤ 2048)

/-- The panels of a share of shape M, N, K with their extents in rows and chunks (R154, R155). -/
def panelList (p : Pair) (pn : Panels) (spur : Option Panels) (m n k : Nat) : List (Nat × Nat × Nat) :=
  [(pn.a, m, codeChunks p.acts k), (pn.am, m, metaChunks p.acts k), (pn.w, n, codeChunks p.weights k),
   (pn.wm, n, metaChunks p.weights k)] ++
  (match spur with
   | none => []
   | some sp =>
     let c := ceilDiv (32 * spansOf k) 64
     let mc := ceilDiv (4 * spansOf k) 64
     [(sp.a, m, c), (sp.am, m, mc), (sp.w, n, c), (sp.wm, n, mc)])

/-- The operand record at `a` (R154): panels, M, N, K; none when a reserved byte is not 0. -/
def operandRecord (m : Mem) (a : Nat) : Option (Panels × Nat × Nat × Nat) :=
  if (m.rdBytes (a + 16) 48).any (fun b => b != 0) then none
  else some (⟨m.rdNat a 2, m.rdNat (a + 2) 2, m.rdNat (a + 4) 2, m.rdNat (a + 6) 2⟩,
    m.rdNat (a + 8) 2, m.rdNat (a + 10) 2, m.rdNat (a + 12) 4)

/-- The spur record at `a` and its map (R155, R156): panels and spans, or the refusal. -/
def spurRecord (m : Mem) (a k : Nat) : Except W16 (Panels × List SpurSpan) :=
  let map := m.rdNat (a + 8) 4
  if a % 32 ≠ 0 ∨ !inSram a 32 ∨ (m.rdBytes (a + 12) 20).any (fun b => b != 0) ∨ map % 8 ≠ 0 ∨
      !inSram map (40 * spansOf k) then .error stInvalidOperand
  else match spurMap m map k with
    | none => .error stSpurMapInvalid
    | some spans => .ok (⟨m.rdNat a 2, m.rdNat (a + 2) 2, m.rdNat (a + 4) 2, m.rdNat (a + 6) 2⟩, spans)

/-- The spur that a core's main instruction names: none armed, the record with its map, or the refusal (R155). -/
def namedSpur (m : Mem) (arm : Option Nat) (k : Nat) : Except W16 (Option (Panels × List SpurSpan)) :=
  match arm with
  | none => .ok none
  | some a => match spurRecord m a k with
    | .error e => .error e
    | .ok x => .ok (some x)

/-- What the read of an operand record, and of the spur record and spur map that are armed, meets of the words known to hold an uncorrectable error
(R423). -/
def State.recordEcc (s : State) (phys : Nat) (m : Mem) (a : Nat) (arm : Option Nat) : EccHit :=
  let at_ (b n : Nat) : EccHit := s.eccOf 0 phys b n .clean
  match at_ a 64, arm with
  | .clean, some b => (match at_ b 32 with
    | .clean => at_ (m.rdNat (b + 8) 4) (40 * spansOf (m.rdNat (a + 12) 4))
    | x => x)
  | x, _ => x

/-- A main matrix instruction, checked at issue and placed in the shared array queue (R112, R135, R136, R152 to R156). It waits for the
core's earlier transfers that write into one of its panels (R98). A record with a word known to hold an uncorrectable error halts the array (R423). The
model's choices: it waits for no transfer into its operand record, spur
record or spur map (log entry 192); a map that breaks R61 is answered before a broken
limit (log entry 154); a member without a share of ROWS or COLS enters the queue too, in the form of rank 0 (log entry 155). -/
def mmaAct (pair : Pair) (ag : Agent) (w : IWord) (s : State) : Act :=
  match ag with
  | .ctx _ _ => .hold
  | .core t c =>
    let k := s.core t.val c.val
    let tile := s.tile t.val
    let a := (k.r.rs w.srcA).toNat
    let imm := w.imm.toNat
    let split := imm / 128 % 4
    let acc := w.imm.getLsbD 6
    let dfmt := imm / 16 % 4
    let form := imm / 4 % 4
    let base := w.dst.toNat
    let job := k.r.job.getD 0
    let mem := Nat.max 1 (s.jobField k.r.job (fun j => j.nmem)).toNat
    let rank := (s.jobField k.r.job (fun j => j.rankOf t.val)).toNat
    if a % 64 ≠ 0 ∨ !inSram a 64 then .refuse stInvalidOperand
    else match s.recordEcc (s.physOf t.val) tile.sram a k.spur with
    | .uncorrectable addr => .await (if tile.halted.isSome then s
        else (s.noteUe (s.srcTile t.val) 0 (s.physOf t.val) 3 addr).haltTile t.val c.val addr.toNat) [16]
    | _ => match operandRecord tile.sram a with
    | none => .refuse stInvalidOperand
    | some (pn, m, n, kk) =>
      match namedSpur tile.sram k.spur kk with
      | .error e => .refuse e
      | .ok sp =>
        let taking := Nat.min mem (splitUnits split m n kk)
        let shapes := if taking = 0 ∨ split = 0 then [(m, n, kk, 0)] else (List.range taking).map (fun r => shareShape split mem r m n kk)
        let forms := shapes.map (fun (x : Nat × Nat × Nat × Nat) => shareForm form sp.isSome base x.1 x.2.1)
        let mine : Nat × Nat × Nat × Nat := if split = 0 then (m, n, kk, 0) else if rank < taking then shareShape split mem rank m n kk
          else if split = 3 then (m, n, 0, 0) else (0, 0, kk, 0)
        let panels := panelList pair pn (sp.map Prod.fst) mine.1 mine.2.1 mine.2.2.1
        let myForm := ((if split = 0 then forms[0]? else if rank < taking then forms[rank]? else forms[0]?).getD none).getD .standard
        if m = 0 ∨ n = 0 ∨ forms.any Option.isNone ∨ (acc ∧ dfmt ≠ 0) ∨ !panels.all (fun (b, r, ch) => panelFits b r ch) then
          .refuse stInvalidOperand
        else if tile.queue.length ≥ 16 then .await s [16]
        else if panels.any (fun (b, r, ch) => s.streamMeets t.val c.val (1024 * b) (1024 * panelSpan r ch) false) then
          .await s (panels.flatMap (fun (b, r, ch) => (s.meeting t.val c.val (1024 * b) (1024 * panelSpan r ch) false).map (fun x => x.dsc)))
        else
          let red := split == 3
          let ordinal := getD 0 k.calls 0
          let spans := sp.map (fun (p, l) => (p, if red then (l.drop mine.2.2.2).take (spansOf mine.2.2.1) else l))
          let e : QEntry := {
            core := c.val, job := job, word := k.r.pc.toNat, stamp := w.stamp, pair := pair, form := myForm,
            bank := base, accumulate := acc, dfmt := dfmt, ftz := k.ftz, m := mine.1, n := mine.2.1, k := mine.2.2.1,
            red := red, taking := taking, ordinal := ordinal, rank := rank, panels := pn, spur := spans,
            started := false, outs := [], inv := 0 }
          let k' := { k with spur := none, busy := k.busy ++ (if mine.1 = 0 ∨ mine.2.1 = 0 then [] else banksOf myForm base mine.1),
                             calls := if red then put 0 (ordinal + 1) k.calls else k.calls }
          let s := s.setCore t.val c.val k'
          .async (s.setTile t.val { s.tile t.val with queue := tile.queue ++ [e] })

/-- How a main matrix instruction is encoded (R152, R153): WFMT is unused but on MMA.Q4A. -/
def opMma (minor : Nat) (imm : W32) : Op :=
  { major := 0x1C, minor := minor, dst := .acc, a := .s, imm := imm, refusable := true, accept := .core }

/-- MMA.Q4A (R152): WFMT selects the weights, 3 takes ILLEGAL_INSTR. -/
def execMmaQ4a (ag : Agent) (w : IWord) (s : State) : Out :=
  .next (if w.imm.toNat % 4 = 3 then s.issue { opMma 0x00 0x1FF with imm := 0x1FC } ag w (fun _ => .hold)
    else s.issue (opMma 0x00 0x1FF) ag w
      (mmaAct (if w.imm.toNat % 4 = 0 then .q4aq4a else if w.imm.toNat % 4 = 1 then .q2aq4a else .ternq4a) ag w))

/-- MMA.Q2A (R152). -/
def execMmaQ2a (ag : Agent) (w : IWord) (s : State) : Out := .next (s.issue (opMma 0x01 0x1FC) ag w (mmaAct .q2a ag w))

/-- MMA.TERN (R152). -/
def execMmaTern (ag : Agent) (w : IWord) (s : State) : Out := .next (s.issue (opMma 0x02 0x1FC) ag w (mmaAct .tern ag w))

/-- MMA.MXFP4 (R152). -/
def execMmaMxfp4 (ag : Agent) (w : IWord) (s : State) : Out := .next (s.issue (opMma 0x03 0x1FC) ag w (mmaAct .mxfp4 ag w))

/-- MMA.SPUR (R155): arms, replaces, or with s0 disarms; a record beyond SRAM is refused (R501). It forms no output, and CREC stays as it
was (log entry 156, the model's choice). -/
def execMmaSpur (ag : Agent) (w : IWord) (s : State) : Out :=
  .next (s.issue { major := 0x1C, minor := 0x08, a := .s, refusable := true, accept := .core } ag w (fun s =>
    match ag with
    | .ctx _ _ => .hold
    | .core t c =>
      let k := s.core t.val c.val
      let a := (k.r.rs w.srcA).toNat
      if w.srcA = 0 then .done (s.setCore t.val c.val { k with spur := none })
      else if !inSram a 32 then .refuse stInvalidOperand
      else .done (s.setCore t.val c.val { k with spur := some a })))

/-! ## The array -/

/-- Channels per latch of a form, doubled for a double-rate pair that names no spur map (R79, R88). -/
def channelsPerLatch (e : QEntry) : Nat :=
  (match e.form with
   | .standard => 16
   | .wide => 4
   | .deep => 64) * (if e.pair.double && e.spur.isNone then 2 else 1)

/-- Products of main cells of an entry, pads counted (R102) up to whole latches of the form (log entry 157, the model's choice). -/
def macsOf (e : QEntry) : Nat := ceilDiv e.k (channelsPerLatch e) * channelsPerLatch e * e.n * e.m

/-- The chain values of an entry (R62 to R65): C opens the chain when accumulating, at rank 0 alone under RED. -/
def entryOuts (m : Mem) (k : Core) (e : QEntry) : List (Nat × W32 × Bool) :=
  if e.k = 0 then [] else
  (List.range e.m).flatMap (fun r => (List.range e.n).map (fun j =>
    let (b, x) := outSlot e.form e.bank r j
    let c : Option W32 := if e.accumulate && (!e.red || e.rank == 0) then some (k.racc b x) else none
    let ts := termsOf m e r j
    (256 * r + j, (chain c ts).getD 0, ts.all Prod.snd && (match c with
      | some v => !nonFinite v
      | none => true))))

/-- Whether the line of SRAM that holds address `a` is one that the array reads of a panel of `rows` rows and `c` chunks at bank row `b`:
unused lines of a last block are not read (R95). -/
def panelReads (b rows c a : Nat) : Bool :=
  let x := a / 1024 - b
  let n := 16 * (x / c) + (a / 64 % 16 + 16 - x % c % 16) % 16
  decide (1024 * b ≤ a) && decide (a < 1024 * (b + panelSpan rows c)) && decide (n < rows)

/-- What the array's reads of an entry's panels find (R423): a word of them that holds an uncorrectable error, or what the command reports. -/
def State.panelsEcc (s : State) (phys : Nat) (e : QEntry) (m : EccHit) : EccHit :=
  if e.k = 0 then .clean
  else
    let ps := panelList e.pair e.panels (e.spur.map Prod.fst) e.m e.n e.k
    match s.ecc.bad.find? (fun w => w.kind == 0 && w.unit == phys && ps.any (fun (b, r, ch) => panelReads b r ch w.addr)) with
    | some w => .uncorrectable (BitVec.ofNat 40 w.addr)
    | none => m

/-- The array takes the next queued instruction, the oldest, when it has not started it (R87): the form is
re-cut when it changes, and the chain values are formed from the panels as they stand (R98). How long others waited for its
reads is free (log entry 145). An instruction with K = 0 changes no form, but SPUR shows its spur map (log entry 158, the model's choice).
An uncorrectable error of a word it reads halts the array before it is used (R423). -/
def execArrayInstructionStart (tile : Fin 256) (m : EccHit) (s : State) : Out :=
  let t := tile.val
  let x := s.tile t
  .next (match x.halted, x.queue with
  | none, e :: q =>
    if e.started then s else
    let go (s : State) : State :=
      let (n, s) := s.draw
      let x := s.tile t
      let re := decide (x.form ≠ e.form) && decide (e.k ≠ 0)
      let e' := { e with started := true, outs := entryOuts x.sram (s.core t e.core) e,
                         inv := if e.k = 0 then 0 else
                           (if e.pair.weights = .tern then panelInv x.sram .tern e.panels.w e.panels.wm e.k e.n else 0) +
                           (if e.pair.acts = .tern then panelInv x.sram .tern e.panels.a e.panels.am e.k e.m else 0) }
      s.setTile t { x with queue := e' :: q, form := if re then e.form else x.form, spurOn := e.spur.isSome,
                           reforms := if re then satInc x.reforms else x.reforms,
                           amac := x.amac + BitVec.ofNat 64 (macsOf e), abwait := x.abwait + Config.bankWaits n }
    match s.panelsEcc (s.physOf t) e m with
    | .uncorrectable addr =>
      let s := s.noteUe (s.srcTile t) 0 (s.physOf t) 3 addr
      s.haltTile t e.core addr.toNat
    | .correctable b addr => go (s.noteCe 0 (s.physOf t) 3 b addr)
    | .clean => go s
  | _, _ => s)

/-- The entry of a member's queue that belongs to the same RED call. -/
def redEntry (s : State) (t : Nat) (e : QEntry) : Option QEntry :=
  (s.tile t).queue.find? (fun f => f.red && f.job == e.job && f.core == e.core && f.ordinal == e.ordinal)

/-- Under RED, the tree values once every member that takes part on this drive has its partials (R65, R66);
a member on another drive contributes a free value (log entry 11). -/
def redOuts (s : State) (j : Job) (e : QEntry) : Option (List (Nat × W32 × Bool)) :=
  let at_ (r : Nat) : Option Nat := (j.tiles.find? (fun t => j.rankOf t == r))
  let parts := (List.range e.taking).map (fun r => match at_ r with
    | some t => match redEntry s t e with
      | some f => if f.started then some (fun (i : Nat) => ((f.outs[i]?).map (fun x => x.2.1)).getD 0, fun (i : Nat) => ((f.outs[i]?).map (fun x => x.2.2)).getD true) else none
      | none => none
    | none => some (fun i => Config.peerWord e.job e.ordinal r i, fun i => Config.peerFinite e.job e.ordinal r i))
  if parts.any Option.isNone then none
  else
    let ps := parts.filterMap id
    some ((List.range (e.m * e.n)).map (fun i =>
      (256 * (i / e.n) + i % e.n, treeSum (ps.map (fun p => p.1 i)), ps.all (fun p => p.2 i))))

/-- Gives the tree values to every listed member's entry of a RED call (R136). -/
def spreadRed (s : State) (e : QEntry) (outs : List (Nat × W32 × Bool)) : List Nat → State
  | [] => s
  | t :: ts =>
    let x := s.tile t
    spreadRed (s.setTile t { x with queue := x.queue.map (fun f =>
      if f.red && f.job == e.job && f.core == e.core && f.ordinal == e.ordinal then
        { f with red := false, given := true, started := true, outs := if f.taking = 0 then [] else outs } else f) }) e outs ts

/-- The tiles of a job that have not issued a RED call yet; they take its tree values when they do (R136). -/
def lateTiles (s : State) (j : Job) (e : QEntry) : List Nat := j.tiles.filter (fun t => (redEntry s t e).isNone)

/-- A RED call's tree values for the entry of tile `t`, given to it and to every other member that has issued the call (R66, R136); none while
a member's partials are still to form. -/
def redGive (s : State) (j : Job) (e : QEntry) (t : Nat) : Option State :=
  match j.redDone.find? (fun x => x.core == e.core && x.ordinal == e.ordinal && x.tiles.contains t) with
  | some x => some (spreadRed s e x.outs [t])
  | none => (redOuts s j e).map (fun o =>
    let late := lateTiles s j e
    let s := if late.isEmpty then s else s.updJob j.num (fun j => { j with redDone := j.redDone ++ [⟨e.core, e.ordinal, late, o⟩] })
    spreadRed s e o j.tiles)

/-- Removes one occurrence of each bank from the busy list (R93). -/
def freeBanks (busy banks : List Nat) : List Nat := banks.foldl (fun b x => b.erase x) busy

/-- Writes an entry's outputs, its counter record and its cairn, and removes it (R47, R64, R92, R93, R131); the spur pipeline is then idle
(R102). -/
def State.writeEntry (s : State) (tile : Fin 256) (e : QEntry) (q : List QEntry) (status : W16) : State :=
  let t := tile.val
  let rs := e.outs.map (fun (i, x, fin) => (i, outputOf e.dfmt e.ftz x fin))
  let ct := if status = 0 then (countEvs (rs.map (fun r => r.2.2))).bump .inv e.inv else {}
  let k := s.core t e.core
  let k := if status = 0 then rs.foldl (fun k (r : Nat × W32 × Ev) =>
      let (b, el) := outSlot e.form e.bank (r.1 / 256) (r.1 % 256)
      k.wacc b el r.2.1) k else k
  let k := { k with crec := crecOf ct, r := k.r.outcome status,
                    busy := freeBanks k.busy (if e.m = 0 ∨ e.n = 0 then [] else banksOf e.form e.bank e.m),
                    awaits := k.awaits.map (fun (p, ds) => (p, ds.filter (fun d => d != 16))) }
  let s := s.setCore t e.core k
  let s := s.setTile t { s.tile t with queue := q, spurOn := !e.started && (s.tile t).spurOn }
  (s.count (some e.job) ct.stop20).stampIf e.stamp (.core tile (Fin.ofNat 4 e.core)) (BitVec.ofNat 64 e.word)

/-- The oldest instruction's last output is written (R93, R112). Under RED that waits until every taking-part member's
partials are formed; a core whose cairn cannot be stamped stalls the output (R180). -/
def execMatrixOutputWritten (tile : Fin 256) (s : State) : Out :=
  .next (s.orStall (match (s.tile tile.val).queue with
  | [] => s
  | e :: _ =>
    if !e.started then s
    else
      let s1 : Option State :=
        if e.red then match s.job? e.job with
          | none => none
          | some j => redGive s j e tile.val
        else some s
      match s1 with
      | none => s
      | some s1 => match (s1.tile tile.val).queue with
        | [] => s
        | e1 :: q1 => s1.writeEntry tile e1 q1 stOk))

end Sys2Proof.Machine
end

