-- ==== Sys2Proof/Machine/Index.lean ====
section
/-! DEFINITION. Indexes: descriptor, node IDs, codes, distance tables, exact scores, hiding and views
(09 R246 to R254, R269 to R273, R280, R281). -/
namespace Sys2Proof.Machine

/-! ## The descriptor (R247, R248) -/

/-- A slot-table entry. -/
structure SlotEnt where
  handle : W32
  records : Nat
  shard : Nat
  deriving DecidableEq, Repr

/-- The index descriptor with its tables. -/
structure IndexD where
  clusters : List Nat
  nextId : Nat
  cent : List W32
  moraineLimit : Nat
  moraineRows : Nat
  m : Nat
  dim : Nat
  maxdeg : Nat
  shards : Nat
  layers : Nat
  metric : Nat
  slots : List SlotEnt
  /-- handle and records of each entry layer, shard-major, layer 1 first -/
  layerTab : List (W32 × Nat)
  deriving DecidableEq, Repr

/-- Elements per subspace. -/
def IndexD.sub (d : IndexD) : Nat := d.dim / d.m
/-- Bytes of a stored vector (R249). -/
def IndexD.v (d : IndexD) : Nat := 5 * d.dim / 8

/-- Whether the fields of a descriptor lie in range and its reserved bytes are 0 (R248). -/
def descriptorOk (o : Obj) : Bool :=
  let m := o.field 24 2
  let dim := o.field 22 2
  let maxdeg := o.field 21 1
  let shards := o.field 20 1
  let limit := o.field 32 4
  let mrows := o.field 28 4
  let nslot := o.field 26 2
  let layers := o.field 19 1
  let cl := (List.range shards).map (fun s => o.field 56 8 / 16 ^ s % 16)
  decide (64 ≤ o.size) && o.field 0 4 == 0x58445A55 && o.field 4 1 == 1 && o.field 5 13 == 0 && decide (o.field 48 8 < 2 ^ 40) &&
  decide (8 ≤ m) && decide (m ≤ 256) && m % 8 == 0 && decide (0 < dim) && decide (dim ≤ 4096) && dim % 32 == 0 && dim % m == 0 &&
  decide (1 ≤ maxdeg) && decide (1 ≤ shards) && decide (shards ≤ 16) && decide (layers ≤ 15) && decide (o.field 18 1 ≤ 2) &&
  decide (1 ≤ nslot) && decide (nslot ≤ 4096) && decide (65536 ≤ limit) && decide (limit ≤ 1073741824) &&
  decide (65536 ≤ mrows) && decide (mrows ≤ limit) && decide (32 + 5 * dim / 8 + maxdeg * (6 + m / 2) ≤ 2048) &&
  cl.eraseDups.length == cl.length &&
  decide (o.field 44 4 + 64 * dim ≤ o.size) && decide (o.field 40 4 + 16 * nslot ≤ o.size) &&
  decide (o.field 36 4 + 16 * shards * layers ≤ o.size) &&
  (List.range nslot).all (fun i => (o.data.rdBytes (o.field 40 4 + 16 * i + 9) 7).all (fun b => b == 0)) &&
  (List.range (shards * layers)).all (fun i => (o.data.rdBytes (o.field 36 4 + 16 * i + 8) 8).all (fun b => b == 0))

/-- The descriptor of a CODEBOOK object (R247). -/
def readDescriptor (o : Obj) : IndexD :=
  let shards := o.field 20 1
  let layers := o.field 19 1
  { clusters := (List.range shards).map (fun s => o.field 56 8 / 16 ^ s % 16), nextId := o.field 48 8,
    cent := (List.range (16 * o.field 22 2)).map (fun i => BitVec.ofNat 32 (o.field (o.field 44 4 + 4 * i) 4)),
    moraineLimit := o.field 32 4, moraineRows := o.field 28 4, m := o.field 24 2, dim := o.field 22 2,
    maxdeg := o.field 21 1, shards := shards, layers := layers, metric := o.field 18 1,
    slots := (List.range (o.field 26 2)).map (fun i =>
      let a := o.field 40 4 + 16 * i
      ⟨BitVec.ofNat 32 (o.field a 4), o.field (a + 4) 4, o.field (a + 8) 1⟩),
    layerTab := (List.range (shards * layers)).map (fun i =>
      let a := o.field 36 4 + 16 * i
      (BitVec.ofNat 32 (o.field a 4), o.field (a + 4) 4)) }

/-- Whether a named object has the type, direct format and size that the descriptor says (R248). -/
def State.namesRecords (s : State) (h : W32) (typ records : Nat) : Bool :=
  match s.live? h with
  | none => false
  | some o => o.typ == typ && o.direct && o.blkshift == 11 && o.size == 2048 * records && o.state != 0

/-- The checks of a CODEBOOK at its seal (R248): an empty slot names no object and takes no SHARD check (log entry 25). -/
def State.codebookOk (s : State) (o : Obj) : Bool :=
  descriptorOk o && (
    let d := readDescriptor o
    d.slots.zipIdx.all (fun (e, i) => e.handle == 0 ||
      (decide (e.shard < d.shards) && s.namesRecords e.handle 4 e.records && decide (268435456 * i + e.records ≤ d.nextId))) &&
    d.layerTab.all (fun (h, n) => s.namesRecords h 5 n))

/-- The codes of a row for a job bound to a CODEBOOK (R18, R269): those that it had before a re-encode replaced that CODEBOOK. -/
def Row.codesUnder (r : Row) (h : Nat) : List Nat := (find h r.older).getD r.codes

/-- The CODEBOOK that names an index now: that of the last swap, for one that a swap replaced (R245, R278). -/
def State.indexKey (s : State) (h : W32) : Nat := (find h.toNat s.idx.heads).getD h.toNat

/-- The state of an index: one, whichever of its CODEBOOKs names it (R245, R278). -/
def State.index? (s : State) (h : W32) : Option IndexSt := find (s.indexKey h) s.idx.all
/-- Applies `f` to an index. -/
def State.updIndex (s : State) (h : W32) (f : IndexSt → IndexSt) : State :=
  match s.index? h with
  | some x => { s with idx := { s.idx with all := put (s.indexKey h) (f x) s.idx.all } }
  | none => s

/-- The descriptor of an index as a CODEBOOK gives it. -/
def State.indexD? (s : State) (h : W32) : Option IndexD :=
  match s.obj? h with
  | some o => if (s.index? h).isSome then some (readDescriptor o) else none
  | none => none

/-- The slot that a node ID names (R246); none when the slot is empty or the record lies beyond it. -/
def IndexD.slotOf (d : IndexD) (node : Nat) : Option SlotEnt :=
  match d.slots[node / 268435456]? with
  | some e => if e.handle ≠ 0 ∧ node % 268435456 < e.records then some e else none
  | none => none

/-- The entry layer ℓ of a shard (R254): handle and records. -/
def IndexD.layer (d : IndexD) (shard l : Nat) : Option (W32 × Nat) :=
  if l = 0 ∨ d.layers < l then none else d.layerTab[shard * d.layers + l - 1]?

/-! ## Codes and tables (R250 to R253) -/

/-- The chain of RNE additions from +0 (R250). -/
def chainSum (xs : List W32) : W32 := xs.foldl rAdd 0

/-- e_c of R250. -/
def errOf (x u : List W32) : W32 := chainSum ((List.zipWith rSub x u).map (fun d => rMul d d))

/-- Centroid `c` of subspace `j`. -/
def IndexD.centroid (d : IndexD) (j c : Nat) : List W32 := (d.cent.drop ((16 * j + c) * d.sub)).take d.sub

/-- Elements of subspace `j` of a vector. -/
def IndexD.part (d : IndexD) (x : List W32) (j : Nat) : List W32 := (x.drop (j * d.sub)).take d.sub

/-- The position of the least value, the lowest on ties. -/
def argMin (xs : List W32) : Nat :=
  (xs.zipIdx.foldl (fun (b : Option (W32 × Nat)) x => match b with
    | none => some x
    | some y => if fLt x.1 y.1 then some x else some y) none).map Prod.snd |>.getD 0

/-- The code of a vector (R250); with a NaN among the e_c of a subspace, its code there is free (log entry 24). -/
def IndexD.code (d : IndexD) (x : List W32) : List Nat :=
  (List.range d.m).map (fun j =>
    let es := (List.range 16).map (fun c => errOf (d.part x j) (d.centroid j c))
    if es.any isNan then Config.codePick es % 16 else argMin es)

/-- The vector normalised for COS (R251). -/
def normalise (q : List W32) : List W32 :=
  let n := (fSqrt false (chainSum (q.map (fun x => rMul x x)))).1
  q.map (fun x => (fDiv false x n).1)

/-- Negation of an FP32 value, NaN kept. -/
def negF (x : W32) : W32 := if isNan x then x else x ^^^ 0x80000000

/-- x_jc of R251; `q` is normalised for COS already. -/
def IndexD.xjc (d : IndexD) (q : List W32) (j c : Nat) : W32 :=
  if d.metric = 0 then errOf (d.part q j) (d.centroid j c)
  else negF (chainSum (List.zipWith rMul (d.part q j) (d.centroid j c)))

/-- The largest and the least of a list. -/
def maxOf (xs : List W32) : W32 := match xs with
  | [] => 0
  | x :: xs => xs.foldl fMax x
/-- The least of a list. -/
def minOf (xs : List W32) : W32 := match xs with
  | [] => 0
  | x :: xs => xs.foldl fMin x

/-- A table entry (R252 step 4): the exact quotient, ties to even, clamped; free when a value is not finite (log entry 24). -/
def tableEnt (diff delta : W32) : Nat :=
  match f32 diff, f32 delta with
  | .num s m e, .num _ n f =>
    if n = 0 then 0
    else
      let (a, b) := ratio m e n f
      if s then 0 else Nat.min 255 (rne a b)
  | _, _ => Config.tableEntry diff delta % 256

/-- The distance tables (R252), T[j][c] at 16j + c; `q` is normalised for COS already. -/
def IndexD.tables (d : IndexD) (q : List W32) : List Nat :=
  let xs := (List.range d.m).map (fun j => (List.range 16).map (d.xjc q j))
  let spans := xs.map (fun r => rSub (maxOf r) (minOf r))
  let delta := (fDiv false (maxOf spans) 0x437F0000).1
  if delta &&& 0x7FFFFFFF = 0 then List.replicate (16 * d.m) 0
  else xs.flatMap (fun r => r.map (fun x => tableEnt (rSub x (minOf r)) delta))

/-- The sum of R253 before its clamp. -/
def rawDist (tables : List Nat) (mask : W256) (penalty : Nat) (codes : List Nat) (label : Byte) : Nat :=
  (codes.zipIdx.map (fun (c, j) => (tables[16 * j + c]?).getD 0)).foldl (· + ·) 0 +
  (if mask.getLsbD label.toNat then 0 else penalty)

/-- The coarse distance D (R253). -/
def coarse (raw : Nat) : Nat := Nat.min 0xFFFF raw

/-! ## Stored vectors and exact scores (R281) -/

/-- The query code in Q4A with zero point 8 (R76, R281): code bytes and metadata words. -/
def queryCode (q : List W32) : List Byte × List W32 :=
  let gs := toQ4aPow2 q
  (gs.flatMap (fun g => leBytes 16 (packCodes 4 g.1)), gs.map Prod.snd)

/-- The dot product of two Q4A vectors, by the rules of the array, with FP32 output (R281). -/
def dotQ4a (a : List Byte) (am : List W32) (b : List Byte) (bm : List W32) (dim : Nat) : W32 :=
  let g (cs : List Byte) (ms : List W32) (i : Nat) : List Int :=
    (List.range 32).map (fun e => codeInt .q4a ((ms[i]?).getD 0) (unpackCode 4 (leNat ((cs.drop (16 * i)).take 16)) e))
  (chain none ((List.range (ceilDiv dim 32)).map (fun i =>
    scaledTerm (dotInt (g a am i) (g b bm i)) ((am[i]?).getD 0) ((bm[i]?).getD 0)))).getD 0

/-- The exact score of a stored vector for a query (R281); `q` is normalised for COS already. -/
def IndexD.score (d : IndexD) (q : List W32) (vcode : List Byte) (vmeta : List W32) : W32 :=
  let (qc, qm) := queryCode q
  let dd := dotQ4a qc qm vcode vmeta d.dim
  if d.metric = 0 then
    rSub (rAdd (dotQ4a qc qm qc qm d.dim) (dotQ4a vcode vmeta vcode vmeta d.dim)) (rMul 0x40000000 dd)
  else negF dd

/-! ## Views, hiding and validity (R270 to R273) -/

/-- Whether a moraine row is valid for a view (R273). -/
def Row.valid (r : Row) (n base length : Nat) : Bool :=
  decide (base ≤ n) && decide (n < length) && !r.del && (r.sup == 0 || decide (length ≤ r.sup))

/-- Whether a key is hidden by the main key set for a view: some row of the view holds it (R272). -/
def IndexSt.hides (x : IndexSt) (key : W64) (base length : Nat) : Bool :=
  x.rows.any (fun (n, r) => r.key == key && decide (base ≤ n) && decide (n < length))

/-- Whether TRV.TOMB reports a node as deleted for a job (R271). -/
def IndexSt.deleted (x : IndexSt) (node length : Nat) : Bool :=
  x.tombs.contains node && !x.tlog.any (fun (n, r) => n == node && decide (length ≤ r))

/-! ## The tombstone bitmap (R271) -/

/-- The bytes of the tombstone bitmap: one bit for each record of each slot, slot after slot (R271; log entry 176). -/
def IndexD.tombBytes (d : IndexD) (tombs : List Nat) : List Byte :=
  d.slots.zipIdx.flatMap (fun (e, i) => leBytes (ceilDiv e.records 8)
    ((tombs.filter (fun n => n / 268435456 == i && decide (n % 268435456 < e.records))).eraseDups.foldl (fun a n => a + 2 ^ (n % 268435456)) 0))

/-- The byte of the tombstone bitmap that holds a node's bit (R271). -/
def IndexD.tombAt (d : IndexD) (node : Nat) : Nat :=
  ((d.slots.take (node / 268435456)).map (fun e => ceilDiv e.records 8)).foldl (· + ·) 0 + node % 268435456 / 8

/-- The TOMBSTONES object of an index shows its bitmap under the descriptor that names the index now (R271). -/
def State.showTombs (s : State) (h : W32) : State :=
  match s.index? h, s.indexD? (BitVec.ofNat 32 (s.indexKey h)) with
  | some x, some d =>
    let bs := d.tombBytes x.tombs
    s.updObj x.tombObj (fun o => { o with size := Nat.max 1 bs.length, data := memOf bs })
  | _, _ => s

end Sys2Proof.Machine
end

