-- ==== Sys2Proof/Machine/Query.lean ====
section
/-! DEFINITION. The fetch of the query commands (13 R395 to R401): their parameter blocks and payloads, and every check
of R244, R248, R286 to R293, R298 to R300, R309, R313 to R316. -/
namespace Sys2Proof.Machine

/-! ## Objects that a command names -/

/-- An object that a new job may bind (R218, R237). -/
def State.bindable (s : State) (h : W32) : Except W16 Obj :=
  match s.live? h with
  | none => .error stObjectUnknown
  | some o => if o.case_ = 3 then .error stObjectImpaired else .ok o

/-- The object that a handle stands for under the live OBJECT_REPLACE settings (R18, R201). -/
def State.replaced (s : State) (h : W32) : W32 := (find h.toNat s.set.replaces).getD h

/-- A role block (R300). -/
structure Role where
  reader : Bool
  kvheads : Nat
  layers : Nat
  dim : Nat
  maxtok : Nat
  headdim : Nat
  deriving DecidableEq, Repr

/-- The role block of a program: the first 64 bytes of its image, when they begin with the block's MAGIC (log entry 34). -/
def roleOf (o : Obj) : Option Role :=
  let role := o.field 4 1
  let r : Role := ⟨role == 2, o.field 15 1, o.field 14 1, o.field 12 2, o.field 8 4, o.field 6 2⟩
  if o.typ ≠ 8 ∨ o.size < 64 ∨ o.field 0 4 ≠ 0x4F525A55 ∨ o.field 5 1 ≠ 0 ∨ (o.data.rdBytes 16 48).any (fun b => b != 0) then none
  else if role = 1 then
    (if r.kvheads = 0 ∧ r.layers = 0 ∧ r.headdim = 0 ∧ r.dim ≠ 0 ∧ 1 ≤ r.maxtok ∧ r.maxtok ≤ 65536 then some r else none)
  else if role = 2 then
    (if 1 ≤ r.kvheads ∧ r.kvheads ≤ 64 ∧ 1 ≤ r.layers ∧ r.layers ≤ 128 ∧ r.dim % 32 = 0 ∧ 32 ≤ r.dim ∧ r.dim ≤ 1024 ∧
        1 ≤ r.maxtok ∧ r.maxtok ≤ 1048576 ∧ r.headdim % 32 = 0 ∧ 32 ≤ r.headdim ∧ r.headdim ≤ 256 then some r else none)
  else none

/-- The text words of a PROGRAM object: its bytes after any role block, as 64-bit words (R105, R300; log entry 34). -/
def textWords (o : Obj) : List W64 :=
  let skip := if o.field 0 4 = 0x4F525A55 then 64 else 0
  (List.range (ceilDiv (o.size - skip) 8)).map (fun i => BitVec.ofNat 64 (o.field (skip + 8 * i) 8))

/-- A program with a role (R300): the object and its role block. -/
def State.roleAt (s : State) (h : W32) (reader : Bool) : Except W16 Role :=
  match s.bindable (s.replaced h) with
  | .error e => .error e
  | .ok o => match roleOf o with
    | none => .error stInvalidField
    | some r => if r.reader = reader then .ok r else .error stInvalidField

/-- A query adapter (R315) or reranker head (R316): rank and DIM. -/
def adapterHeader (o : Obj) (head : Bool) : Option (Nat × Nat) :=
  let r := o.field 5 1
  let magic := if head then 0x48525A55 else 0x44415A55
  let first := if head then 16 else 12
  if o.typ ≠ 1 ∨ o.size < 64 ∨ o.field 0 4 ≠ magic ∨ o.field 4 1 ≠ 1 ∨ r = 0 ∨ 64 < r ∨
      (o.data.rdBytes first (64 - first)).any (fun b => b != 0) then none
  else some (r, o.field 6 2)

/-- The index that a command names, with its descriptor (R244). -/
def State.indexAt (s : State) (h : W32) : Except W16 IndexD :=
  match s.bindable (s.replaced h) with
  | .error e => .error e
  | .ok o => if o.typ = 3 ∧ (s.index? (s.replaced h)).isSome then .ok (readDescriptor o) else .error stInvalidField

/-- Checks an optional adapter or head against an index. -/
def State.checkAdapter (s : State) (h : W32) (head : Bool) (dim : Nat) : Except W16 Unit :=
  if h = 0 then .ok ()
  else match s.bindable (s.replaced h) with
    | .error e => .error e
    | .ok o => match adapterHeader o head with
      | some (_, d) => if d = dim then .ok () else .error stInvalidField
      | none => .error stInvalidField

/-! ## The buffer (R395, R396) -/

/-- IN_LEN, OUT_OFF and OUT_LEN. -/
def inLen (c : HostCmd) : Nat := c.cdw10.toNat
def outOff (c : HostCmd) : Nat := c.cdw11.toNat
def outLen (c : HostCmd) : Nat := c.cdw12.toNat

/-- Whether the buffer keeps R395, with a parameter block of `blk` bytes. -/
def bufferOk (c : HostCmd) (blk : Nat) : Bool :=
  c.fuse == 0 && decide (c.psdt.toNat ≤ 1) && c.cdw2to5 == 0 && c.cdw13 == 0 && c.cdw14 == 0 && c.cdw15 == 0 &&
  inLen c % 16 == 0 && decide (blk ≤ inLen c) && decide (inLen c ≤ 268435456) &&
  outOff c % 64 == 0 && decide (inLen c ≤ outOff c) && decide (outLen c ≠ 0)

/-- Whether the region holds the largest result (R396). -/
def roomOk (c : HostCmd) (largest : Nat) : Bool := decide (128 + largest ≤ outLen c)

/-- Whether a payload lies in the input region (R396). -/
def payloadIn (c : HostCmd) (off n : Nat) : Bool := decide (off + n ≤ inLen c)
/-- Whether it does so at a multiple of 16 (R397, R398). -/
def payloadOk (c : HostCmd) (off n : Nat) : Bool := off % 16 == 0 && payloadIn c off n

/-- 32-bit words of a payload. -/
def wordsAt (c : HostCmd) (off n : Nat) : List W32 := (List.range n).map (fun i => c.w32 (off + 4 * i))

/-- Whether every value of a vector is finite. -/
def allFinite (xs : List W32) : Bool := xs.all (fun x => x &&& 0x7F800000 != 0x7F800000)

/-! ## SEARCH (R397) -/

/-- The parameters of a SEARCH, or the refusal. -/
def State.parseSearch (s : State) (c : HostCmd) : Except W16 JobKind :=
  let index := c.w32 0
  let encoder := c.w32 4
  let adapter := c.w32 8
  let head := c.w32 12
  let reader := c.w32 16
  let k := c.nat 20 2
  let pool := c.nat 22 2
  let depth := c.nat 30 1
  let spantok := c.nat 31 1
  let maxspan := c.nat 32 2
  let qtok := c.nat 34 2
  let qoff := c.nat 72 4
  let toff := c.nat 76 4
  let minscore := c.w32 36
  let largest := 32 * k + (if depth = 0 then 0 else 16 * k + (if spantok = 1 then depth * padTo 16 (4 * maxspan) else 0))
  if !bufferOk c 128 || !c.zero 80 48 || index == 0 || decide (4096 < k) || decide (4096 < pool) || decide (32 < c.nat 26 1) || decide (1 < c.nat 27 1) ||
      decide (1 < spantok) || decide (4096 < qtok) || isNan minscore || decide (64 < depth) || decide (k < depth) ||
      (decide (k ≠ 0) && decide (pool ≠ 0) && decide (pool < k)) ||
      (qtok != 0 && (toff == 0 || !payloadOk c toff (4 * qtok))) || (encoder != 0 && qtok == 0) ||
      (depth != 0 && (reader == 0 || qtok == 0 || decide (maxspan = 0) || decide (512 < maxspan))) || !roomOk c largest then .error stInvalidField
  else match s.indexAt index with
    | .error e => .error e
    | .ok d =>
      match s.checkAdapter adapter false d.dim, s.checkAdapter head true d.dim with
      | .error e, _ => .error e
      | .ok _, .error e => .error e
      | .ok _, .ok _ =>
        let p : SearchP := { index := index, encoder := encoder, adapter := adapter, head := head, reader := reader, k := k, pool := pool,
                             beam := c.nat 24 2, width := c.nat 26 1, rounds := c.nat 27 1 == 1, penalty := c.nat 28 2, depth := depth,
                             spantok := spantok == 1, maxspan := maxspan, minscore := minscore, labelMask := BitVec.ofNat 256 (c.nat 40 32),
                             query := if encoder = 0 then wordsAt c qoff d.dim else [], tokens := wordsAt c toff qtok }
        if encoder = 0 ∧ (qoff = 0 ∨ !payloadOk c qoff (4 * d.dim) ∨ !allFinite p.query) then .error stInvalidField
        else
          match (if encoder = 0 then Except.ok d.dim else (s.roleAt encoder false).map (fun r => r.dim)),
              (if depth = 0 then Except.ok 0 else (s.roleAt reader true).map (fun r => r.dim)) with
          | .error e, _ => .error e
          | .ok _, .error e => .error e
          | .ok n, .ok _ => if n = d.dim then .ok (.search p) else .error stInvalidField

/-! ## Record layouts and predicates (R286 to R292) -/

/-- The width that a numeric type fixes; none for BYTES, TOK16 and TOK32. -/
def typeWidth (t : Nat) : Option Nat :=
  if t = 1 ∨ t = 5 then some 1 else if t = 2 ∨ t = 6 ∨ t = 0xA then some 2
  else if t = 3 ∨ t = 7 ∨ t = 9 then some 4 else if t = 4 ∨ t = 8 then some 8 else none

/-- Bytes of one element of a field of used length. -/
def typeUnit (t : Nat) : Nat := if t = 0xC then 2 else if t = 0xD then 4 else 1

/-- Whether a field entry keeps R287 and R290. -/
def fieldOk (l : Layout) (f : FieldEnt) : Bool :=
  (match typeWidth f.typ with
   | some w => decide (f.width = w) && decide (f.lenField = 0xFF)
   | none => (decide (1 ≤ f.width) || l.framing == 1) && decide (f.width ≤ 65536) && f.width % typeUnit f.typ == 0 &&
      (f.lenField == 0xFF || (match l.fields[f.lenField]? with
        | some g => g.typ == 2 || g.typ == 3
        | none => false))) &&
  decide (1 ≤ f.typ) && decide (f.typ ≤ 0xD) && (l.framing == 1 || decide (f.offset + f.width ≤ l.recLen))

/-- Whether a role of a layout names no field, or one of the given types. -/
def roleFieldOk (l : Layout) (i : Nat) (types : List Nat) : Bool :=
  i == 0xFF || (match l.fields[i]? with
    | some f => types.contains f.typ
    | none => false)

/-- The record layout at an input offset (R286, R287, R290). -/
def parseLayout (c : HostCmd) (off : Nat) : Option Layout :=
  let n := c.nat (off + 6) 1
  if !payloadIn c off 64 || n == 0 || decide (32 < n) || !payloadIn c off (64 + 16 * n) then none
  else
    let l : Layout := { framing := c.nat (off + 5) 1, keyField := c.nat (off + 7) 1, textField := c.nat (off + 8) 1,
                        labelField := c.nat (off + 9) 1, recLen := c.nat (off + 16) 4,
                        fields := (List.range n).map (fun i =>
                          let a := off + 64 + 16 * i
                          ⟨c.nat a 4, c.nat (a + 4) 4, c.nat (a + 8) 1, c.nat (a + 9) 1⟩) }
    let recOk := if l.framing = 0 then decide (8 ≤ l.recLen) && decide (l.recLen ≤ 1048576) else decide (1 ≤ l.recLen) && decide (l.recLen ≤ 65532)
    if c.nat off 4 = 0x4C525A55 ∧ c.nat (off + 4) 1 = 1 ∧ c.zero (off + 10) 6 ∧ c.zero (off + 20) 44 ∧ l.framing ≤ 1 ∧ recOk ∧
        (List.range n).all (fun i => c.zero (off + 64 + 16 * i + 10) 6) ∧ l.fields.all (fieldOk l) ∧
        roleFieldOk l l.keyField [4] ∧ roleFieldOk l l.textField [0xC, 0xD] ∧ roleFieldOk l l.labelField [1] then some l
    else none

/-- Whether a term suits its field (R291). -/
def termOk (l : Layout) (t : Term) : Bool :=
  match l.fields[t.field]? with
  | none => false
  | some f =>
    let numeric := decide (f.typ < 0xB)
    let integer := decide (f.typ ≤ 8)
    if 1 ≤ t.op ∧ t.op ≤ 7 then numeric && t.clen == 0
    else if t.op = 8 ∨ t.op = 9 then integer && t.clen == 0
    else if 0x10 ≤ t.op ∧ t.op ≤ 0x12 then !numeric && decide (1 ≤ t.clen) && decide (t.clen ≤ 32) && t.clen % typeUnit f.typ == 0
    else false

/-- The predicate at an input offset (R291). -/
def parsePredicate (c : HostCmd) (off : Nat) (l : Layout) : Option (List Term) :=
  let n := c.nat off 1
  if !payloadIn c off 16 || decide (32 < n) || !payloadIn c off (16 + 48 * n) || !c.zero (off + 1) 15 then none
  else
    let at_ (i : Nat) : Nat := off + 16 + 48 * i
    let ts := (List.range n).map (fun i => (⟨c.nat (at_ i) 1, c.nat (at_ i + 1) 1, c.nat (at_ i + 2) 1, c.nat (at_ i + 3) 1 == 1,
      c.nat (at_ i + 4) 1, c.bytes (at_ i + 16) 32⟩ : Term))
    if (List.range n).all (fun i => c.zero (at_ i + 5) 11 && decide (c.nat (at_ i + 3) 1 ≤ 1) && decide (c.nat (at_ i + 2) 1 ≤ 7)) &&
        ts.all (termOk l) then some ts else none

/-- A range of a mapped namespace with layout and predicate, or the refusal (R293). -/
def State.parseRange (s : State) (c : HostCmd) (nsid : W32) (slba length loff poff : Nat) : Except NvStatus RangeP :=
  match s.space? nsid with
  | none => .error nvInvalidNamespace
  | some n => match parseLayout c loff with
    | none => .error nvInvalidField
    | some l => match parsePredicate c poff l with
      | none => .error nvInvalidField
      | some ts => if n.size < slba + length then .error nvLbaRange else .ok ⟨nsid, slba, length, l, ts⟩

/-- The fields that a PROJECT mask selects. -/
def projected (l : Layout) (mask : W32) : List FieldEnt := (l.fields.zipIdx.filter (fun (_, i) => mask.getLsbD i)).map Prod.fst

/-- Bytes of a FILTER entry (R295). -/
def entryLen (l : Layout) (mask : W32) : Nat := padTo 16 (16 + ((projected l mask).map (fun f => f.width)).foldl (· + ·) 0)

/-- The parameters of a FILTER (R293, R398), or the refusal. -/
def State.parseFilter (s : State) (c : HostCmd) : Except NvStatus JobKind :=
  let project := c.w32 32
  let limit := c.nat 24 4
  if !bufferOk c 64 || !c.zero 44 20 || !c.zero 29 3 || !c.zero 4 4 || !c.zero 22 2 || decide (1 < c.nat 28 1) || c.nat 36 4 % 16 != 0 ||
      c.nat 40 4 % 16 != 0 then .error nvInvalidField
  else match s.parseRange c (c.w32 0) (c.nat 8 8) (c.nat 16 6) (c.nat 36 4) (c.nat 40 4) with
    | .error e => .error e
    | .ok r =>
      if (projected r.layout project).map (fun f => f.width) |>.foldl (· + ·) 0 |> (4096 < ·) then .error nvInvalidField
      else if !roomOk c (64 + limit * entryLen r.layout project) then .error nvInvalidField
      else .ok (.filter r limit (c.nat 28 1 == 1) project)

/-! ## EMBED (R298, R299, R399) -/

/-- Host items from offset `pos` on (R299); `del` for a delete, `dim` and `maxtok` bound the payloads. -/
def parseItems (c : HostCmd) (del : Bool) (dim maxtok : Nat) : Nat → Nat → Option (List ItemP)
  | 0, _ => some []
  | n + 1, pos =>
    let form := c.nat (pos + 26) 1
    let ntok := c.nat (pos + 28) 4
    let len := if del then 0 else if form = 0 then 4 * ntok else 4 * dim
    if inLen c < pos + 32 + len ∨ !c.zero (pos + 8) 8 ∨ !c.zero (pos + 16) 3 ∨ !c.zero (pos + 24) 1 ∨ !c.zero (pos + 27) 1 then none
    else if !del ∧ (1 < form ∨ (form = 0 ∧ (ntok = 0 ∨ maxtok < ntok))) then none
    else
      let it : ItemP := { key := BitVec.ofNat 64 (c.nat pos 8), node := c.nat (pos + 19) 5, label := c.byte (pos + 25), form := form,
                          tokens := if !del && form == 0 then wordsAt c (pos + 32) ntok else [],
                          vec := if !del && form == 1 then wordsAt c (pos + 32) dim else [] }
      (parseItems c del dim maxtok n (padTo 16 (pos + 32 + len))).map (fun r => it :: r)

/-- The parameters of an EMBED, or the refusal: handle 0 names no index (R215, R298). -/
def State.parseEmbed (s : State) (c : HostCmd) : Except NvStatus JobKind :=
  let index := c.w32 0
  let encoder := c.w32 4
  let reader := c.w32 8
  let op := c.nat 12 1
  let source := c.nat 13 1
  let pcopies := c.nat 15 1
  let items := c.nat 16 4
  let del := op == 1
  if !bufferOk c 64 || !c.zero 52 12 || decide (2 < op) || decide (1 < source) || decide (1 < c.nat 14 1) ||
      pcopies == 0 || decide (2 < pcopies) || decide (65536 < items) ||
      !roomOk c (if source = 0 then 16 * items else 64 + 16 * 65536) then .error nvInvalidField
  else match s.indexAt index with
    | .error e => .error (nvOf e)
    | .ok d =>
      let full := match s.index? (s.replaced index) with
        | some x => decide (d.moraineLimit ≤ x.length - x.base)
        | none => false
      match (if encoder = 0 then Except.ok (d.dim, 0) else (s.roleAt encoder false).map (fun r => (r.dim, r.maxtok))),
          (if reader = 0 then Except.ok () else (s.roleAt reader true).map (fun _ => ())) with
      | .error e, _ => .error (nvOf e)
      | .ok _, .error e => .error (nvOf e)
      | .ok (dim, maxtok), .ok _ =>
        if dim ≠ d.dim then .error nvInvalidField
        else if full then .error (nvOf stTierFull)
        else if source = 0 then
          match (if items = 0 then some [] else if c.nat 48 4 % 16 = 0 then parseItems c del d.dim maxtok items (c.nat 48 4) else none) with
          | none => .error nvInvalidField
          | some its => .ok (.embed index encoder reader op its none (c.nat 14 1 == 1) pcopies)
        else if c.nat 38 2 ≠ 0 then .error nvInvalidField
        else match s.parseRange c (c.w32 20) (c.nat 24 8) (c.nat 32 6) (c.nat 40 4) (c.nat 44 4) with
          | .error e => .error e
          | .ok r =>
            if r.layout.keyField = 0xFF ∨ (!del ∧ (r.layout.textField = 0xFF ∨ encoder = 0)) then .error nvInvalidField
            else .ok (.embed index encoder reader op [] (some r) (c.nat 14 1 == 1) pcopies)

/-! ## READ_ANSWER (R309, R314, R400) -/

/-- The PREFILL object of a reader and key in the prefill map (R307). -/
def State.prefillOf (s : State) (reader : W32) (key : W64) : Option W32 :=
  (s.idx.prefill.find? (fun e => e.reader == reader && e.key == key)).map (fun e => e.handle)

/-- The state of a passage (R308): its PREFILL object when it is usable, else the span status. `bind` is the reader's weight binding. -/
def State.passage (s : State) (reader : W32) (bind : W64) (key : W64) : W32 × Nat :=
  match s.prefillOf reader key with
  | none => (0, 2)
  | some h => match s.obj? h with
    | none => (0, 2)
    | some o =>
      if o.case_ = 3 then (0, 4)
      else if BitVec.ofNat 64 (o.field 24 8) ≠ bind then (0, 3)
      else (h, 0)

/-- Tokens of a passage. -/
def State.passageTokens (s : State) (h : W32) : Nat :=
  match s.obj? h with
  | some o => o.field 16 4
  | none => 0

/-- Whether the contexts of a read stay within the limit (R314). -/
def State.contextOk (s : State) (joined : Bool) (qtok : Nat) (ps : List (W32 × Nat)) : Bool :=
  let ts := (ps.filter (fun p => p.2 == 0)).map (fun p => s.passageTokens p.1)
  if joined then decide (ts.foldl (· + ·) 0 + qtok ≤ 1048576) else ts.all (fun t => decide (t + qtok ≤ 1048576))

/-- The parameters of a READ_ANSWER, or the refusal: handle 0 names no reader (R215, R309). -/
def State.parseRead (s : State) (c : HostCmd) : Except W16 JobKind :=
  let reader := c.w32 0
  let mode := c.nat 4 1
  let spantok := c.nat 5 1
  let maxspan := c.nat 6 2
  let minscore := c.w32 8
  let nkeys := c.nat 12 2
  let qtok := c.nat 14 2
  let tok := if spantok = 1 then padTo 16 (4 * maxspan) else 0
  let largest := if mode = 0 then nkeys * 16 + nkeys * tok else 16 * (nkeys + 1) + tok
  if !bufferOk c 64 || !c.zero 24 40 || decide (1 < mode) || decide (1 < spantok) || maxspan == 0 || decide (512 < maxspan) ||
      isNan minscore || decide (4096 < qtok) || decide ((if mode = 0 then 64 else 4096) < nkeys) ||
      (nkeys != 0 && !payloadIn c (c.nat 16 4) (8 * nkeys)) || (qtok != 0 && !payloadIn c (c.nat 20 4) (4 * qtok)) || !roomOk c largest then
    .error stInvalidField
  else match s.roleAt reader true with
    | .error e => .error e
    | .ok _ =>
      let keys := (List.range nkeys).map (fun i => BitVec.ofNat 64 (c.nat (c.nat 16 4 + 8 * i) 8))
      let r := s.replaced reader
      let ps := keys.map (s.passage r (getD 0 s.set.bindings r.toNat))
      if !s.contextOk (mode == 1) qtok ps then .error stInvalidField
      else .ok (.readAnswer reader (mode == 1) keys (wordsAt c (c.nat 20 4) qtok) maxspan minscore (spantok == 1))

/-! ## RUN (R401) -/

/-- Whether a text may be loaded (R105, R125): at most 8,192 words, reserved trap entries 0, the others 0 or in the text. -/
def textOk (ws : List W64) : Bool :=
  decide (ws.length ≤ 8192) && (List.range 16).all (fun v =>
    let h := ((ws[v]?).getD 0).toNat
    h == 0 || (decide (v < 10) && decide (16 ≤ h) && decide (h < ws.length)))

/-- A program that may run: a PROGRAM object whose text may be loaded (R105). -/
def State.programAt (s : State) (h : W32) : Except W16 Obj :=
  match s.bindable (s.replaced h) with
  | .error e => .error e
  | .ok o => if o.typ = 8 ∧ textOk (textWords o) then .ok o else .error stInvalidField

/-- Whether a bind-list handle names an object or an extent (R237, R401). -/
def State.bindOk (s : State) (h : W32) : Except W16 Unit :=
  if (s.extent? h).isSome then .ok ()
  else (s.bindable (s.replaced h)).map (fun _ => ())

/-- Checks a list of handles in order. -/
def State.bindAll (s : State) : List W32 → Except W16 Unit
  | [] => .ok ()
  | h :: hs => match s.bindOk h with
    | .error e => .error e
    | .ok _ => s.bindAll hs

/-- The adaptation programs shipped with Hjelxo (R317). -/
inductive Adaptation where
  | head | query | codebook
  deriving DecidableEq, Repr

/-- The adaptation program that a PROGRAM object holds: the one whose NAME it carries (R216, R317; log entry 178). -/
def adaptation (o : Obj) : Option Adaptation :=
  if o.name = [0x61, 0x64, 0x61, 0x70, 0x74, 0x2E, 0x68, 0x65, 0x61, 0x64] then some .head
  else if o.name = [0x61, 0x64, 0x61, 0x70, 0x74, 0x2E, 0x71, 0x75, 0x65, 0x72, 0x79] then some .query
  else if o.name = [0x61, 0x64, 0x61, 0x70, 0x74, 0x2E, 0x63, 0x6F, 0x64, 0x65, 0x62, 0x6F, 0x6F, 0x6B] then some .codebook
  else none

/-- Launch argument s1 to s7 of a RUN, counted from 1. -/
def argOf (args : List W64) (i : Nat) : W64 := (args[i - 1]?).getD 0

/-- The CODEBOOK of the index whose consolidation a RUN of `h` with these arguments acts as: adapt.codebook with its re-encode flag at 1 (R321);
0 for none. -/
def State.recodes (s : State) (h : W32) (args : List W64) : W32 :=
  match s.obj? (s.replaced h) with
  | some o => if adaptation o = some .codebook ∧ argOf args 5 = 1 then s.replaced (lo32 (argOf args 1)) else 0
  | none => 0

/-- The CODEBOOK of the index that a job consolidates (R276, R321); 0 for none. -/
def State.consolidates (s : State) (j : Job) : W32 :=
  match j.kind with
  | .consolidate i => i
  | .program h _ _ args _ => if j.recode = 0 then s.recodes h args else j.recode
  | _ => 0

/-- Whether a job consolidates an index, or waits to (R276: no index has two at once). -/
def State.consolidating (s : State) (key : Nat) : Bool :=
  s.host.jobs.any (fun j => (j.phase == .waiting || j.phase == .admitted) && s.consolidates j != 0 && s.indexKey (s.consolidates j) == key)

/-- The parameters of a RUN, or the refusal: of a re-encode while a consolidation of the index runs, too (R321). -/
def State.parseRun (s : State) (c : HostCmd) : Except W16 JobKind :=
  let unit : W16 := BitVec.ofNat 16 (c.nat 4 2)
  let nbind := c.nat 7 1
  let cmask := c.nat 6 1
  if !bufferOk c 64 || c.w32 0 == 0 || cmask == 0 || decide (16 ≤ cmask) || decide (64 < nbind) || decide (inLen c < 64 + 4 * nbind) || !roomOk c 0 then
    .error stInvalidField
  else match s.programAt (c.w32 0) with
    | .error e => .error e
    | .ok _ =>
      if (s.unit? unit).isNone then .error stInvalidGroup
      else
        let binds := wordsAt c 64 nbind
        match s.bindAll binds with
        | .error e => .error e
        | .ok _ =>
          let args := (List.range 7).map (fun i => BitVec.ofNat 64 (c.nat (8 + 8 * i) 8))
          let h := s.recodes (c.w32 0) args
          if h ≠ 0 ∧ s.consolidating (s.indexKey h) then .error stInvalidField
          else .ok (.program (c.w32 0) unit (BitVec.ofNat 4 cmask) args binds)

/-! ## The fetch of a job (R26, R27, R205, R208) -/

/-- Applies `f` to the counts of a client (R208). -/
def State.updCounts (s : State) (client : BitVec 6) (f : ClientCounts → ClientCounts) : State :=
  { s with host := { s.host with counts := put client.toNat (f (getD {} s.host.counts client.toNat)) s.host.counts } }

/-- A job comes into being: its number, its CMD_FETCHED cairn and SUBMITTED (R26, R27, R208). One that has nothing to do
starts result writing at once, with its flags (R19, R293, R294, R298, R309, R312). -/
def State.newJob (s : State) (c : HostCmd) (opcode : Byte) (outOff outLen : Nat) (kind : JobKind) (atOnce : Option W32) : State :=
  let client := s.clientOf c
  let j : Job := { num := s.freshNum.toNat, client := client, ctrl := c.ctrl, sqid := c.sqid, cid := c.cid, opcode := opcode,
                   outOff := outOff, outLen := outLen, kind := kind, onChain := s.host.nsChain == some c.nsid,
                   phase := if atOnce.isSome then .writing else .waiting, flags := atOnce.getD 0, stamped := [0x20] }
  let s := (s.addJob j).updCounts client (fun k => { k with submitted := k.submitted + 1 })
  s.stamp (srcControl (Config.queueOwner c.ctrl c.sqid).val) 0x20 j.detail

/-- The fetch of a query command: its namespace (R390), its checks, then the job. -/
def State.fetchQuery (s : State) (c : HostCmd) (opcode : Byte) (chain : Bool) (parse : State → Except NvStatus JobKind) (atOnce : JobKind → Option W32) : State :=
  s.orStall <| s.io c (fun s =>
    if c.nsid ≠ s.host.nsCompute ∧ !(chain ∧ s.host.nsChain = some c.nsid) then s.fail c nvInvalidNamespace
    else match parse s with
      | .error e => s.fail c e
      | .ok k => s.newJob c opcode (outOff c) (outLen c) k (atOnce k))

/-- A drive status as the NVMe status of a refusal. -/
def asNv {α : Type} (r : Except W16 α) : Except NvStatus α :=
  match r with
  | .ok x => .ok x
  | .error e => .error (nvOf e)

/-- SHORT, PARTIAL and INCOMPLETE of completion dword 1 (R405). -/
def flagShort : W32 := 0x100
def flagPartial : W32 := 0x200
def flagIncomplete : W32 := 0x400

/-- SEARCH (R19, R244): with K or POOL 0 it completes at once, with no flags. -/
def execSearch (c : HostCmd) (s : State) : Out :=
  .next (s.fetchQuery c 0x90 true (fun s => asNv (s.parseSearch c)) (fun k => match k with
    | .search p => if p.k = 0 ∨ p.pool = 0 then some 0 else none
    | _ => none))

/-- FILTER (R293, R294): with LENGTH 0 it completes at once, and is short of a non-zero LIMIT. -/
def execFilter (c : HostCmd) (s : State) : Out :=
  .next (s.fetchQuery c 0x91 false (fun s => s.parseFilter c) (fun k => match k with
    | .filter r limit _ _ => if r.length = 0 then some (if limit = 0 then 0 else flagShort) else none
    | _ => none))

/-- EMBED (R298): with ITEMS 0, or LENGTH 0, it completes at once. -/
def execEmbed (c : HostCmd) (s : State) : Out :=
  .next (s.fetchQuery c 0x92 false (fun s => s.parseEmbed c) (fun k => match k with
    | .embed _ _ _ _ items none _ _ => if items.isEmpty then some 0 else none
    | .embed _ _ _ _ _ (some r) _ _ => if r.length = 0 then some 0 else none
    | _ => none))

/-- READ_ANSWER (R309, R312): with NKEYS or QTOK 0 it completes at once, with no span. -/
def execReadAnswer (c : HostCmd) (s : State) : Out :=
  .next (s.fetchQuery c 0x93 false (fun s => asNv (s.parseRead c)) (fun k => match k with
    | .readAnswer _ _ keys tokens _ _ _ => if keys.isEmpty || tokens.isEmpty then some flagShort else none
    | _ => none))

/-- RUN (R401). -/
def execRun (c : HostCmd) (s : State) : Out :=
  .next (s.fetchQuery c 0x94 false (fun s => asNv (s.parseRun c)) (fun _ => none))

end Sys2Proof.Machine
end

