-- ==== Sys2Proof/Machine/Adapt.lean ====
section
/-! DEFINITION. Node records as Rinsis reads and writes them (09 R249), and the adaptation programs (10 R317, R321). -/
namespace Sys2Proof.Machine

/-! ## Node records (R249) -/

/-- A neighbour of a record: ID or position, label, code. -/
structure Neighbour where
  id : Nat
  label : Byte
  codes : List Nat
  deriving DecidableEq, Repr

/-- A node of the index that a consolidation reads and writes. -/
structure NodeRec where
  node : Nat
  key : W64
  label : Byte
  vacant : Bool
  vcode : List Byte
  vmeta : List W32
  nbrs : List Neighbour
  /-- its own code, where the moraine holds it -/
  codes : Option (List Nat)
  deriving DecidableEq, Repr

/-- Record `r` of an object of node records, as node `node`. -/
def readNode (d : IndexD) (o : Obj) (r node : Nat) : NodeRec :=
  let at_ (k : Nat) : Nat := 2048 * r + k
  let v := d.v
  { node := node, key := BitVec.ofNat 64 (o.field (at_ 0) 8), label := o.data.rd (at_ 18), vacant := (o.data.rd (at_ 19)).getLsbD 0,
    vcode := o.data.rdBytes (at_ 32) (d.dim / 2),
    vmeta := (List.range (d.dim / 32)).map (fun i => BitVec.ofNat 32 (o.field (at_ (32 + d.dim / 2 + 4 * i)) 4)),
    nbrs := (List.range (Nat.min d.maxdeg (o.field (at_ 20) 1))).map (fun i =>
      { id := o.field (at_ (32 + v + 5 * i)) 5, label := o.data.rd (at_ (32 + v + 5 * d.maxdeg + i)),
        codes := (List.range d.m).map (unpackCode 4 (o.field (at_ (32 + v + 6 * d.maxdeg + i * (d.m / 2))) (d.m / 2))) }),
    codes := none }

/-- Pads bytes with zeros to a length. -/
def padBytes (n : Nat) (bs : List Byte) : List Byte := (bs ++ List.replicate n 0).take n

/-- The 2,048 bytes of a record, with its SELF and DOWN (R249). -/
def NodeRec.bytes (d : IndexD) (x : NodeRec) (self down : Nat) : List Byte :=
  padBytes 2048 (leBytes 8 x.key.toNat ++ leBytes 5 self ++ leBytes 5 down ++ [x.label, if x.vacant then 1 else 0, BitVec.ofNat 8 x.nbrs.length] ++
    List.replicate 11 0 ++ padBytes (d.dim / 2) x.vcode ++ padBytes (d.dim / 8) (x.vmeta.flatMap (fun w => leBytes 4 w.toNat)) ++
    padBytes (5 * d.maxdeg) (x.nbrs.flatMap (fun e => leBytes 5 e.id)) ++ padBytes d.maxdeg (x.nbrs.map (fun e => e.label)) ++
    x.nbrs.flatMap (fun e => leBytes (d.m / 2) (packCodes 4 e.codes)))

/-- A stored vector decoded exactly (R32, R321). -/
def decodeVector (dim : Nat) (vcode : List Byte) (vmeta : List W32) : List W32 :=
  (List.range dim).map (fun e =>
    (fromCode .q4a ((vmeta[e / 32]?).getD 0) 0 (unpackCode 4 (leNat ((vcode.drop (16 * (e / 32))).take 16)) (e % 32)) false).1)

/-- The code of a node under the centroids of `d`: the moraine's, or that of its decoded stored vector (R250; log entry 175). -/
def NodeRec.code (d : IndexD) (again : Bool) (x : NodeRec) : List Nat :=
  match (if again then none else x.codes) with
  | some c => c
  | none => d.code (decodeVector d.dim x.vcode x.vmeta)

/-- The nodes of the slots (R246), vacant ones included. -/
def State.slotNodes (s : State) (d : IndexD) : List NodeRec :=
  d.slots.zipIdx.flatMap (fun (e, i) => match (if e.handle = 0 then none else s.obj? e.handle) with
    | none => []
    | some o => (List.range e.records).map (fun r => readNode d o r (268435456 * i + r)))

/-! ## adapt.codebook (R317, R321) -/

/-- One Lloyd iteration on decoded vectors in ascending node ID (R321): codes by R250, then the mean of each centroid's vectors, where it has any, the quotient
rounded once. -/
def lloyd (d : IndexD) (xs : List (List W32)) : IndexD :=
  let cs := xs.map (fun x => (x, d.code x))
  { d with cent := (List.range d.m).flatMap (fun j => (List.range 16).flatMap (fun c =>
      let mine := (cs.filter (fun (_, k) => (k[j]?).getD 0 == c)).map (fun (x, _) => d.part x j)
      if mine.isEmpty then d.centroid j c
      else (List.range d.sub).map (fun i =>
        let sum := f32 (chainSum (mine.map (fun v => (v[i]?).getD 0)))
        (f32Out false [sum] (sum.div (.num false mine.length 0))).1))) }

/-- The index with the centroids that adapt.codebook makes: of the base-layer nodes whose record numbers are multiples of the stride (R321). -/
def State.trained (s : State) (d : IndexD) (iterations stride : Nat) : IndexD :=
  let xs := ((s.slotNodes d).filter (fun x => !x.vacant && x.node % 268435456 % stride == 0)).map (fun x => decodeVector d.dim x.vcode x.vmeta)
  (List.range iterations).foldl (fun d _ => lloyd d xs) d

/-- A CODEBOOK image with other centroids (R321). -/
def bookWith (cb : Obj) (d : IndexD) : Mem :=
  Mem.wrBytes cb.data (cb.field 44 4) (d.cent.flatMap (fun w => leBytes 4 w.toNat))

/-- The index of a job that runs adapt.codebook with its new centroids (R321); none for other jobs. -/
def State.codebookRun (s : State) (j : Job) : Option (Obj × IndexD × W32) :=
  match j.kind with
  | .program h _ _ args _ =>
    match (j.named h).bind s.obj?, (j.named (lo32 (argOf args 1))).bind s.obj?, (j.named (lo32 (argOf args 1))).bind s.indexD?,
        j.named (lo32 (argOf args 2)) with
    | some o, some cb, some d, some w =>
      if adaptation o = some .codebook then some (cb, s.trained d (argOf args 3).toNat (argOf args 4).toNat, w) else none
    | _, _, _, _ => none
  | _ => none

/-- The work of adapt.codebook is done: its CODEBOOK image stands in the WORK object, as far as that reaches (R321; log entry 178). -/
def State.writeCodebook (s : State) (j : Job) : State :=
  match s.codebookRun j with
  | some (cb, d, w) => s.updObj w (fun o => { o with data := Mem.wrBytes o.data 0 (((bookWith cb d).rdBytes 0 cb.size).take o.size) })
  | none => s

/-- Whether a launch of an adaptation program breaks the ranges of R317, or names objects that are not ready. `bound` are the objects that the
job is bound to: adapt.query ends on an L2 index among them (log entry 178). -/
def State.launchBad (s : State) (j : Job) : Bool :=
  match j.kind with
  | .program h _ _ args _ =>
    let arg (i : Nat) : Nat := (argOf args i).toNat
    let object (i : Nat) : Option Obj := if 2 ^ 32 ≤ arg i then none else (j.named (lo32 (argOf args i))).bind s.obj?
    let ready (i : Nat) : Bool := ((object i).map (fun o => o.state == 0)).getD false
    let work (i : Nat) : Bool := ((object i).map (fun o => o.state == 0 && o.typ == 0x0C)).getD false
    let gradient : Bool := ready 1 && (object 2).isSome && work 3 && decide (1 ≤ arg 5) && decide (arg 5 ≤ 4096)
    let l2 : Bool := j.bound.any (fun b => ((s.indexD? b).map (fun d => d.metric == 0)).getD false)
    match ((j.named h).bind s.obj?).bind adaptation with
    | none => false
    | some .head => !gradient
    | some .query => !gradient || l2
    | some .codebook =>
      !(((j.named (lo32 (argOf args 1))).bind s.indexD?).isSome && decide (arg 1 < 2 ^ 32) && work 2 && decide (1 ≤ arg 3) && decide (arg 3 ≤ 64) &&
        decide (1 ≤ arg 4) && decide (arg 4 ≤ 2 ^ 20) && decide (arg 5 ≤ 1) && arg 6 == 0 && arg 7 == 0)
  | _ => false

end Sys2Proof.Machine
end

