-- ==== Sys2Proof/Machine/Filter.lean ====
section
/-! DEFINITION. Records and predicates: how a range divides into records, fields and their absence, the evaluation of a
predicate, and the result of a FILTER (10 R286 to R296). -/
namespace Sys2Proof.Machine

/-! ## The bytes of a range -/

/-- The bytes of a range of logical blocks; none for the bytes of a block that stays unreadable (R296). `unread` lists blocks of
the range, counted from its first, that the media did not deliver. -/
def State.rangeBytes (s : State) (r : RangeP) (unread : List Nat) : List (Option Byte) :=
  match s.space? r.nsid with
  | none => []
  | some n => (List.range r.length).flatMap (fun i =>
      match (if unread.contains i then none else s.readBlock n (r.slba + i)) with
      | some bs => bs.map some
      | none => List.replicate n.blockBytes none)

/-- The blocks that stay unreadable, of those of a range that begin before byte `stop` of it. -/
def State.unreadBlocks (s : State) (r : RangeP) (unread : List Nat) (stop : Nat) : Nat :=
  match s.space? r.nsid with
  | none => 0
  | some n => ((List.range r.length).filter (fun i =>
      decide (i * n.blockBytes < stop) && (unread.contains i || (s.readBlock n (r.slba + i)).isNone))).length

/-! ## Records (R288) -/

/-- A record that is evaluated: where it starts and where it ends in the range, and its bytes (PREFIXED: its body). -/
structure Rec where
  pos : Nat
  stop : Nat
  bytes : List Byte
  deriving DecidableEq, Repr

/-- Bytes that are all known. -/
def allKnown (bs : List (Option Byte)) : Option (List Byte) := bs.mapM id

/-- The records of FIXED framing: `n` left, the next one at `pos`. A record that overlaps an unreadable block is not evaluated. -/
def fixedRecs (len : Nat) : Nat → Nat → List (Option Byte) → List Rec
  | 0, _, _ => []
  | n + 1, pos, bs =>
    let rest := fixedRecs len n (pos + len) (bs.drop len)
    match allKnown (bs.take len) with
    | some r => ⟨pos, pos + len, r⟩ :: rest
    | none => rest

/-- The records of a PREFIXED segment from offset `off` of the segment at `base`, and where it has a framing error. -/
def segRecs (recLen base : Nat) : Nat → Nat → List (Option Byte) → List Rec × Option Nat
  | 0, _, _ => ([], none)
  | n + 1, off, bs =>
    if bs.length < 4 then ([], none)
    else match allKnown (bs.take 4) with
      | none => ([], none)
      | some l =>
        let len := leNat l
        if len = 0xFFFFFFFF then ([], none)
        else if recLen < len ∨ bs.length < 4 + len then ([], some (base + off))
        else
          let (rest, e) := segRecs recLen base n (off + 4 + len) (bs.drop (4 + len))
          match allKnown ((bs.drop 4).take len) with
          | some r => (⟨base + off, base + off + 4 + len, r⟩ :: rest, e)
          | none => (rest, e)

/-- The segments of a range: `n` left, the next one at `base`. -/
def segments (recLen : Nat) : Nat → Nat → List (Option Byte) → List Rec × List Nat
  | 0, _, _ => ([], [])
  | n + 1, base, bs =>
    let (rs, e) := segRecs recLen base 16384 0 (bs.take 65536)
    let (rest, k) := segments recLen n (base + 65536) (bs.drop 65536)
    (rs ++ rest, e.toList ++ k)

/-- The records of a range in ascending position, and where its segments have framing errors. -/
def recordsOf (l : Layout) (bs : List (Option Byte)) : List Rec × List Nat :=
  if l.framing = 0 then (fixedRecs l.recLen (bs.length / Nat.max 1 l.recLen) 0 bs, [])
  else segments l.recLen (ceilDiv bs.length 65536) 0 bs

/-! ## Fields (R287, R289) -/

/-- The bytes of a numeric field; none when it is absent. -/
def numField (l : Layout) (r : List Byte) (i : Nat) : Option (FieldEnt × List Byte) :=
  match l.fields[i]? with
  | none => none
  | some f => match typeWidth f.typ with
    | none => none
    | some w => if f.offset + w ≤ r.length then some (f, (r.drop f.offset).take w) else none

/-- The used bytes of a field; none when it is absent (R289). -/
def usedBytes (l : Layout) (r : List Byte) (i : Nat) : Option (List Byte) :=
  match l.fields[i]? with
  | none => none
  | some f =>
    if (typeWidth f.typ).isSome then (numField l r i).map Prod.snd
    else
      let width := if f.width = 0 then r.length - f.offset else f.width
      let used : Option Nat := if f.lenField = 0xFF then some width else (numField l r f.lenField).map (fun x => leNat x.2)
      match used with
      | none => none
      | some u => if width < u ∨ r.length < f.offset + u then none else some ((r.drop f.offset).take u)

/-! ## Predicates (R291, R292) -/

/-- Whether a type is signed. -/
def signedType (t : Nat) : Bool := decide (5 ≤ t) && decide (t ≤ 8)

/-- An integer of `w` bytes. -/
def intOf (signed : Bool) (w : Nat) (bs : List Byte) : Int :=
  let x := leNat bs
  if signed && decide (2 ^ (8 * w - 1) ≤ x) then (x : Int) - 2 ^ (8 * w) else x

/-- An FP32 or BF16 field as FP32. -/
def floatOf (t : Nat) (bs : List Byte) : W32 := if t = 9 then BitVec.ofNat 32 (leNat bs) else BitVec.ofNat 32 (65536 * leNat bs)

/-- A numeric comparison by operator, from what less, equal and unordered say of x against A, and x ≤ B. -/
def compareOp (op : Nat) (lt eq nan leB : Bool) : Bool :=
  if nan then op == 2
  else if op = 1 then eq else if op = 2 then !eq else if op = 3 then lt else if op = 4 then lt || eq
  else if op = 5 then !lt && !eq else if op = 6 then !lt else (!lt) && leB

/-- Whether `c` occurs in `bs` at a multiple of `u` bytes. -/
def containsAt (u : Nat) (c bs : List Byte) : Bool :=
  (List.range (bs.length + 1)).any (fun i => i % u == 0 && (bs.drop i).take c.length == c)

/-- Whether a term is true of a present field. -/
def termHolds (f : FieldEnt) (t : Term) (bs : List Byte) : Bool :=
  let c := t.const.take t.clen
  if t.op = 0x10 then bs == c
  else if t.op = 0x11 then bs.take c.length == c
  else if t.op = 0x12 then containsAt (typeUnit f.typ) c bs
  else
    let w := bs.length
    let a := t.const.take w
    let b := (t.const.drop 8).take w
    if 9 ≤ f.typ then
      let x := floatOf f.typ bs
      let y := floatOf f.typ a
      let z := floatOf f.typ b
      compareOp t.op (fLt x y) (fEq x y) (isNan x || isNan y || (t.op == 7 && isNan z)) (fLe x z)
    else if t.op = 8 then leNat bs &&& leNat a != 0
    else if t.op = 9 then leNat bs &&& leNat a == leNat a
    else
      let sg := signedType f.typ
      let x := intOf sg w bs
      let y := intOf sg w a
      compareOp t.op (decide (x < y)) (decide (x = y)) false (decide (x ≤ intOf sg w b))

/-- Whether a term is true of a record: an absent field makes it false, NEG or not (R292). -/
def termTrue (l : Layout) (r : List Byte) (t : Term) : Bool :=
  match l.fields[t.field]?, usedBytes l r t.field with
  | some f, some bs => termHolds f t bs != t.neg
  | _, _ => false

/-- Whether a record matches: every clause that holds a term has a true one. -/
def recMatches (l : Layout) (ts : List Term) (r : List Byte) : Bool :=
  (List.range 8).all (fun c =>
    let cs := ts.filter (fun t => t.clause == c)
    cs.isEmpty || cs.any (termTrue l r))

/-! ## Results (R294, R295) -/

/-- The record key; 0 when there is no key field or it is absent (R295). -/
def recKey (l : Layout) (r : List Byte) : Nat := if l.keyField = 0xFF then 0 else ((usedBytes l r l.keyField).map leNat).getD 0

/-- A FILTER entry (R295). -/
def filterEntry (l : Layout) (project : W32) (r : Rec) : List Byte :=
  let cols := (List.range l.fields.length).filter (fun i => project.getLsbD i)
  let body := cols.flatMap (fun i =>
    let w := ((l.fields[i]?).map (fun f => f.width)).getD 0
    (((usedBytes l r.bytes i).getD []) ++ List.replicate w 0).take w)
  let e := leBytes 8 r.pos ++ leBytes 8 (recKey l r.bytes) ++ body
  e ++ List.replicate (entryLen l project - e.length) 0

/-- The summary of a FILTER or of an EMBED over records (R295, R303). -/
def summaryBytes (nextPos matched scanned unread badframe entry : Nat) : List Byte :=
  leBytes 8 nextPos ++ leBytes 8 matched ++ leBytes 8 scanned ++ leBytes 8 unread ++ leBytes 4 badframe ++ leBytes 4 entry ++ List.replicate 24 0

/-- The control core that owns a job's queue. -/
def Job.core (j : Job) : BitVec 9 := srcControl (Config.queueOwner j.ctrl j.sqid).val

/-- Stamps a job-path cairn of a job once (R26). -/
def State.stampOnce (s : State) (j : Job) (src : BitVec 9) (kind : Byte) : State :=
  ((s.stamp src kind j.detail).updJob j.num (fun k => { k with stamped := k.stamped ++ [kind] }))

/-- Result writing starts (R24, R209, R402): the counter block is stamped first (R48). A job that must stop at the next saddle, for an
abort or any other cause, writes nothing (R25, R209, R284). -/
def State.beginWriting (s : State) (n : Nat) : State :=
  match s.job? n with
  | none => s
  | some j => if j.stop.isSome then s else (s.stampCounters n).updJob n (fun j => { j with phase := .writing })

/-- Whether the reading of a range waits for map entries that are being rebuilt (R425). -/
def State.rangeWaits (s : State) (r : RangeP) : Bool :=
  match s.space? r.nsid with
  | some n => s.mapWaits n r.slba r.length
  | none => false

/-- SCAN_DONE (R294 to R297): the scan of a FILTER ends. With STOP it may end anywhere from the LIMIT-th match on: where is free
(log entry 35), and nothing past it counts. -/
def execScanDone (job : Nat) (unread : List Nat) (s : State) : Out :=
  .next (match s.job? job with
  | none => s
  | some j => match j.kind, j.phase with
    | .filter r limit stop project, .admitted =>
      if s.rangeWaits r then s
      else s.orStall <|
      let bs := s.rangeBytes r unread
      let (rs, errs) := recordsOf r.layout bs
      let hits := rs.filter (fun x => recMatches r.layout r.terms x.bytes)
      let from_ := if limit = 0 then 0 else ((hits[limit - 1]?).map (fun x => x.stop)).getD bs.length
      let (k, s) := if stop then s.draw else (0, s)
      let stopAt := if stop then from_ + Config.scanEnd k % (bs.length - from_ + 1) else bs.length
      let seen := rs.filter (fun x => decide (x.stop ≤ stopAt))
      let found := hits.filter (fun x => decide (x.stop ≤ stopAt))
      let out := hits.take limit
      let bad := s.unreadBlocks r unread stopAt
      let frames := (errs.filter (fun p => decide (p < stopAt))).length
      let flags : W32 := (if limit ≠ 0 ∧ hits.length < limit then flagShort else 0) ||| (if bad ≠ 0 ∨ frames ≠ 0 then flagPartial else 0)
      let s := if bad ≠ 0 then s.stamp j.core 0x59 j.detail else s
      let s := s.stampOnce j j.core 0x5A
      let s := s.updJob job (fun j => { j with
        summary := summaryBytes stopAt found.length seen.length bad frames (entryLen r.layout project),
        entries := out.flatMap (filterEntry r.layout project), nEntries := out.length, flags := j.flags ||| flags })
      s.beginWriting job
    | _, _ => s)

end Sys2Proof.Machine
end

