-- ==== Sys2Proof/Machine/DieOps.lean ====
section
/-! DEFINITION. Window moves, and the ends of the reads and writes of dies (11 R330, R331, R333, R336, R347, R349 to R351; 12 R361,
R367, R369). -/
namespace Sys2Proof.Machine

/-! ## The flush area, and shutdown (R371, R373) -/

/-- The die that slot `i` is flushed to (R371): i mod 512, or the next that has not failed. -/
def State.flushDie (s : State) (i : Nat) : Nat :=
  ((List.range 512).map (fun k => (i + k) % 512)).find? (fun d => !(s.die d).failed) |>.getD (i % 512)

/-- The slots that the held units of extents take (R166, R361): the lowest that no buffered unit has (log entry 29). -/
def State.heldSlots (s : State) : List Nat :=
  ((List.range 16384).filter (fun i => (find i s.ftl.buf).isNone)).take s.heldUnits

/-- The dies whose kept-aside blocks take what slots of the buffer hold (R371). -/
def State.flushDiesOf (s : State) (slots : List Nat) : List Nat := (slots.map s.flushDie).eraseDups

/-- The SYSTEM units that hold what extents hold in the buffer, each with its extent address (R371, R373). -/
def State.systemUnits (s : State) : List FUnit :=
  ((s.media.extents.flatMap (fun (h, e) => e.held.map (fun u => (h, u, e.data.rdBytes (65536 * u) 65536)))).zip s.heldSlots).map (fun ((h, u, bs), i) =>
    { kind := .system, nsx := 0, lua := 0, seq := s.ftl.seq, minute := s.time.epoch.toNat, temp := (s.die (s.flushDie i)).temp, data := memOf bs,
      ext := some (BitVec.ofNat 32 h, u), die := some (s.flushDie i) })

/-- What the flush writes of the buffer (R371 step 3): whole units as DATA or TRIM, sub-unit images as PARTIAL, held units of extents as SYSTEM. -/
def State.flushImages (s : State) : List FUnit :=
  s.ftl.buf.map (fun (i, u) =>
    { u with kind := if u.kind == .data && u.valid != 0xFFFF then .partial_ else u.kind, tag := none, old := ⟨0, 0⟩, data := u.content,
             minute := s.time.epoch.toNat, temp := (s.die (s.flushDie i)).temp, die := some (s.flushDie i) }) ++ s.systemUnits

/-- Units are programmed in the kept-aside pSLC blocks of the dies of their slots (R326, R371, R382): the blocks' records, the channels' programs and
MEDIAUNITS count them, and the SYSTEM units of the drive's own state beside them, whose number is free (log entry 206). -/
def State.fillFlush (s : State) (slots : List Nat) : State :=
  let (k, s) := s.draw
  let s := slots.foldl (fun (s : State) i =>
    let d := s.flushDie i
    let t := (s.die d).temp
    (s.updDie d (fun x => { x with flushBlk := { x.flushBlk with
      wp := x.flushBlk.wp + 1, erased := false, minute := if x.flushBlk.wp = 0 then s.time.epoch.toNat else x.flushBlk.minute,
      temp := if x.flushBlk.wp = 0 then t else x.flushBlk.temp } })).updChan d (fun c => { c with progs := c.progs + 1 })) s
  { s with ftl := { s.ftl with flushDies := s.flushDiesOf slots, mediaUnits := s.ftl.mediaUnits + BitVec.ofNat 64 (slots.length + Config.systemUnits k) } }

/-- A block that takes the last units of the buffer at a shutdown (R373): an open one, else a free one, on a working idle die. -/
def State.lastBlock (s : State) : Option (Nat × Nat) :=
  dieIds.findSome? (fun d =>
    let x := s.die d
    if x.failed || !x.idle then none
    else match x.blocks.find? (fun (p, b) => b.use == .open_ && decide (b.wp ≤ 2043) && !x.inWindow p) with
    | some (p, _) => some (d, p)
    | none => if x.freeBlocks = 0 then none
      else ((List.range 4096).find? (fun p => !x.inWindow p && x.idleAt p && x.leastWorn p)).map (fun p => (d, p)))

/-- The last units of the buffer, fewer than a word line, are programmed, and the rest of the line is left (R373; log entry 33). -/
def State.programLast (s : State) (d p : Nat) : State :=
  let us := s.ftl.buf
  let s := if ((s.die d).blk p).use == .open_ then s else s.openNow d p
  let s := (s.updChan d (fun c => { c with progs := c.progs + 1 })).programUnits d p true false (us.map (fun (i, u) => (u, (⟨2, i⟩ : MapEnt))))
  (({ s with ftl := { s.ftl with buf := [] } }).updBlk d p (fun b => { b with wp := Nat.min 2047 (padTo 4 b.wp) })).closeIfFull d p

/-- The state of the drive is saved, with the units that extents hold, and the clean marker is written (R373). -/
def State.saveClean (s : State) : State :=
  let images := s.systemUnits
  let s := s.fillFlush s.heldSlots
  { s with ftl := { s.ftl with clean := true, flushed := none, flush := images }, time := { s.time with epochSaved := s.time.epoch } }

/-- The shutdown notifications that wait end once no word line of the buffer is in a die's queue and what is left of it can be programmed (R373). -/
def State.endShutdowns (s : State) : State :=
  let ended (s : State) : State := s.ftl.closing.foldl (fun (s : State) c => s.updCtrl c (fun k => if k.rdy then { k with shst := true } else k))
    { s.saveClean with ftl := { s.saveClean.ftl with closing := [] } }
  if s.ftl.closing.isEmpty then s
  else if s.ftl.buf.isEmpty then ended s
  else if decide (4 ≤ s.ftl.buf.length) || s.ftl.buf.any (fun (_, u) => u.valid != 0xFFFF) || s.queued (fun v _ => v.isNone) then s
  else match s.lastBlock with
    | none => s
    | some (d, p) => ended (s.programLast d p)

/-- SUB_UNIT_MERGE (R363). -/
def execSubUnitMerge (slot : Nat) (readable : Bool) (s : State) : Out :=
  .next (match find slot s.ftl.buf with
  | none => s
  | some u => if u.kind == .data && u.valid != 0xFFFF then (s.mergeSlot slot u readable false).endShutdowns else s)

/-! ## The rotating window (R349 to R351) -/

/-- The window move that runs stops (R350): the extent block stays at its source, and the target goes back to the translation layer, not erased. -/
def State.dropMove (s : State) : State :=
  match s.media.move with
  | none => s
  | some m => (({ s with media := { s.media with move := none } }).updBlk m.die m.dst (fun b =>
      { b with use := .free, erased := false, erasing := false, wp := 0 })).updDie m.die (fun x => { x with writes := x.writes.filter (fun w => match w.serves with
        | .moveErase => false
        | .moveLine _ _ => false
        | _ => true) })

/-- A window move is made (R350): the erase count has been spent, the window is one position further, and WINDOW_MOVE is stamped. -/
def State.countMove (s : State) (stride : Nat) : State := { s with media := { s.media with moves := s.media.moves + 1, sinceMove := s.media.sinceMove - stride, move := none } }

/-- Step 3 of a window move (R350): S and R advance, and the position vacated passes to the translation layer. -/
def State.switchMove (s : State) (d src : Nat) (holds : Bool) : State :=
  let s := s.updBlk d src (fun b => { b with
    use := .free, wp := 0, erased := !holds && b.erased, minute := 0, temp := 0, running := 0, cut := 0, check := false, lowSeq := 0, refresh := false })
  let s := s.updDie d (fun x => { x with winS := (x.winS + 1) % 4096, winR := (x.winR + 1) % x.winW })
  s.stamp (srcChannel (d / 16)) 0x65 (dieDetail d ++ (0 : BitVec 6) ++ BitVec.ofNat 13 src)

/-- A window move goes on (R350, R351): the units of the next line are read and programmed at the target; after the last the copies are read back, and the
target takes the source's mode, erased state and write pointer, with its own wear. -/
def State.moveNext (s : State) (m : WindowMove) : State :=
  let b := (s.die m.die).blk m.src
  if m.done < m.units then
    let n := if b.qlc then Nat.min 4 (m.units - m.done) else 1
    let s := s.driveReads m.die m.src ((List.range n).map (m.done + ·))
    ({ s with media := { s.media with move := some { m with fails := false } } }).queueWrite m.die ⟨m.dst, false, b.qlc, .moveLine n m.fails⟩
  else
    let s := s.driveReads m.die m.dst (List.range m.units)
    let s := s.updBlk m.die m.dst (fun t => { b with wear := t.wear, replaced := t.replaced, minute := t.minute, temp := t.temp, refresh := false })
    (s.countMove m.stride).switchMove m.die m.src true

/-- The erase of a window move's target has ended (R350); a target whose erase failed is retired, and the move goes on in its replacement (R348). -/
def State.moveErased (s : State) (d p : Nat) : State :=
  match s.media.move with
  | some m => if m.die = d ∧ m.dst = p then s.moveNext m else s
  | none => s

/-- A program of a window move has ended (R350, R351): the first dates the block (R326); after a failure the target is retired, and the copy goes on in its
replacement. -/
def State.moveProgrammed (s : State) (d p n : Nat) (passes : Bool) : State :=
  match s.media.move with
  | some m =>
    if m.die ≠ d ∨ m.dst ≠ p then s
    else if passes then
      let s := if m.done = 0 then s.dateBlock d p else s
      (s.updBlk d p (fun b => { b with wp := m.done + n })).moveNext { m with done := m.done + n }
    else
      let s := (s.retire d p).copyBelow d m.done (if ((s.die d).blk m.src).qlc then ceilDiv m.done 4 else m.done)
      (if m.done = 0 then s else s.dateBlock d p).moveNext m
  | none => s

/-- The units of a window's block that stand on flash: those of an extent that the write buffer holds do not (R166). -/
def State.unitsAt (s : State) (b : Blk) : Nat :=
  match b.use with
  | .extent h k => b.wp - ((s.extent? (BitVec.ofNat 32 h)).map (fun e => e.held.countP (fun u => u / 2048 == k))).getD 0
  | _ => b.wp

/-- WINDOW_MOVE (R350, R351): once the erase count has advanced by WINDOW_STRIDE, the move of the next die's window by one position begins: an empty position
passes at once, a block is copied by the die's writes and reads. A target that still holds data of the translation layer is marked for collection first. -/
def execWindowMove (programFails : Bool) (s : State) : Out :=
  .next (
    let d := s.media.moves % 512
    let x := s.die d
    let stride := (s.liveOf 0x20).toNat
    let src := x.winS % 4096
    let dst := (x.winS + x.winW) % 4096
    let b := x.blk src
    let holds := match b.use with
      | .extent _ _ => true
      | .sealed => true
      | _ => false
    if !s.ready || s.media.sinceMove < stride || s.media.move.isSome then s
    else if x.failed then s.countMove stride
    else if x.winW = 0 then ((s.countMove stride).setDie d { x with winS := (x.winS + 1) % 4096 }).stamp (srcChannel (d / 16)) 0x65 (dieDetail d ++ (0 : BitVec 6) ++ BitVec.ofNat 13 src)
    else if (x.blk dst).use == .gone then s.countMove stride
    else if (x.blk dst).use != .free then s.updBlk d dst (fun b => { b with refresh := true })
    else if !holds then (s.countMove stride).switchMove d src false
    else if (x.blk dst).erasing || b.erasing || b.check || x.pendingAt src (fun _ => true) then s
    else
      let m : WindowMove := { die := d, src := src, dst := dst, units := s.unitsAt b, done := 0, stride := stride, fails := programFails }
      (({ s with media := { s.media with move := some m } }).updBlk d dst (fun t => { t with use := .moving, erased := false, erasing := true, wp := 0 })).queueWrite d
        ⟨dst, true, b.qlc, .moveErase⟩)

/-! ## The ends of reads and writes -/

/-- An erase that nothing waits for any more has worn its block (R325). -/
def State.wornBy (s : State) (d : Nat) (w : DieWrite) : State :=
  ({ s with media := { s.media with sinceMove := s.media.sinceMove + 1 } }).updBlk d w.pos (fun b => { b with wear := b.wear + eraseWear w.qlc })

/-- A write on a die has ended. -/
def State.writeEnds (s : State) (d : Nat) (w : DieWrite) (pass : Bool) : State :=
  match w.serves with
  | .fprog op => s.fprogEnds d w.pos op pass
  | .ferase op => s.feraseEnds d w.pos op w.qlc pass
  | .line h block line => s.lineEnds d w.pos h block line pass
  | .background =>
    let s := s.erasedAgain d w pass
    if (s.die d).taken w.pos then s.updBlk d w.pos (fun b => { b with erasing := true }) else s.updBlk d w.pos (fun b => { b with use := .free })
  | .again => s.erasedAgain d w pass
  | .allot => (s.erasedAgain d w pass).endAllots
  | .units us victim fails =>
    let s := s.unitsEnd d w.pos us victim.isSome (pass && !fails)
    match victim with
    | some (k, bad) => if pass && !fails then s.eraseVictim (k / 4096) (k % 4096) bad else s
    | none => s
  | .victim fails => if ((s.die d).blk w.pos).use == .closed then (s.freeVictim d w.pos (fails || !pass)).checkBlocksLeft else s.wornBy d w
  | .moveErase => if s.media.move.any (fun m => m.die == d && m.dst == w.pos) then (s.erasedAgain d w pass).moveErased d w.pos else s.wornBy d w
  | .moveLine n fails => s.moveProgrammed d w.pos n (pass && !fails)

/-- What a finished read serves (R164, R237, R336, R381): delivered, or uncorrectable. A read of a place that its unit has left (R236) says
nothing about the unit's new place. -/
def State.readEnds (s : State) (r : DieRead) (out : ReadOutcome) : State :=
  let bad := out.step == 8
  match r.serves with
  | .drive => s
  | .object h copy unit =>
    let old := match ((s.obj? h).bind (fun o => o.f)).bind (fun f => f.place? copy.val unit) with
      | some a => a % 2048 != r.unit
      | none => false
    if (bad || out.corrupt) && !old then
      let s' := s.updObj h (fun o => { o with f := o.f.map (fun f => { f with bad := if f.bad.contains (copy.val, unit) then f.bad else f.bad ++ [(copy.val, unit)] }) })
      match s.obj? h with
      | some o => if (copy.val = 0 ∧ o.state ≠ 2) ∨ (copy.val = 1 ∧ o.case_ = 2) then s'.impair h else s'
      | none => s'
    else s
  | .mapped nsx lua =>
    match find (nsx.toNat * 4294967296 + lua.toNat) s.ftl.map with
    | some e => if bad ∧ (e.state = 1 ∨ e.state = 3) ∧ !s.ftl.bad.contains e.at_ then
        { s with ftl := { s.ftl with bad := s.ftl.bad ++ [e.at_] } } else s
    | none => s
  | .fread id =>
    match s.host.recs.find? (fun r => r.id == id && r.served && r.outcome.isNone) with
    | none => s
    | some op => match op.kind with
      | .fread _ _ _ _ n a =>
        if bad then
          let (k, s) := s.draw
          let got := Config.delivered k % Nat.max 1 n
          (s.sramWrite op.tile a (op.got.take (2048 * got))).setOutcome id stMediaUncorrectable (BitVec.ofNat 64 got)
        else (s.sramWrite op.tile a op.got).setOutcome id stOk (BitVec.ofNat 64 n)
      | _ => s

/-- Ends a list of reads as uncorrectable. -/
def State.readsFail (s : State) : List DieRead → State
  | [] => s
  | r :: rs => (s.readEnds r ⟨8, false⟩).readsFail rs

/-- Writes that a failed die never ends (R164, R333): nothing is retired. -/
def State.writesFail (s : State) (d : Nat) : List DieWrite → State
  | [] => s
  | w :: ws =>
    let s := match w.serves with
      | .fprog op => (s.updBlk d w.pos (fun b => { b with wp := b.wp - b.running, running := 0 })).setOutcome op stMediaProgramFail 0
      | .ferase op => (s.updBlk d w.pos (fun b => { b with erasing := false })).setOutcome op stMediaEraseFail 0
      | _ => s.updBlk d w.pos (fun b => { b with erasing := false })
    s.writesFail d ws

/-- A die has failed (R333, R381): FAILED, DIE_FAILED, and nothing more is sent to it. -/
def State.failDie (s : State) (d : Nat) : State :=
  let x := s.die d
  if x.failed then s
  else
    let s := s.setDie d { x with failed := true, reads := [], reading := none, writes := [], writing := none, suspended := false, suspendAt := none }
    let s := if s.media.move.any (fun m => m.die == d) then s.dropMove else s
    let s := s.stamp (srcChannel (d / 16)) 0x60 (dieDetail d ++ (0 : BitVec 19))
    let s := (s.readsFail (x.reading.toList ++ x.reads)).writesFail d (x.writing.toList ++ x.writes)
    s.endAllots.checkReadOnly

/-! ## Die commands -/

/-- DIE_READ_ARRIVAL (R331): a read reaches a die; it starts, queues, or schedules a suspend. On a failed die it ends
as uncorrectable (R333). -/
def execDieReadArrival (die : Fin 512) (r : DieRead) (s : State) : Out :=
  .next (
    let d := die.val
    let x := s.die d
    if x.failed then (s.readEnds r ⟨8, false⟩).serveMedia
    else
      (s.setDie d ({ x with reads := x.reads ++ [r] }.wantsRead r.at_)).startDie d)

/-- DIE_SUSPEND (R331): the scheduled suspend of the running write, at its instant. -/
def execDieSuspend (die : Fin 512) (s : State) : Out :=
  .next (
    let d := die.val
    let x := s.die d
    match x.writing, x.suspendAt with
    | some _, some ts =>
      let s := s.reach (BitVec.ofNat 64 ts)
      ((s.setDie d { x with suspended := true, suspendAt := none, served := 0, wLeft := x.wLeft - (ts - x.wStart) }).updChan d
        (fun c => { c with suspends := c.suspends + 1 })).startDie d
    | _, _ => s)

/-- DIE_RESUME (R331): once the queue is empty or 8 reads have been served, the write resumes with its overhead; reads
still queued schedule the next suspend. -/
def execDieResume (die : Fin 512) (s : State) : Out :=
  .next (
    let d := die.val
    let x := s.die d
    if x.suspended && x.reading.isNone && (x.reads.isEmpty || x.served == 8) then
      let x := { x with suspended := false, wStart := s.time.now.toNat, wLeft := x.wLeft + us 10 }
      s.setDie d (match x.reads with
        | [] => x
        | r :: _ => { x with suspendAt := x.suspendTime r.at_ })
    else s)

/-- The steps that each array read of a retry step adds to every level of its ledger entry (R336). -/
def stepShifts : Nat → List Int
  | 1 => [-2]
  | 2 => [2]
  | 3 => [-4]
  | 4 => [4]
  | 5 => [-6]
  | 6 => [6]
  | 7 => [0, -3, 3]
  | _ => [0]

/-- The threshold offsets of the array reads of a retry step (R336). -/
def stepLevels (step : Nat) (entry : List Byte) : List (List Byte) := (stepShifts step).map (fun k => entry.map (fun b => b + BitVec.ofInt 8 k))

/-- DIE_READ_DONE (R336): RETRIES counts the steps beyond 0, UNCORR a read that fails step 7. -/
def execDieReadDone (die : Fin 512) (out : ReadOutcome) (s : State) : Out :=
  .next (
    let d := die.val
    let x := s.die d
    match x.reading with
    | none => s
    | some r =>
      let s := s.setDie d { x with reading := none, served := if x.suspended then x.served + 1 else x.served,
                                   levels := ((x.entry.map Prod.snd).map (stepLevels (Nat.min out.step.val 7))).getD [] }
      let s := s.updChan d (fun c => { c with
        retries := c.retries + BitVec.ofNat 64 (Nat.min out.step.val 7), uncorr := if out.step = 8 then c.uncorr + 1 else c.uncorr })
      ((s.noteRefresh d r.block (decide (5 ≤ out.step.val))).readEnds r out).serveMedia.startDie d)

/-- Ends the running write of a die when it is an erase, or a program, as given; what waited for it, or for buffer slots that it frees (R361), is served. -/
def State.dieWriteDone (s : State) (d : Nat) (erase pass : Bool) : State :=
  let x := s.die d
  match x.writing with
  | none => s
  | some w =>
    if w.erase != erase || x.suspended then s
    else
      let s := s.setDie d { x with writing := none, suspendAt := none }
      ((((s.writeEnds d w pass).serveMedia).serveWaiters).startDie d).endShutdowns

/-- DIE_PROGRAM_DONE (R330). -/
def execDieProgramDone (die : Fin 512) (pass : Bool) (s : State) : Out := .next (s.dieWriteDone die.val false pass)

/-- DIE_ERASE_DONE (R330). -/
def execDieEraseDone (die : Fin 512) (pass : Bool) (s : State) : Out := .next (s.dieWriteDone die.val true pass)

/-- DIE_FAILED (R333). -/
def execDieFailed (die : Fin 512) (s : State) : Out := .next ((s.failDie die.val).serveMedia)

end Sys2Proof.Machine
end

