-- ==== Sys2Proof/Machine/Seal.lean ====
section
/-! DEFINITION. The rotating window's places (11 R349), the blocks of the sealed extents that Rinsis owns, and sealing into them
(08 R217, R234 to R236). -/
namespace Sys2Proof.Machine

/-! ## Places in the window (R349) -/

/-- Re-indexes the extent blocks of a die so that its rotation is 0 and every block keeps its ring position (log entry 40). -/
def State.straighten (s : State) (d : Nat) : State :=
  let x := s.die d
  let at_ (j : Nat) : Nat := (j + x.winW - x.winR % x.winW) % x.winW
  if x.winW = 0 ∨ x.winR % x.winW = 0 then s
  else
    let key (k : Nat) : Nat := if k / 4096 = d then 4096 * d + at_ (k % 4096) else k
    let slots := x.slots.foldl (fun m (j, v) => put (at_ j) v m) []
    let ext := s.media.extents.map (fun (h, e) => (h, { e with slots := e.slots.zipIdx.map (fun (j, i) => if dieOfBlock i = d then at_ j else j) }))
    let m := { s.media with extents := ext, sealBlocks := s.media.sealBlocks.foldl (fun m (k, b) => put (key k) b m) [] }
    let dir := s.obj.dir.map (fun (h, o) => (h, { o with f := o.f.map (fun f =>
      { f with places := f.places.map (fun (k, a) => (k, 2048 * key (a / 2048) + a % 2048)) }) }))
    ({ s with media := m, obj := { s.obj with dir := dir } }).setDie d { x with slots := slots, winR := 0 }

/-- An erase of a position that is queued or runs ends at once, with the block erased in its mode: Rinsis waits for it. -/
def State.settleErase (s : State) (d p : Nat) : State :=
  let x := s.die d
  let mine (w : DieWrite) : Bool := w.pos == p && w.erase
  match x.writing.toList.find? mine, x.writes.find? mine with
  | some w, _ => (s.setDie d { x with writing := none, suspended := false, suspendAt := none }).erasedAgain d w true
  | none, some w => ((s.setDie d { x with writes := x.writes.filter (fun w => !mine w) }).updChan d (fun c => { c with erases := c.erases + 1 })).erasedAgain d w true
  | none, none => s

/-- The word lines of the translation layer that wait for a position leave its die's queue: their units stay where they are. -/
def Die.withoutLines (x : Die) (p : Nat) : Die :=
  { x with writes := x.writes.filter (fun w => !(w.pos == p && (match w.serves with
    | .units _ _ _ => true
    | _ => false))) }

/-- The translation layer gives up a position of a die (R349, R350): its data moves first, into the free position of least wear of the die, and an erase of it
that is due ends; a window move to it stops. None when there is no such position. -/
def State.vacate (s0 : State) (d p : Nat) : Option State :=
  let s := (if s0.media.move.any (fun m => m.die == d && m.dst == p) then s0.dropMove else s0).updDie d (fun x => x.withoutLines p)
  let x := s.die d
  let b := x.blk p
  if b.use == .free then some s
  else if b.use == .gone then none
  else if b.erasing then some (((s.settleErase d p).dropUnits d p).updBlk d p (fun b => { b with use := .free, lowSeq := 0 }))
  else match (List.range 4096).find? (fun q => q != p && !x.inWindow q && x.idleAt q && x.leastWorn q) with
  | none => none
  | some q => some (s.collectInto d p d q [])

/-- Gives one extent block a place in the window of its die (R349): an empty position, one whose background erase has not ended too (R415), or the one
after the window's end, which the translation layer gives up. Answers the window index; none when it cannot. -/
def State.windowSlot (s : State) (d : Nat) : Option (Nat × State) :=
  let x := s.die d
  match (List.range x.winW).find? (fun j => getD none x.slots j == none) with
  | some j => some (j, s)
  | none =>
    let s := s.straighten d
    if 4096 ≤ (s.die d).winW then none
    else (s.vacate d (((s.die d).winS + (s.die d).winW) % 4096)).map (fun s =>
      ((s.die d).winW, s.updDie d (fun x => { x with winW := x.winW + 1 })))

/-- The window position `j` of a die is taken by an extent block. -/
def State.claimSlot (s : State) (d j : Nat) (use : BlkUse) (slot : Nat × Nat) : State :=
  (s.updDie d (fun x => { x with slots := put j (some slot) x.slots })).updBlk d ((s.die d).ringPos j) (fun b => { b with use := use })

/-- Takes the block at window index `j` of a die for an extent (R349, R415): one that is not erased in the mode asked for, or whose background erase
has not ended, is first erased, a write of its die (R330). -/
def State.allotBlock (s : State) (d j : Nat) (slot : Nat × Nat) (qlc : Bool) : State :=
  let p := (s.die d).ringPos j
  let b := (s.die d).blk p
  let s := s.claimSlot d j (.extent slot.1 slot.2) slot
  if b.erased && b.qlc == qlc && !b.erasing then s.updBlk d p (fun b => { b with wp := 0 })
  else (s.updBlk d p (fun b => { b with erasing := true, erased := false, wp := 0, cut := 0 })).queueWrite d ⟨p, true, qlc, .allot⟩

/-- Takes the block at window index `j` of a die for Rinsis (R234, R349): erased first in the mode asked for, unless it is so already. A block whose erase
fails is retired, and its replacement is erased (R165, R238; log entry 173). -/
def State.takeBlock (s : State) (d j : Nat) (qlc : Bool) : State :=
  let p := (s.die d).ringPos j
  let s := (s.settleErase d p).claimSlot d j .sealed (0, j)
  let b := (s.die d).blk p
  if b.erased && b.qlc == qlc then s.updBlk d p (fun b => { b with wp := 0 })
  else
    let (n, s) := s.draw
    (s.updChan d (fun c => { c with erases := c.erases + 1 })).erasedAgain d ⟨p, true, qlc, .again⟩ (!Config.eraseFails n)

/-- An extent block leaves its window position empty, and is erased in the background in the mode it last held (R349, R415). -/
def State.freeBlock (s : State) (d j : Nat) : State :=
  let s := if s.movesBlock d ((s.die d).ringPos j) then s.dropMove else s
  let x := s.die d
  let p := x.ringPos j
  let s := s.setDie d { x with slots := put j none x.slots }
  if x.failed then s
  else (s.updBlk d p (fun b => { b with erasing := true, erased := false, wp := 0 })).queueWrite d ⟨p, true, (x.blk p).qlc, .background⟩

/-! ## Blocks that Rinsis owns (R234, R236) -/

/-- A block with room on a die, in a mode, other than block `skip`: one already open, or a new one; with its key. -/
def State.blockOn (s : State) (d : Nat) (qlc : Bool) (skip : Option Nat) : Option (Nat × State) :=
  if (s.die d).failed then none
  else match s.media.sealBlocks.find? (fun (k, b) => k / 4096 == d && b.qlc == qlc && some k != skip && !s.movesBlock d ((s.die d).ringPos (k % 4096)) && decide (b.units.length < blockUnits qlc)) with
  | some (k, _) => some (k, s)
  | none => (s.windowSlot d).map (fun (j, s) =>
      let s := s.takeBlock d j qlc
      (4096 * d + j, { s with media := { s.media with sealBlocks := put (4096 * d + j) { qlc := qlc } s.media.sealBlocks } }))

/-- A block with room on a channel: on the first die, from a free one on, that gives one, a die where nothing runs or waits before the others (R234,
R330; log entry 173). Where the channel gives none any more once a seal has begun, the next channel that does takes the unit (log entry 212). -/
def State.blockIn (s : State) (ch : Nat) (qlc : Bool) (skip : Option Nat) : Option (Nat × State) :=
  let (n, s) := s.draw
  let dies (c : Nat) : List Nat := (List.range 16).map (fun i => 16 * (c % 32) + (Config.sealDie n + i) % 16)
  let here := dies ch
  (here.filter (fun d => (s.die d).idle) ++ here.filter (fun d => !(s.die d).idle) ++ (List.range 31).flatMap (fun i => dies (ch + 1 + i))).findSome?
    (fun d => s.blockOn d qlc skip)

/-- The next unit of a block is programmed (R326, R328): a QLC word line takes one program. -/
def State.programSeal (s : State) (k : Nat) (held : Nat × Nat × Nat) : State :=
  match find k s.media.sealBlocks with
  | none => s
  | some b =>
    let d := k / 4096
    let n := b.units.length
    let s := { s with media := { s.media with sealBlocks := put k { b with units := b.units ++ [held] } s.media.sealBlocks } }
    let s := s.updChan d (fun c => { c with progs := if b.qlc && n % 4 != 0 then c.progs else c.progs + 1, reads := c.reads + 1 })
    let t := (s.die d).temp
    s.updBlk d ((s.die d).ringPos (k % 4096)) (fun x => { x with
      wp := n + 1, minute := if n = 0 then s.time.epoch.toNat else x.minute, temp := if n = 0 then t else x.temp })

/-- Programs one stored unit of an object's copy on a channel and reads it back (R234, R235): after a program failure the block is retired and
the unit goes to another; after a read-back that stays uncorrectable (R336) it goes to another unit. Answers the state with the unit's place. -/
def State.sealUnit (s : State) (h : W32) (copy unit ch : Nat) (qlc : Bool) (skip : Option Nat) : List Bool → State
  | [] => match s.blockIn ch qlc skip with
    | none => s
    | some (k, s) =>
      let page := ((find k s.media.sealBlocks).map (fun b => b.units.length)).getD 0
      (s.programSeal k (h.toNat, copy, unit)).updObj h (fun o => { o with f := o.f.map (fun f =>
        { f with places := put (16777216 * copy + unit) (2048 * k + page) f.places }) })
  | fault :: fs => match s.blockIn ch qlc skip with
    | none => s
    | some (k, s) =>
      if fault then
        let d := k / 4096
        let wp := ((find k s.media.sealBlocks).map (fun b => b.units.length)).getD 0
        let p := (s.die d).ringPos (k % 4096)
        let s := (s.retire d p).copyBelow d wp (if qlc then ceilDiv wp 4 else wp)
        (if wp = 0 then s else s.dateBlock d p).sealUnit h copy unit ch qlc (some k) fs
      else ((s.programSeal k (0, 0, 0)).updChan (k / 4096) (fun c => { c with retries := c.retries + 7, uncorr := c.uncorr + 1 })).sealUnit h copy unit ch qlc skip fs

/-- Units of a copy's record and table (R229, R230, R234). -/
def Obj.tableUnits (o : Obj) : Nat := unitsOf (160 + (if o.direct then 0 else 16 * ceilDiv o.size (2 ^ o.blkshift)))

/-- The units of a sealed object with its record and table that Rinsis writes, in the order of their writing (R234): copy, unit, channel and mode. `chan`
gives the channel of each unit of the first copy, the record and table after its data; the second copy of each lies on channel (c + 16) mod 32;
record and table in pSLC. The first copy of an object sealed in place is written already (R220). -/
def Obj.plan (o : Obj) (stored : Nat) (chan : Nat → Nat) : List (Nat × Nat × Nat × Bool) :=
  (List.range o.copies).flatMap (fun c =>
    (if c = 0 ∧ o.extent.isSome then [] else (List.range (unitsOf stored)).map (fun u => (c, u, (chan u + 16 * c) % 32, o.qlc))) ++
    (List.range o.tableUnits).map (fun u => (2 + c, u, (chan (unitsOf stored + u) + 16 * c) % 32, false)))

/-- The channel of a unit of a second copy, by the place that its first copy has (R234). -/
def State.pairedTo (s : State) (h : W32) (copy unit : Nat) : Option Nat :=
  if copy % 2 = 0 then none
  else (((s.obj? h).bind (fun o => o.f)).bind (fun f => f.place? (copy - 1) unit)).map (fun a => (placeDie a / 16 + 16) % 32)

/-- Puts every stored unit of a sealed object, and its record and table, in place (R234). -/
def State.placeUnits (s : State) (h : W32) (plan : List (Nat × Nat × Nat × Bool)) : State :=
  plan.foldl (fun s (copy, unit, ch, qlc) =>
    let (m, s) := s.draw
    s.sealUnit h copy unit ((s.pairedTo h copy unit).getD ch) qlc none (Config.sealFaults m)) s

/-! ## Room for sealed units (R355) -/

/-- Units that the blocks charged on a channel can still take, in a mode. -/
def State.roomOn (s : State) (ch : Nat) (qlc : Bool) : Nat :=
  (s.media.sealBlocks.map (fun (k, b) =>
    if k / 65536 = ch ∧ b.qlc = qlc ∧ (s.die (k / 4096)).failed = false ∧ s.blockCharged k b = true then blockUnits qlc - b.units.length else 0)).foldl (· + ·) 0

/-- The blocks that units take beyond those with room (R234, R355). -/
def State.newBlocks (s : State) (plan : List (Nat × Nat × Nat × Bool)) : Nat :=
  ((List.range 32).map (fun ch => ([false, true].map (fun q =>
    ceilDiv (plan.countP (fun (_, _, c, m) => c == ch && m == q) - s.roomOn ch q) (blockUnits q))).foldl (· + ·) 0)).foldl (· + ·) 0

/-- Whether a channel can still take units of Rinsis: a die of it works, and its window can grow or has an empty position (R345, R349). -/
def State.channelTakes (s : State) (ch : Nat) : Bool :=
  (List.range 16).any (fun i =>
    let x := s.die (16 * ch + i)
    !x.failed && (decide (x.winW < 4096) || (List.range 4096).any (fun j => getD none x.slots j == none)))

/-- The channels that take units of an object: each can take one, and so can the one that its second copy goes to (R234, R235). -/
def State.channelsFor (s : State) (o : Obj) : List Nat :=
  (List.range 32).filter (fun c => s.channelTakes c && (o.copies != 2 || s.channelTakes ((c + 16) % 32)))

/-- Whether Tier F has room for units (R225, R235, R355): in the user capacity, and on each channel that they go to. -/
def State.fits (s : State) (plan : List (Nat × Nat × Nat × Bool)) : Bool :=
  decide (s.usedUnits + 2048 * s.newBlocks plan ≤ userUnits) && plan.all (fun (_, _, ch, _) => s.channelTakes ch)

/-- The places of an object sealed in place: its units lie in the blocks of its extent, in block and unit order (R164, R220). -/
def State.placesInExtent (s : State) (e : Extent) : SMap Nat :=
  ((List.range e.blocks).flatMap (fun i =>
    let (d, p) := s.extentAt e i
    (List.range ((s.die d).blk p).wp).map (fun u => 2048 * (4096 * d + (e.slots[i]?).getD 0) + u))).zipIdx.map (fun (a, i) => (i, a))

/-- The places that an object has before Rinsis writes: those of an object sealed in place. -/
def State.homePlaces (s : State) (o : Obj) : SMap Nat :=
  match o.extent.bind (fun e => s.extent? e.1) with
  | some e => s.placesInExtent e
  | none => []

/-- The channel of each unit of an object's first copy (R234, R345): that of its place, or consecutive ones, of those that can take it, from
number `first` on. -/
def unitChannel (places : SMap Nat) (takes : List Nat) (first u : Nat) : Nat :=
  match find u places with
  | some a => placeDie a / 16
  | none => (takes[(first + u) % Nat.max 1 takes.length]?).getD 0

/-- Puts sealed content into the directory under handle `h` (R217, R229, R234, R235): the outcome and the state. `o` holds the properties of the
sealed object; the Tier F copies that a re-seal replaces are neither held nor charged beside the new ones. -/
def State.sealInto (s : State) (h : W32) (o : Obj) (content : List Byte) (stored : Nat) : W16 × State :=
  let o := { o with size := content.length }
  let units := unitsOf stored * o.copies
  let (n, t) := s.draw
  let places := s.homePlaces o
  let plan := o.plan stored (unitChannel places (s.channelsFor o) (Config.sealChannel n))
  let bare := t.setObj h { o with f := none }
  if s.ftl.readOnly || !bare.fits plan then (stTierFull, s)
  else if !pinnedClass o.typ || decide (s.charged o.owner 2 + units * 65536 ≤ s.quota o.owner 2 + ((s.obj? h).map (fun o => o.charge 2)).getD 0) then
    let (cairn, s) := t.stampGet (srcControl 0) 0x4D (h.setWidth 28) []
    let o := { o with state := 1, case_ := 0, data := memOf content, digest := digestOf content,
                      stored := stored, f := some { stored := stored, places := places }, sealCairn := cairn, sealing := false }
    (stOk, (s.setObj h o).placeUnits h plan)
  else (stQuotaExceeded, s)

/-! ## Moving and erasing (R236) -/

/-- Whether fewer than a quarter of a block's units belong to live objects (R236). -/
def State.sparse (s : State) (k : Nat) : Bool :=
  ((find k s.media.sealBlocks).map (fun b => decide (4 * s.liveUnits k < blockUnits b.qlc))).getD false

/-- Whether a read of units that a block of Rinsis holds is in flight (R236): one in its die's queue, or a transfer or a traversal context's fetch of an
object that has or had units in it. -/
def State.readInFlight (s : State) (k : Nat) (b : SealBlock) : Bool :=
  let x := s.die (k / 4096)
  let holds (h : W32) : Bool := b.units.any (fun u => u.1 != 0 && u.1 == h.toNat)
  (x.reads ++ x.reading.toList).any (fun r => r.block == x.ringPos (k % 4096)) ||
    s.host.xfers.any (fun t => !t.cut && holds t.src) ||
    s.engines.any (fun (_, e) => e.ctxs.any (fun (_, c) => c.fetch.any (fun (_, h, _) => holds h)))

/-- The blocks of Rinsis in which no live object has a unit, and no read is in flight, are erased, and go (R236). -/
def State.reapSealed (s : State) : State :=
  s.media.sealBlocks.foldl (fun s (k, b) =>
    if b.units.isEmpty || s.liveUnits k != 0 || s.readInFlight k b then s
    else ({ s with media := { s.media with sealBlocks := remove k s.media.sealBlocks } }).freeBlock (k / 4096) (k % 4096)) s

/-- Whether Rinsis moves the units of a block of its own (R236, R377): it is sparse, or one of R377's triggers calls for it (log entry 182). -/
def State.movesFrom (s : State) (k : Nat) : Bool :=
  s.sparse k || (find k s.media.sealBlocks).isSome && ((s.die (k / 4096)).blk ((s.die (k / 4096)).ringPos (k % 4096))).refresh

/-- Moves one stored unit of an object out of its block when that may be (R236, R377), to another block of the same channel, so that the pairing of
R234 holds. -/
def State.moveUnit (s : State) (h : W32) (qlc : Bool) (copy unit : Nat) : State :=
  match ((s.obj? h).bind (fun o => o.f)).bind (fun f => f.place? copy unit) with
  | none => s
  | some a =>
    if !s.movesFrom (a / 2048) then s
    else
      let (n, s) := s.draw
      s.sealUnit h copy unit (placeDie a / 16) qlc (some (a / 2048)) (Config.sealFaults n)

/-- The copy, the unit and the mode that a unit's number in an object means (R234): the stored units of its copies, then the record and table of each
(copies 2 and 3), in pSLC. -/
def Obj.numbered (o : Obj) (stored u : Nat) : Nat × Nat × Bool :=
  let n := Nat.max 1 (unitsOf stored)
  let data := unitsOf stored * o.copies
  if u < data then (u / n, u % n, o.qlc) else (2 + (u - data) / o.tableUnits, (u - data) % o.tableUnits, false)

end Sys2Proof.Machine
end

