-- ==== Sys2Proof/Machine/Stream.lean ====
section
/-! DEFINITION. The stream group (06 R157 to R159; 05 R113 to R115, R135) and the transfers (08 R239 to R241; 14 R424). -/
namespace Sys2Proof.Machine

/-! ## Descriptor fields -/

/-- DSC.WR (R157): refused for STATUS, BUSY, fields that do not exist and values wider than the field; waits while BUSY. -/
def execDscWr (ag : Agent) (w : IWord) (s : State) : Out :=
  .next (s.issue { major := 0x20, minor := 0x02, dst := .d, a := .s, imm := 0xF, refusable := true, accept := .core } ag w (fun s =>
    match ag with
    | .ctx _ _ => .hold
    | .core t c =>
      let k := s.core t.val c.val
      let v := (k.r.rs w.srcA).toNat
      match dscField (w.imm.toNat % 16) with
      | none => .refuse stInvalidOperand
      | some (lo, width) =>
        if 12 ≤ w.imm.toNat % 16 ∨ 2 ^ width ≤ v then .refuse stInvalidOperand
        else if dBusy (k.rd w.dst) then .await s [w.dst.toNat]
        else .done (s.setCore t.val c.val (k.wd w.dst (setField (k.rd w.dst) lo width v)))))

/-- DSC.RD (R157): a field zero-extended. -/
def execDscRd (ag : Agent) (w : IWord) (s : State) : Out :=
  .next (s.issue { major := 0x20, minor := 0x03, dst := .s, a := .d, imm := 0xF, refusable := true, accept := .core } ag w (fun s =>
    match ag with
    | .ctx _ _ => .hold
    | .core t c =>
      match dscField (w.imm.toNat % 16) with
      | none => .refuse stInvalidOperand
      | some (lo, width) =>
        .done (s.updRegs ag (fun r => r.ws w.dst (BitVec.ofNat 64 (getField ((s.core t.val c.val).rd w.srcA) lo width))))))

/-- DSC.CLR (R157): every field 0; waits while BUSY. -/
def execDscClr (ag : Agent) (w : IWord) (s : State) : Out :=
  .next (s.issue { major := 0x20, minor := 0x04, dst := .d, accept := .core } ag w (fun s =>
    match ag with
    | .ctx _ _ => .hold
    | .core t c =>
      let k := s.core t.val c.val
      if dBusy (k.rd w.dst) then .await s [w.dst.toNat] else .done (s.setCore t.val c.val (k.wd w.dst 0))))

/-- STRM.WAIT (R157): passes once BUSY is clear. -/
def execStrmWait (ag : Agent) (w : IWord) (s : State) : Out :=
  .next (s.issue { major := 0x20, minor := 0x01, a := .d, accept := .core } ag w (fun s =>
    match ag with
    | .ctx _ _ => .hold
    | .core t c => if dBusy ((s.core t.val c.val).rd w.srcA) then .park s (.stream w.srcA) else .done s))

/-! ## STRM.GO (R158) -/

/-- One side of a transfer: the object it names, or the refusal. -/
def streamSide (s : State) (job : Option Nat) (h : W32) (off len : Nat) (dst : Bool) : Except W16 W32 :=
  if h = 0 then (if !inSram off len then .error stInvalidOperand else .ok 0)
  else match s.named? job h with
    | none => .error stObjectUnknown
    | some (r, o) =>
      if o.size < off + len then .error stOutOfRange
      else if dst ∧ (o.state ≠ 0 ∨ o.sealing) then .error stObjectSealed
      else .ok r

/-- The checks of a transfer (R158): the objects its two sides name, or the refusal. -/
def streamCheck (s : State) (job : Option Nat) (t : Nat) (d : W256) : Except W16 (W32 × W32) :=
  let (m, r) := s.placeOf job t
  let (_, rows, _, bytes) := panelShare d m r
  let skew := dLayout d == 1
  if 2 ≤ dLayout d ∨ (skew ∧ dDstObj d ≠ 0) ∨ (skew ∧ 2048 < dBrow d + panelSpan rows (ceilDiv bytes 64)) then .error stInvalidOperand
  else match streamSide s job (dSrcObj d) (dSrcOff d) (dLen d) false with
    | .error e => .error e
    | .ok src => match streamSide s job (dDstObj d) (dDstOff d) (dLen d) true with
      | .error e => .error e
      | .ok dst => .ok (src, dst)

/-- STRM.GO (R115, R158): checked, refused or started; a transfer of no bytes completes at once, if the checks of R158 pass (log entry 193, the
model's choice). -/
def execStrmGo (ag : Agent) (w : IWord) (s : State) : Out :=
  .next (s.issue { major := 0x20, minor := 0x00, a := .d, refusable := true, accept := .core } ag w (fun s =>
    match ag with
    | .ctx _ _ => .hold
    | .core t c =>
      let k := s.core t.val c.val
      let d := k.rd w.srcA
      let job := k.r.job
      if dBusy d then .await s [w.srcA.toNat]
      else match streamCheck s job t.val d with
        | .error e => .refuse e
        | .ok (src, dst) =>
          if dLen d = 0 then
            let s := s.setCore t.val c.val (k.wd w.srcA (dSet d false stOk))
            .done (if dFlagEn d then s.setFlag t (job.getD 0) (dFlag d) else s)
          else
            let x : Xfer := { tile := t.val, core := c.val, dsc := w.srcA.toNat, job := job.getD 0, word := k.r.pc.toNat,
                              stamp := w.stamp, src := src, dst := dst, halted := none, cut := false }
            let s := s.setCore t.val c.val (k.wd w.srcA (setField d 0 1 1))
            let (inS, inD) := ((s.obj? src).map (fun o => o.readCopies t.val (dSrcOff d) (dLen d))).getD (false, false)
            .async { ((s.touchCopies src inS inD).touch dst) with host := { s.host with xfers := s.host.xfers ++ [x] } }))

/-! ## Completion -/

/-- Where byte `i` of the member's data lands in a skewed panel (R95, R114, R135); none when it belongs to no panel row of the share. -/
def landing (d : W256) (m r i : Nat) : Option Nat :=
  let (r0, _, b0, bytes) := panelShare d m r
  if inShare d m r i then
    let at_ := i % (64 * dChunks d) - b0
    some (panelAddr (dBrow d) (ceilDiv bytes 64) (i / (64 * dChunks d) - r0) (at_ / 64) + at_ % 64)
  else none

/-- The bytes after the last item of each row of the member's panel, which are written 0 (R95). -/
def padAddrs (d : W256) (m r : Nat) : List Nat :=
  let (_, rows, _, bytes) := panelShare d m r
  let c := ceilDiv bytes 64
  if bytes = 64 * c then []
  else (List.range rows).flatMap (fun n => (List.range (64 * c - bytes)).map (fun k =>
    panelAddr (dBrow d) c n ((bytes + k) / 64) + (bytes + k) % 64))

/-- The bytes of a linear transfer that the member takes, in order (R135): all without a split, else those of its share (log entry 152). -/
def shareBytes (d : W256) (m r : Nat) (bs : List Byte) : List Byte :=
  if dSplit d = 0 then bs else (bs.zipIdx.filter (fun x => inShare d m r x.2)).map Prod.fst

/-- Whether a transfer moves bytes of an object's Tier D copy over a halted channel of the tile's cluster (R239). The
4 KiB lines of a copy alternate between the stacks (R222). -/
def State.onHalted (s : State) (t : Nat) (h : W32) (off len : Nat) : Bool :=
  h != 0 && (match s.obj? h with
    | none => false
    | some o => o.d.isSome && s.obj.halted.any (fun (st, ch) => ch == t / 16 &&
        (off / 4096 != (off + len - 1) / 4096 || (Config.firstStack h + off / 4096) % 2 == st)))

/-- The bytes a transfer reads (R158); none when some byte has no intact copy. -/
def State.streamBytes (s : State) (t : Nat) (x : Xfer) (d : W256) : Option (List Byte) :=
  if x.src = 0 then some ((s.tile t).sram.rdBytes (dSrcOff d) (dLen d))
  else match s.obj? x.src with
    | none => none
    | some o => s.objBytes o t (dSrcOff d) (dLen d)

/-- Writes a transfer's data, or its first bytes, to its destination (R95, R135). -/
def State.streamLand (s : State) (t : Nat) (x : Xfer) (d : W256) (bs : List Byte) : State :=
  let (m, r) := s.placeOf (some x.job) t
  if x.dst ≠ 0 then
    match s.obj? x.dst with
    | none => s
    | some o => s.writeObj x.dst o (dDstOff d) (shareBytes d m r bs)
  else if dLayout d ≠ 1 then s.sramWrite t (dDstOff d) (shareBytes d m r bs)
  else
    let mem := bs.zipIdx.foldl (fun (mm : Mem) (b, i) => match landing d m r i with
      | some a => mm.wr a b
      | none => mm) (s.tile t).sram
    let mem := (padAddrs d m r).foldl (fun (mm : Mem) a => mm.wr a 0) mem
    let (a, n) := landRange d m r
    (s.setTile t { s.tile t with sram := mem }).eccWritten 0 (s.physOf t) a n

/-- The end of a transfer (R115, R122, R131): STATUS, then BUSY, then FLAG; waiting cores go on; the cairn. -/
def State.streamEnd (s : State) (tile : Fin 256) (core : Fin 4) (x : Xfer) (code : W16) : State :=
  let ag : Agent := .core tile core
  let k := s.core tile.val core.val
  let n := BitVec.ofNat 5 x.dsc
  let d := k.rd n
  let s := { s with host := { s.host with xfers := s.host.xfers.erase x } }
  let s := s.setCore tile.val core.val { k.wd n (dSet d false code) with
    r := k.r.outcome code, awaits := k.awaits.map (fun (p, ds) => (p, ds.filter (fun y => y != x.dsc))) }
  let s := match (s.regs ag).run with
    | .waiting (.stream m) _ => if m = n then s.wake ag else s
    | _ => s
  let s := if dFlagEn d then s.setFlag tile x.job (dFlag d) else s
  s.stampIf x.stamp ag (BitVec.ofNat 64 x.word)

/-- The leading bytes of a transfer that have an intact copy, in order. -/
def State.streamPrefix (s : State) (t : Nat) (x : Xfer) (d : W256) : List Byte :=
  if x.src = 0 then (s.tile t).sram.rdBytes (dSrcOff d) (dLen d)
  else match s.obj? x.src with
    | none => []
    | some o => ((List.range (dLen d)).map (fun i => s.objByte o t (dSrcOff d + i))).takeWhile Option.isSome |>.filterMap id

/-- A transfer that ends with an outcome: of the bytes `bs` that it could deliver, how many have landed is free (log entry 17). -/
def State.streamFail (s : State) (tile : Fin 256) (core : Fin 4) (x : Xfer) (d : W256) (bs : List Byte) (code : W16) : State :=
  let (n, s) := s.draw
  ((s.streamLand tile.val x d (bs.take (Config.delivered n % (bs.length + 1)))).shortRecord tile.val core.val code).streamEnd tile core x code

/-- A Tier D channel halts under a transfer (R239, R242): DMA_HALT, the count, and the transfer stays BUSY. -/
def State.haltChannel (s : State) (x : Xfer) (stack cluster unit : Nat) : State :=
  let o := s.obj
  let o := { o with halted := if o.halted.contains (stack, cluster) then o.halted else o.halted ++ [(stack, cluster)],
                    haltUnits := put (16 * stack + cluster) unit o.haltUnits, halts := put stack (satInc (getD 0 o.halts stack)) o.halts }
  let xs := s.host.xfers.map (fun y => if y = x then { y with halted := some (stack, cluster) } else y)
  let s := { s with obj := o, host := { s.host with xfers := xs } }
  s.stamp (srcDram stack) 0x4C (BitVec.ofNat 1 stack ++ BitVec.ofNat 4 cluster ++ BitVec.ofNat 23 unit)

/-- A word with an uncorrectable error of the Tier S copy of an object on tile `t`, in a range that no copy gives whole (R158, R423). -/
def State.copyBad (s : State) (o : Obj) (t off n : Nat) : Option (BitVec 40) :=
  match o.s.bind (fun c => c.part o.size t off n) with
  | none => none
  | some (a, i, k) => (s.ecc.bad.find? (fun w => w.kind == 0 && w.unit == s.physOf t && decide (w.addr < a + k) && decide (a < w.addr + 8) &&
      (List.range 8).any (fun b => decide (a ≤ w.addr + b) && decide (w.addr + b < a + k) && (s.objByte o t (i + (w.addr + b - a))).isNone))).map
        (fun w => BitVec.ofNat 40 w.addr)

/-- A word of the SRAM that a transfer of a tile reads, when it holds an uncorrectable error: of the source range, or of a Tier S copy there that
no other copy stands in for (R423). -/
def State.streamBad (s : State) (t : Nat) (x : Xfer) (d : W256) (hit : XferMedia) : Option (BitVec 40) :=
  match hit with
  | .sram a => some a
  | _ => if x.src ≠ 0 then (s.obj? x.src).bind (fun o => s.copyBad o t (dSrcOff d) (dLen d))
    else match s.eccOf 0 (s.physOf t) (dSrcOff d) (dLen d) .clean with
      | .uncorrectable a => some a
      | _ => none

/-- The unit of an object's Tier D copy, among those of a range, that lies at an address of a stack; the first when none does (R241). -/
def Obj.unitAt (o : Obj) (h : W32) (off len addr : Nat) : Nat :=
  match o.d with
  | none => off / 65536
  | some c => (((List.range ((off + len - 1) / 65536 + 1 - off / 65536)).map (off / 65536 + ·)).find? (fun u => c.loc h u == addr / 65536)).getD (off / 65536)

/-- Whether a range of an object touches a unit with an error that nothing restores (R241). -/
def State.badUnder (s : State) (h : W32) (off len : Nat) : Bool :=
  h != 0 && (match s.obj? h with
    | some o => (o.gone ++ (o.d.map (fun c => c.bad)).getD []).any (fun u => decide (65536 * u < off + len) && decide (off < 65536 * (u + 1)))
    | none => false)

/-- Whether a range of an object is read from Tier F in part: no other copy gives it whole (R158). -/
def State.servedF (s : State) (o : Obj) (t off n : Nat) : Bool := o.f.isSome && (s.objBytes { o with f := none } t off n).isNone

/-- A unit of a ready object becomes unreadable until the object is dropped (R241). -/
def State.loseUnit (s : State) (h : W32) (u : Nat) : State :=
  s.updObj h (fun o => { o with gone := if o.gone.contains u then o.gone else o.gone ++ [u],
                                d := o.d.map (fun c => { c with bad := if c.bad.contains u then c.bad else c.bad ++ [u] }) })

/-- STREAM_TRANSFER_COMPLETE (R115, R158, R237, R239, R241, R424): the transfer moves its bytes and ends, or ends with
an outcome, or its channel halts before any byte of the line in error is delivered; a corrected error is counted (R420); an error in the Tier D copy that serves an object of case 1 puts it in case 3 (R238). A transfer that a halt or a reset holds does not complete. -/
def execStreamTransferComplete (tile : Fin 256) (core : Fin 4) (dsc : Fin 16) (media : XferMedia) (s : State) : Out :=
  let t := tile.val
  .next (match s.host.xfers.find? (fun x => x.tile == t && x.core == core.val && x.dsc == dsc.val) with
  | none => s
  | some x =>
    let d := (s.core t core.val).rd (BitVec.ofNat 5 dsc.val)
    if x.cut || x.halted.isSome || (s.tile t).halted.isSome ||
        s.onHalted t x.src (dSrcOff d) (dLen d) || s.onHalted t x.dst (dDstOff d) (dLen d) then s
    else match s.streamBad t x d media with
    | some a => (s.noteUe (s.srcTile t) 0 (s.physOf t) 2 a).haltTile t core.val a.toNat
    | none =>
      match media with
      | .tierD stack addr =>
        let s := s.noteUe (srcDram stack.val) 2 stack.val 2 addr
        let s' := s.haltChannel x stack.val (t / 16) (addr.toNat / 65536)
        let y := { x with halted := some (stack.val, t / 16) }
        let unrestored (s : State) : State := { s with obj := { s.obj with haltUnits := remove (16 * stack.val + t / 16) s.obj.haltUnits } }
        (match s.obj? x.src with
        | none => s
        | some o =>
          let unit := o.unitAt x.src (dSrcOff d) (dLen d) addr.toNat
          let bs := (s.streamPrefix t x d).take ((Nat.min (65536 * (unit + 1)) (dSrcOff d + dLen d) - 1) / 64 * 64 - dSrcOff d)
          if o.f.isSome ∧ o.case_ ≠ 1 ∧ o.case_ ≠ 3 then s'
          else if o.f.isSome then ((unrestored s').impair x.src).streamFail tile core y d bs stObjectImpaired
          else (unrestored (s'.loseUnit x.src unit)).streamFail tile core y d bs stObjectImpaired)
      | .peerReset => s.streamFail tile core x d (s.streamPrefix t x d) stPeerReset
      | .memberMissing => s.streamFail tile core x d (s.streamPrefix t x d) stMemberMissing
      | _ =>
        let s := match media with
          | .corrected stack bit addr => s.noteCe 2 stack.val 2 bit addr
          | .sramCorrected bit addr => s.noteCe 0 (s.physOf t) 2 bit addr
          | _ => s
        let fromF := x.src ≠ 0 ∧ ((s.obj? x.src).map (fun o => s.servedF o t (dSrcOff d) (dLen d))).getD false
        let bad : Bool := media == .impaired || media == .uncorrectable
        let s := if fromF ∧ s.sec.mbk ∧ (bad ∨ (s.streamBytes t x d).isNone) then s.impair x.src else s
        match s.streamBytes t x d with
        | none => s.streamFail tile core x d (s.streamPrefix t x d)
            (if fromF ∧ !s.sec.mbk ∧ ((s.obj? x.src).map (fun o => o.case_)).getD 0 ≠ 3 then stMediaUncorrectable else stObjectImpaired)
        | some bs =>
          if (x.src ≠ 0 ∧ (s.obj? x.src).isNone) ∨ (x.dst ≠ 0 ∧ (s.obj? x.dst).isNone) ∨ s.badUnder x.dst (dDstOff d) (dLen d) then
            s.streamFail tile core x d bs stObjectImpaired
          else (s.streamLand t x d bs).streamEnd tile core x stOk)

end Sys2Proof.Machine
end

