-- ==== Sys2Proof/Machine/Jobs.lean ====
section
/-! DEFINITION. The end of a job, its result and completion, and aborts (07 R205 to R211; 13 R389, R402 to R408). -/
namespace Sys2Proof.Machine

/-! ## What a job gives back -/

/-- Gives back what agents hold for a job: cores, contexts, walks, records, transfers and forwards. -/
def State.releaseAgents (s : State) (n : Nat) : State :=
  let tiles := ((s.job? n).map (fun j => j.tiles)).getD []
  let s := tiles.foldl (fun s t => s.freeCores n t) s
  let engines := s.engines.map (fun (e, x) => (e, { x with
    walks := remove n x.walks, ctxs := x.ctxs.map (fun (k, c) => (k, if c.r.job = some n then {} else c)) }))
  let s := s.keepIssued (fun r => r.job == n)
  let h := { s.host with xfers := s.host.xfers.filter (fun x => x.job != n),
                         forwards := s.host.forwards.filter (fun f => f.job != n) }
  { s with engines := engines, host := h }

/-- Whether a running job is bound to an extent. -/
def State.extentBound (s : State) (h : W32) : Bool := s.host.jobs.any (fun j => j.running && j.bound.contains h)

/-- Frees an extent that no running job is bound to (R415): its blocks are erased in the background, each in the mode it last
held, and its positions in the windows become empty. -/
def State.freeExtentNow (s : State) (h : Nat) (e : Extent) : State :=
  let s := { s with media := { s.media with extents := remove h s.media.extents } }
  (List.range e.blocks).foldl (fun s i => s.freeBlock (dieOfBlock i) ((e.slots[i]?).getD 0)) s

/-- Frees every extent whose free waits and whose last bound job has ended (R415). -/
def State.reapExtents (s : State) : State :=
  s.media.extents.foldl (fun s (h, e) => if e.freed && !s.extentBound (BitVec.ofNat 32 h) then s.freeExtentNow h e else s) s

/-- An index all of whose CODEBOOKs the directory has forgotten goes, and so do its TOMBSTONES and MORAINE objects when no other index holds them
(R218, R278). -/
def State.dropIndexes (s : State) : State :=
  let heads := s.idx.heads.filter (fun (h, _) => (find h s.obj.dir).isSome)
  let held (k : Nat) : Bool := (find k s.obj.dir).isSome || heads.any (fun (_, t) => t == k)
  let gone := s.idx.all.filter (fun (k, _) => !held k)
  let keep := s.idx.all.filter (fun (k, _) => held k)
  let parts := (gone.flatMap (fun (_, x) => [x.tombObj, x.moraineObj])).filter (fun h =>
    keep.all (fun (_, x) => x.tombObj != h && x.moraineObj != h))
  parts.foldl (fun s h => s.dropObj h) { s with idx := { s.idx with all := keep, heads := heads } }

/-- Removes tombstone-log entries that every running job's view has passed (R271), and rows and segments that none needs (R278). -/
def State.reapIndex (s0 : State) : State :=
  let s := s0.dropIndexes
  let uses (f : Job → Nat) (h : Nat) (n : Nat) : Bool := s.host.jobs.any (fun j => j.running && j.bound.any (fun b => s.indexKey b == h) && decide (f j ≤ n))
  let old := s.idx.all.flatMap (fun (h, x) => (x.segs.filter (fun (_, n) =>
    decide (n + 65536 ≤ x.base) && !uses (fun j => j.base) h (n + 65535))).map Prod.fst)
  let s := { s with idx := { s.idx with all := s.idx.all.map (fun (h, x) => (h, { x with
      tlog := x.tlog.filter (fun (_, r) => uses (fun j => j.length) h r),
      segs := x.segs.filter (fun (g, _) => !old.contains g),
      rows := (x.rows.filter (fun (n, _) => decide (x.base ≤ n) || uses (fun j => j.base) h n)).map (fun (n, r) =>
        (n, { r with older := r.older.filter (fun (k, _) => (find k s.obj.dir).isSome) })) })) } }
  old.foldl (fun s h => s.dropObj h) s

/-- The end of a job (R208, R209, R218, R306): it leaves the list, its objects are dropped unless pinned or sealed (a RESULT, a KV_CACHE
and a PREFILL that no commit took always are, and so is what a consolidation sealed and did not swap, R279), and what was kept for it is freed. -/
def State.endJob (s : State) (n : Nat) : State :=
  match s.job? n with
  | none => s
  | some j =>
    let s := s.releaseAgents n
    let s := { s with host := { s.host with jobs := s.host.jobs.filter (fun k => k.num != n) } }
    let mine := if j.result = 0 then j.created else j.result :: j.created
    let s := mine.foldl (fun s h => match s.obj? h with
      | none => s
      | some o =>
        let pinned := (o.s.map (fun c => c.pinned)).getD false || (o.d.map (fun c => c.pinned)).getD false
        if (pinned || o.state != 0) && o.typ != 0x0D && o.typ != 0x0B && o.typ != 0x09 then s.updObj h (fun o => { o with job := none })
        else s.dropObj h) s
    let s := j.made.foldl State.dropObj s
    (s.reapObjs.reapExtents).reapIndex.reapSealed

/-! ## Deleted queues and disabled controllers (R389) -/

/-- A controller after its own reset (R473): its NVMe state is at the default; what the PF assigned to it, and D3hot, stay. -/
def Ctrl.afterReset (k : Ctrl) : Ctrl := { pairs := k.pairs, vectors := k.vectors, d3 := k.d3 }

/-- Completes the Delete of a queue whose last job has stopped, and a disable whose last job has stopped. -/
def State.settleQueues (s : State) : State :=
  s.host.ctrls.foldl (fun s (ci, _) =>
    let c : Fin 33 := Fin.ofNat 33 ci
    let k := s.ctrl c
    let busy (q : Nat) : Bool := s.host.jobs.any (fun j => j.submitted && j.ctrl == c && j.sqid.toNat == q)
    let done := k.sqs.filter (fun (q, x) => x.deleting.isSome && !busy q)
    let s := s.setCtrl c { k with sqs := k.sqs.filter (fun (q, x) => !(x.deleting.isSome && !busy q)) }
    let s := done.foldl (fun s (_, x) => (s.send (.done ⟨c, 0, x.deleting.getD 0, 0, 0, 0, 0⟩)).send (.msix c 0 0)) s
    if k.disabling && !s.host.jobs.any (fun j => j.submitted && j.ctrl == c) then
      s.setCtrl c (s.ctrl c).afterReset
    else s) s

/-! ## Results (R402 to R404) -/

/-- The counter block of a job (R48): its COUNTERS cairn and the counts. -/
def Job.counterBytes (j : Job) : List Byte := leBytes 16 j.countersCairn.toNat ++ j.counts.attach.flatMap (fun x => leBytes 16 x.toNat)

/-- The header of the result region (R402). -/
def Job.header (j : Job) (count bytes : Nat) : List Byte :=
  leBytes 4 0x52525A55 ++ [1, j.opcode, 0, 0] ++ leBytes 4 count ++ leBytes 4 0 ++ leBytes 8 bytes ++ leBytes 8 0 ++
    leBytes 16 j.admittedCairn.toNat ++ leBytes 16 0 ++ j.counterBytes

/-- A SEARCH record (R404). -/
def Cand.bytes (c : Cand) : List Byte :=
  leBytes 8 c.key.toNat ++ leBytes 4 c.score.toNat ++ leBytes 5 c.node ++
    [c.label, BitVec.ofNat 8 c.drive, BitVec.ofNat 8 c.source] ++ leBytes 2 c.d ++ List.replicate 10 0

/-- A span entry, with its token IDs when they are asked for (R312). -/
def SpanEnt.bytes (e : SpanEnt) (tok : Bool) : List Byte :=
  let ts := e.tokens.flatMap (fun t => leBytes 4 t.toNat)
  [BitVec.ofNat 8 e.status, 0] ++ leBytes 2 e.passage ++ leBytes 4 e.score.toNat ++ [0] ++ leBytes 3 e.start ++ [0] ++ leBytes 3 e.stop ++
    (if tok && e.status == 0 then ts ++ List.replicate (padTo 16 ts.length - ts.length) 0 else [])

/-- The result bytes of a job after its header, and COUNT (R403). -/
def State.resultOf (s : State) (j : Job) : List Byte × Nat :=
  match j.kind with
  | .search p =>
    let rs := j.ranked.getD []
    (rs.flatMap Cand.bytes ++ (if p.depth = 0 then [] else j.spans.flatMap (fun e => e.bytes p.spantok)), rs.length)
  | .filter _ _ _ _ => ((if j.summary.isEmpty then List.replicate 64 0 else j.summary) ++ j.entries, j.nEntries)
  | .embed _ _ _ _ _ r _ _ => ((if r.isSome then (if j.summary.isEmpty then List.replicate 64 0 else j.summary) else []) ++ j.entries, j.nEntries)
  | .readAnswer _ _ _ _ _ _ tok => (j.spans.flatMap (fun e => e.bytes tok), j.spans.length)
  | .program _ _ _ _ _ =>
    match (if j.result = 0 then none else s.obj? j.result) with
    | some o =>
      let bs := s.content o
      (bs, leNat (bs.take 4))
    | none => ([], 0)
  | .consolidate _ => ([], 0)

/-! ## Completion (R24, R208, R405) -/

/-- The status with which a job completes (R195, R209, R463). -/
def Job.nvStatus (j : Job) : NvStatus := if j.homeless then nvInvalidNamespace else if j.caught then nvAborted else nvOf j.status

/-- A job that was counted SUBMITTED counts once more at its end (R208): after a CAUGHT or CAUGHT_AT_SADDLE reply as ABORTED, else by its
status. -/
def State.countEnd (s : State) (j : Job) (good : Bool) : State :=
  if !j.submitted then s
  else s.updCounts j.client (fun k =>
    if j.caught then { k with aborted := k.aborted + 1 }
    else if good then { k with completed := k.completed + 1 } else { k with failed := k.failed + 1 })

/-- The abort commands that wait for a job's end complete with MISSED (R209, R210); for one whose decision was still held, ABORT_MISSED comes
first. -/
def State.closeAborts (s : State) (j : Job) : State :=
  let s := j.abortsHeld.foldl (fun s _ => s.stamp (srcControl (Config.queueOwner j.ctrl j.sqid).val) 0x17 j.detail) s
  (j.abortsHeld ++ j.abortsAfter).foldl (fun s (c, nvme) => s.ok c (if nvme then 1 else 2)) s

/-- A completed job's tag stays known (R209). -/
def State.keepTag (s : State) (j : Job) : State :=
  let tag : Fin 33 × W16 × W16 := (j.ctrl, j.sqid, j.cid)
  let old := s.host.tags.filter (fun (t : (Fin 33 × W16 × W16) × BitVec 28) => t.1 != tag)
  { s with host := { s.host with tags := old ++ [(tag, j.detail)] } }

/-- Posts a job's completion and ends it (R24, R208, R209, R402): the entry, the COMPLETION_POSTED cairn, POSTED in the result region,
the message; the count; the tag; and the abort commands that waited for it. -/
def State.postJob (s : State) (j : Job) : State :=
  let wrote := j.phase == .written
  let count := if wrote then (s.resultOf j).2 else 0
  let flags := if wrote then j.flags else 0
  let s := s.send (.done ⟨j.ctrl, j.sqid, j.cid, BitVec.ofNat 32 count, flags, j.nvStatus.1, j.nvStatus.2⟩)
  let (cairn, s) := s.stampGet srcPcie 0x2C j.detail []
  let s := if wrote then s.send (.bytes ⟨j.ctrl, j.sqid, j.cid, j.outOff + 48, leBytes 16 cairn.toNat⟩) else s
  let s := s.sendMsix j.ctrl j.sqid
  let s := (s.countEnd j (j.status = 0)).keepTag j
  ((s.closeAborts j).endJob j.num).settleQueues

/-- A job ends without a completion (R208): it counts as ABORTED. -/
def State.endSilent (s : State) (j : Job) : State :=
  (((s.countEnd { j with caught := true } false).closeAborts j).endJob j.num).settleQueues

/-- RESULT_WRITTEN (R24, R209, R402): header and result bytes, then the cairn; abort decisions held for it are made. The
writing waits while its function is in D3hot (R472) and while the drive leaves a power state (R418). -/
def execResultWritten (job : Nat) (s : State) : Out :=
  .next (s.orStall <| match s.job? job with
  | none => s
  | some j =>
    if j.phase != .writing || s.waits j.ctrl || j.silent then s
    else
      let s := if j.recode = 0 then s.writeCodebook j else s
      let (bs, count) := s.resultOf j
      let s := s.send (.bytes ⟨j.ctrl, j.sqid, j.cid, j.outOff, j.header count bs.length ++ bs⟩)
      let s := s.stampOnce j srcPcie 0x2B
      let s := j.abortsHeld.foldl (fun s _ => s.stamp j.core 0x17 j.detail) s
      s.updJob job (fun j => { j with phase := .written, abortsAfter := j.abortsAfter ++ j.abortsHeld, abortsHeld := [] }))

/-- COMPLETION_POSTED (R402): the completion of a job whose results are written, or that has stopped. -/
def execCompletionPosted (job : Nat) (s : State) : Out :=
  .next (s.orStall <| match s.job? job with
  | none => s
  | some j =>
    if s.waits j.ctrl || j.silent then s
    else match j.phase with
      | .written => s.postJob j
      | .stopped => s.postJob j
      | _ => s)

/-! ## Aborts (R209, R210, R407, R408) -/

/-- Posts the completion of a job that has stopped, unless the drive or its function cannot send now (R418, R472): then COMPLETION_POSTED does. -/
def State.postStopped (s : State) (j : Job) : State :=
  let k := { j with phase := .stopped }
  if s.waits j.ctrl then s.updJob j.num (fun _ => k) else s.postJob k

/-- Stops a job that was never admitted (R209): JOB_ABORTED, then its completion. -/
def State.abortWaiting (s : State) (j : Job) : State :=
  let s := s.stampOnce j j.core 0x2D
  if j.silent then s.endSilent j else s.postStopped { ((s.job? j.num).getD j) with caught := true }

/-- The reply MISSED (R209, R210): ABORT_MISSED now, the completion after the target's. -/
def State.missed (s : State) (j : Job) (c : HostCmd) (nvme : Bool) : State :=
  (s.stamp j.core 0x17 j.detail).updJob j.num (fun j => { j with abortsAfter := j.abortsAfter ++ [(c, nvme)] })

/-- The chain members that a query still waits for. -/
def Job.unanswered (j : Job) : List Nat :=
  (List.range 8).filter (fun m => j.fanned.getLsbD m && !j.missing.getLsbD m && (find m j.answers).isNone)

/-- What a query sends to another member (R28, R283): its vector and parameters, or that it is withdrawn (R210). -/
def State.fanOutOf (s : State) (j : Job) (p : SearchP) (dim metric : Nat) (cancel : Bool) : FanOutQuery :=
  { sender := Fin.ofNat 8 s.chain.pos.toNat, query := BitVec.ofNat 22 j.num, cancel := cancel, client := j.client, index := p.index, dim := dim,
    metric := BitVec.ofNat 8 metric, k := p.k, pool := p.pool, beam := p.beam, width := p.width, rounds := p.rounds, labelMask := p.labelMask,
    penalty := BitVec.ofNat 16 p.penalty, adapter := p.adapter, head := p.head, vec := j.vec }

/-- Sends one query to each of a list of members. -/
def State.ask (s : State) (ms : List Nat) (q : FanOutQuery) : State :=
  { s with chain := { s.chain with asked := s.chain.asked ++ ms.map (fun m => (m, q)) } }

/-- The decision on an abort of a chain query reaches the other members that still work on it (R210; log entry 165). -/
def State.withdraw (s : State) (j : Job) : State :=
  match j.kind with
  | .search p => s.ask j.unanswered (s.fanOutOf j p 0 0 true)
  | _ => s

/-- The decision on an abort (R209). A job that has stopped and stamped JOB_ABORTED completes as it is: the reply is MISSED, since R191 lets
neither of the other cairns follow JOB_ABORTED (log entry 164). `nvme` for the NVMe Abort command, whose dword 0 says only whether the target was caught. -/
def State.decideAbort (s : State) (c : HostCmd) (nvme : Bool) : State :=
  let sqid := c.cdw10.setWidth 16
  let cid : W16 := c.cdw10.extractLsb' 16 16
  let tag := (c.ctrl, sqid, cid)
  let say (s : State) (x : W32) : State := s.ok c (if nvme then (if x.toNat ≤ 1 then 0 else 1) else x)
  match s.host.jobs.find? (fun j => (j.ctrl, j.sqid, j.cid) == tag && j.submitted) with
  | some j =>
    (match j.phase with
    | .waiting =>
      let s := s.stamp j.core 0x15 j.detail
      (say s 0).abortWaiting j
    | .writing => s.updJob j.num (fun j => { j with abortsHeld := j.abortsHeld ++ [(c, nvme)] })
    | .written => s.missed j c nvme
    | .stopped => if j.caught then say s 1 else s.missed j c nvme
    | _ =>
      if j.caught then say s 1
      else
        let s := s.stamp j.core 0x16 j.detail
        say ((s.withdraw j).updJob j.num (fun j => { j with caught := true, stop := some stAborted })) 1)
  | none => match s.host.tags.find? (fun t => t.1 == tag) with
    | some (_, d) => say (s.stamp (srcControl (Config.queueOwner c.ctrl sqid).val) 0x17 d) 2
    | none => say (s.stamp (srcControl (Config.queueOwner c.ctrl sqid).val) 0x18 (s.clientOf c ++ (0 : BitVec 6) ++ cid)) 3

/-- ABORT_QUERY (R407): CDW1 is ignored, and reserved dwords must be 0. -/
def execAbortQuery (c : HostCmd) (s : State) : Out :=
  .next (s.orStall <| if c.sqid = 0 then s else s.fetchAs c false (fun s =>
    if c.cdw11 ≠ 0 ∨ c.cdw12 ≠ 0 ∨ c.cdw13 ≠ 0 ∨ c.cdw14 ≠ 0 ∨ c.cdw15 ≠ 0 then s.fail c nvInvalidField else s.decideAbort c false))

/-- NVME_ABORT (R408). -/
def execNvmeAbort (c : HostCmd) (s : State) : Out := .next (s.orStall <| s.admin c (fun s => s.decideAbort c true))

/-- TAG_EXPIRY (R209): one second after its completion a tag becomes unknown. -/
def execTagExpiry (ctrl : Fin 33) (sqid cid : W16) (s : State) : Out :=
  .next { s with host := { s.host with tags := s.host.tags.filter (fun t => t.1 != (ctrl, sqid, cid)) } }

/-! ## Stopping jobs -/

/-- The jobs of a queue or a controller end without completions (R389): those not admitted at once, the others at the next
saddle. -/
def State.silenceJobs (s : State) (f : Job → Bool) : State :=
  let s := { s with host := { s.host with jobs := s.host.jobs.map (fun j =>
    if f j && j.submitted then { j with silent := true, stop := some stAborted } else j) } }
  (s.host.jobs.filter (fun j => f j && j.submitted && j.phase == .waiting)).foldl (fun s j => s.abortWaiting j) s

/-- Stops a running job at a saddle (R129, R195, R211): its counter block, JOB_ABORTED, and nothing of it runs on. Its pending index
changes are discarded. -/
def State.stopJob (s : State) (j : Job) (status : W16) : State :=
  let s := (s.stampCounters j.num).stampOnce j j.core 0x2D
  let s := s.releaseAgents j.num
  let s := s.updJob j.num (fun j => { j with phase := .stopped, status := status, changes := [], stop := none })
  match s.job? j.num with
  | some k => if k.silent then s.endSilent k else s
  | none => s

end Sys2Proof.Machine
end

