-- ==== Sys2Proof/Machine/Chain.lean ====
section
/-! DEFINITION. What a chain does to a member: its offset, joining, leaving, and its ports (07 R182, R183; 15 R458 to R465). -/
namespace Sys2Proof.Machine

/-! ## The firmware slot (R434, R453, R454) -/

/-- The checks of R434: 0 when they pass, else 3 key, 4 signature, 5 SVN (R456). -/
def State.imageError (s : State) (m : Manifest) : Nat :=
  if s.sec.fwKeys[m.keySlot.val]? ≠ some m.keyDigest ∨ s.sec.revoked.getLsbD m.keySlot.val then 3
  else if !m.sigValid then 4
  else if m.svn.toNat < s.sec.fusedSvn.toNat then 5 else 0

/-- The longest firmware image (R453). -/
def imageMax : Nat := 125829120

/-- The slot's blocks are erased and written with their header and their part of an image, and read back (R325, R453, R454): their records, the
channels' counters and the drive-wide erase count follow. -/
def State.programSlot (s : State) (bytes : Nat) : State :=
  let n := 1 + ceilDiv (ceilDiv bytes 65536) 4
  s.slotDies.foldl (fun s d =>
    let b := getD { qlc := false } s.media.slotBlks d
    let b : Blk := { b with wear := b.wear + eraseWear false, erased := false, wp := n, minute := s.time.epoch.toNat, temp := (s.die d).temp }
    let s := s.updChan d (fun c => { c with erases := c.erases + 1, progs := c.progs + BitVec.ofNat 64 n, reads := c.reads + BitVec.ofNat 64 n })
    { s with media := { s.media with slotBlks := put d b s.media.slotBlks, sinceMove := s.media.sinceMove + 1 } }) s

/-- The slot blocks are erased and the writing of an image begins (R454 to R456): until it ends, the slot holds none. -/
def State.writeSlot (s : State) (m : Manifest) (bytes : Mem) (cmd : Option HostCmd) : State :=
  let (k, s) := s.draw
  let s := s.programSlot m.bytes.toNat
  { s with sec := { s.sec with slot := none, slotWrite := some ⟨m, bytes, s.time.now + BitVec.ofNat 64 (Config.slotTime k % 2000000001), cmd, s.sec.slot⟩ } }

/-! ## The chain -/

/-- Penla port `p`. -/
def State.port (s : State) (p : Nat) : Port := getD {} s.link.ports p
/-- Applies `f` to Penla port `p`. -/
def State.updPort (s : State) (p : Nat) (f : Port → Port) : State :=
  { s with link := { s.link with ports := put p (f (s.port p)) s.link.ports } }

/-- Bits set in a word. -/
def bitsSet {w : Nat} (x : BitVec w) : Nat := ((List.range w).filter (fun i => x.getLsbD i)).length

/-- The lowest position of a bitmap; `d` when it is empty. -/
def lowest (b : Byte) (d : Nat) : Nat := ((List.range 8).find? (fun i => b.getLsbD i)).getD d

/-- CHOFF is measured (R182, R183): 0 at the master; elsewhere the master's time at the instant minus this drive's, with the CHAIN_TIME and
CHAIN_MASTER cairns. A coming chain saddle keeps its instant in chain time. -/
def State.measure (s : State) (masterTime : W64) : State :=
  let master := s.master
  let old := s.time.choff
  let off := if master = s.chain.pos.toNat then 0 else masterTime - s.time.now
  let s := { s with time := { s.time with choff := off },
                    set := { s.set with nextSaddle := if s.chainSync then s.set.nextSaddle.map (fun t => t + old - off) else s.set.nextSaddle } }
  if master = s.chain.pos.toNat then s
  else
    let d : BitVec 28 := BitVec.ofNat 28 master
    (s.stampOf s.time.now srcRoot 0x12 d []).stampOf masterTime srcRoot 0x13 d []

/-- Members that have left the chain are missing from the queries that still wait for their entries (R283). -/
def State.missLeft (s : State) (present : Byte) : State :=
  { s with host := { s.host with jobs := s.host.jobs.map (fun (j : Job) =>
      { j with missing := (j.unanswered.filter (fun m => !present.getLsbD m)).foldl (fun (b : Byte) m => b ||| bitOf m) j.missing }) } }

/-- The drive runs as a chain of one (R203, R463): CHAIN_SYNC is 0, no chain-scope change is pending, and its level-3 groups are gone with
the members they name; no other member answers a query any more (R283). -/
def State.alone (s : State) : State :=
  let ch := { s.chain with pos := 0, present := 1, inChain := false, joining := none, ending := none, admitting := 0, accepted := [],
                           forwarded := [], flit := none }
  let set := { s.set with live := remove 3 s.set.live, held := false,
                          groups := s.set.groups.filter (fun (k, _) => decide (k / 16384 ≠ 3)),
                          pendGroups := s.set.pendGroups.filter (fun (k, _) => decide (k / 16384 ≠ 3)) }
  ({ s with chain := ch, set := set, time := { s.time with choff := 0 } }).missLeft 0

/-- Commands still outstanding on the chain namespace stop (JOB_ABORTED) and complete with Invalid Namespace or Format, a caught one too (R463; log
entry 164), and the namespace is deleted. -/
def State.dropChainSpace (s : State) : State :=
  let js := s.host.jobs.filter (fun j => j.onChain && j.submitted && !j.silent)
  let s := js.foldl (fun s j =>
    let s := if j.phase == .stopped then s else if j.phase == .waiting then s.stampOnce j j.core 0x2D else s.stopJob j j.status
    match s.job? j.num with
    | some k => s.postStopped { k with homeless := true }
    | none => s) s
  { s with host := { s.host with nsChain := none } }.settleQueues

/-- The drive leaves its chain at a chain saddle, by a LEAVE of its own or a DISSOLVE (R463): the record is cleared, the namespace deleted, CHAIN_LEFT stamped. -/
def State.quitChain (s : State) : State :=
  let pos := s.chain.pos
  let s := s.dropChainSpace.alone
  let s := { s with chain := { s.chain with record := none, gone := 0 } }
  s.stamp (srcControl 0) 0x1A (pos.setWidth 28)

/-- The members that are present, as the drive sees them: outside its chain, itself alone at its recorded position (R459, R462). -/
def State.seen (s : State) : Byte := if s.chain.inChain || s.chain.joining.isSome then s.chain.present else bitOf s.ringPos.toNat

/-- The recorded members (R458, R463): those of the record's FORM that have not left. -/
def State.recorded (s : State) : Byte := BitVec.ofNat 8 (2 ^ ((s.chain.record.map (fun r => r.n)).getD 0) - 1) &&& ~~~ s.chain.gone

/-- The master's place passes to the lowest of the members present (R462): CHOFF is measured again, and changes on their way to the old master are lost. -/
def State.withPresent (s : State) (present : Byte) : State :=
  let old := s.master
  let s := { s with chain := { s.chain with present := present } }
  if s.master = old then s
  else
    let (k, s) := s.draw
    ({ s with chain := { s.chain with forwarded := [] } }).measure (Config.masterTime k)

/-- What another member's LEAVE, DISSOLVE or FIRMWARE does here at a chain saddle (R463): which of them comes is free, since no command brings it (log
entry 54). A member that leaves goes from the record, and with fewer than 2 members the chain dissolves; an image that another member sends is checked, and
written into the slot. -/
def State.othersAct (s : State) : State :=
  if !s.chainSync || !s.chain.inChain then s
  else
    let (k, s) := s.draw
    let act := Config.chainAct k % 11
    if act = 0 then s
    else if act = 9 then s.quitChain
    else if act = 10 then
      let m := Config.chainImage k
      if s.sec.slotWrite.isSome ∨ m.bytes = 0 ∨ imageMax < m.bytes.toNat ∨ s.imageError m ≠ 0 then s
      else s.writeSlot m (memOf ((List.range m.bytes.toNat).map (Config.chainImageByte k))) none
    else if act - 1 = s.chain.pos.toNat ∨ !s.chain.present.getLsbD (act - 1) then s
    else
      let s := { s with chain := { s.chain with gone := s.chain.gone ||| bitOf (act - 1) } }
      if bitsSet s.recorded < 2 then s.quitChain
      else (s.withPresent (s.chain.present &&& ~~~ bitOf (act - 1))).missLeft (s.chain.present &&& ~~~ bitOf (act - 1))

/-- Drives whose offers were accepted join at the chain saddle (R461); where the lowest of them becomes the master, CHOFF is measured again
(R462, log entry 53). -/
def State.takeJoined (s : State) : State :=
  if s.chain.admitting = 0 then s
  else ({ s with chain := { s.chain with admitting := 0 } }).withPresent (s.chain.present ||| s.chain.admitting)

/-- A chain saddle (R461, R463, R465): ports unwrap, drives join, a FIRMWARE of this drive completes, what other members do takes effect, and this drive's own
LEAVE or DISSOLVE. -/
def State.chainSaddle (s : State) : State :=
  let s := [0, 1].foldl (fun s p =>
    if (s.port p).unwrap then
      (s.updPort p (fun x => { x with unwrap := false, wrapped := false })).stamp (srcPenla p) 0x7C
        (BitVec.ofNat 28 (2 ^ 27 + 2 ^ 26 * p))
    else s) s
  let s := s.takeJoined
  let s := match s.chain.sending with
    | some (c, got) => ({ s with chain := { s.chain with sending := none } }).ok c (got.setWidth 32)
    | none => s
  match s.chain.ending with
  | some (c, d) =>
    let members := s.seen
    s.quitChain.ok c (if d then members.setWidth 32 else 0)
  | none => s.othersAct

/-- The chain-scope settings live at the master that a drive joining its chain takes (R201, R461): CONSOLIDATE_AT, the weight bindings and the
level-3 groups. -/
def masterSettings (cs : List StagedChange) : List StagedChange :=
  cs.filter (fun c =>
    (c.num == 0x21 && c.key == 0 && scalarRange 0x21 c.value.toNat) || (c.num == 0x101 && c.value != 0) ||
    (c.num == 0x100 && c.value == 0 && decide (c.key.toNat / 16384 = 3)))

/-- What a drive that joins stages of the master's settings (R461): they replace its own, a binding that the master does not hold among them. -/
def State.takeLive (s : State) (cs : List StagedChange) : State :=
  let gone := (s.set.bindings.map Prod.fst).filter (fun k => !cs.any (fun c => c.num == 0x101 && c.key.toNat == k))
  let s := { s with set := { s.set with
    pend := put 0x21 ((scalarDefault 0x21).getD 0) s.set.pend,
    pendBindings := gone.map (fun k => (k, 0)),
    pendGroups := s.set.pendGroups.filter (fun (k, _) => decide (k / 16384 ≠ 3)) } }
  cs.foldl State.applyChange s

/-- The chain saddle at which this drive joins (R460 step 6, R461): it is present from then on, and the master where it is the lowest (R462);
the master's STEP_PERIOD and CHAIN_SYNC 1 commit with it, and at a running
chain the master's other chain-scope settings. The changes of the saddle's flit follow. -/
def State.stageJoin (s : State) : State :=
  match s.chain.joining with
  | none => s
  | some j =>
    let old := s.master
    let s := { s with chain := { s.chain with inChain := true, present := j.present } }
    let s := if s.master = old then s else s.measure s.time.now
    let s := match j.live with
      | none => s
      | some cs => s.takeLive cs
    { s with set := { s.set with pend := put 3 1 (put 1 (j.period.setWidth 64) s.set.pend) } }

/-- What follows the commit of a joining saddle. -/
def State.finishJoin (s : State) : State :=
  match s.chain.joining with
  | none => s
  | some j =>
    let s := { s with chain := { s.chain with joining := none } }
    let d : BitVec 28 := (j.present ++ s.chain.pos ++ BitVec.ofNat 3 s.master ++ (0 : BitVec 14))
    let s := s.stamp (srcControl 0) 0x7D d
    match j.form with
    | some c => s.ok c (j.present.setWidth 32)
    | none => s

end Sys2Proof.Machine
end

