-- ==== Sys2Proof/Machine/Consolidate.lean ====
section
/-! DEFINITION. The consolidation of an index (09 R276 to R279; 10 R321). A consolidation does its work in the step
after its admission (log entry 175); the graph it builds is free. -/
namespace Sys2Proof.Machine

/-! ## The graph (R277) -/

/-- Whether a node is deleted for the consolidation's view (R271, R272, R277). -/
def IndexSt.dead (x : IndexSt) (base lc node : Nat) (key : W64) : Bool := x.deleted node lc || x.hides key base lc

/-- The nodes after a consolidation, without their new neighbour lists: those of the slots, and the rows of the view that insert (R277). -/
def State.nodesAfter (s : State) (x : IndexSt) (d : IndexD) (base lc : Nat) : List NodeRec :=
  (s.slotNodes d).map (fun n => if n.vacant || x.dead base lc n.node n.key then { n with vacant := true, nbrs := [] } else n) ++
  (x.rows.filter (fun (n, r) => decide (base ≤ n) && decide (n < lc) && !r.del)).map (fun (n, r) =>
    { node := r.node, key := r.key, label := r.label, vacant := !r.valid n base lc || x.deleted r.node lc, vcode := r.vcode, vmeta := r.vmeta,
      nbrs := [], codes := some r.codes })

/-- A neighbour entry for a node. -/
def NodeRec.entry (d : IndexD) (again : Bool) (x : NodeRec) (id : Nat) : Neighbour := ⟨id, x.label, x.code d again⟩

/-- The nodes with their new neighbour lists (R277): every new node, and every node with an edge to a node that is no longer there or a link to a
new one, takes the free list of the graph; with new centroids (`again`) every list takes the codes under them. -/
def linkNodes (d : IndexD) (cb : W32) (lc : Nat) (again : Bool) (ns : List NodeRec) : List NodeRec :=
  let live := ns.filter (fun n => !n.vacant)
  let at_ (id : Nat) : Option NodeRec := live.find? (fun n => n.node == id)
  let fresh (id : Nat) : Bool := ((at_ id).map (fun n => n.codes.isSome)).getD false
  ns.map (fun n =>
    if n.vacant then n
    else
      let e := ((Config.graphEdges cb lc n.node).filter (fun id => id != n.node && (at_ id).isSome)).eraseDups.take d.maxdeg
      let ids := if n.codes.isSome || n.nbrs.any (fun k => (at_ k.id).isNone) || e.any fresh then e else n.nbrs.map (fun k => k.id)
      { n with nbrs := ids.filterMap (fun id => match (if again then none else n.nbrs.find? (fun k => k.id == id)) with
        | some k => some k
        | none => (at_ id).map (fun m => m.entry d again id)) })

/-! ## The objects it seals (R277, R279) -/

/-- Rinsis seals one object for a consolidation: its handle, or the status. -/
def State.sealMade (s : State) (n : Nat) (o : Obj) (content : List Byte) : Except W16 W32 × State :=
  match s.createObj { o with size := content.length, state := 0 } with
  | none => (.error stTierFull, s)
  | some (h, t) => match t.sealInto h { o with size := content.length, state := 0 } content (storedOf o.typ h content.length) with
    | (0, t) => (.ok h, t.updJob n (fun j => { j with made := j.made ++ [h] }))
    | (e, t) => (.error e, t.forget h)

/-- An object that a consolidation makes beside, or in place of, another: of its owner, mode and copies. -/
def Obj.like (o : Obj) (typ : Nat) (direct : Bool) : Obj :=
  { typ := typ, owner := o.owner, size := 0, state := 0, qlc := o.qlc, copies := o.copies, direct := direct, blkshift := if direct then 11 else 14 }

/-- The records that slot `i` covers after a consolidation. -/
def slotRecords (old : Nat) (ns : List NodeRec) (i : Nat) : Nat :=
  ns.foldl (fun k n => if n.node / 268435456 = i then Nat.max k (n.node % 268435456 + 1) else k) old

/-- The content of slot `i`: its nodes' records, and vacant ones where no node was given out. -/
def slotContent (d : IndexD) (ns : List NodeRec) (i records : Nat) : List Byte :=
  (List.range records).flatMap (fun r =>
    let id := 268435456 * i + r
    ((ns.find? (fun n => n.node == id)).getD ⟨id, 0, 0, true, [], [], [], none⟩).bytes d id 0)

/-- Seals a new INDEX_EXTENT for every slot that holds a changed or new record, each rewritten whole, and for every slot under new centroids (R277,
R321). Answers the slot table. -/
def State.sealSlots (s : State) (n : Nat) (cb : W32) (book : Obj) (d : IndexD) (again : Bool) (ns : List NodeRec) : Except W16 (List SlotEnt) × State :=
  let count := ns.foldl (fun k x => Nat.max k (x.node / 268435456 + 1)) d.slots.length
  (List.range count).foldl (fun x i => match x with
    | (.error e, s) => (.error e, s)
    | (.ok es, s) =>
      let e := (d.slots[i]?).getD ⟨0, 0, 0⟩
      let records := slotRecords e.records ns i
      let old := if e.handle = 0 then none else s.obj? e.handle
      if records = 0 then (.ok (es ++ [e]), s)
      else
        let content := slotContent d ns i records
        if !again && (old.map (fun o => o.data.rdBytes 0 o.size == content)).getD false then (.ok (es ++ [e]), s)
        else match s.sealMade n ((old.getD book).like 4 true) content with
          | (.error c, s) => (.error c, s)
          | (.ok h, s) =>
            (.ok (es ++ [⟨h, records, if e.handle = 0 then Config.newShard cb i % d.shards else e.shard⟩]), s)) (.ok [], s)

/-- The nodes of the entry layers of a shard, layer 1 first: each layer's are among those of the layer below it (R249, R254). -/
def shardLayers (d : IndexD) (cb : W32) (lc shard : Nat) (live : List NodeRec) : List (List NodeRec) :=
  ((List.range d.layers).foldl (fun (ls, below) l =>
    let ids := (Config.layerNodes cb lc shard (l + 1)).eraseDups
    let here := ids.filterMap (fun id => below.find? (fun (n : NodeRec) => n.node == id))
    (ls ++ [here], here)) (([] : List (List NodeRec)), live)).1

/-- The content of an entry layer: positions in order, DOWN to the layer below (R249). -/
def layerContent (d : IndexD) (cb : W32) (lc shard l : Nat) (again : Bool) (here below : List NodeRec) : List Byte :=
  here.zipIdx.flatMap (fun ((n : NodeRec), p) =>
    let ids := ((Config.layerEdges cb lc shard l p).filter (fun q => q != p && decide (q < here.length))).eraseDups.take d.maxdeg
    let m : NodeRec := { n with nbrs := ids.filterMap (fun q => (here[q]?).map (fun (k : NodeRec) => k.entry d again q)) }
    m.bytes d p (if l = 1 then n.node else (below.findIdx? (fun b => b.node == n.node)).getD 0))

/-- Seals one new ENTRY_LAYER and pins its Tier D copy, which R255 requires. -/
def State.sealLayer (s : State) (n : Nat) (o : Obj) (content : List Byte) : Except W16 W32 × State :=
  match s.sealMade n o content with
  | (.error e, s) => (.error e, s)
  | (.ok h, s) => match s.obj? h with
    | none => (.error stTierFull, s)
    | some x => match s.pinTierD h x with
      | (0, s) => (.ok h, s)
      | (e, s) => (.error e, s)

/-- The content of an entry layer of `count` records with its neighbours' codes under the centroids of `d` (R321). -/
def recodeLayer (d : IndexD) (o : Obj) (count : Nat) : List Byte :=
  let rs := (List.range count).map (fun r => readNode d o r r)
  rs.zipIdx.flatMap (fun ((x : NodeRec), p) =>
    let nbrs := x.nbrs.map (fun e => match rs[e.id]? with
      | some k => { e with codes := k.code d true }
      | none => e)
    ({ x with nbrs := nbrs } : NodeRec).bytes d p (o.field (2048 * p + 13) 5))

/-- Seals new ENTRY_LAYER objects for every shard whose layers change (R277), and for every one under new centroids (R321). A shard left without a
node keeps its layers (log entry 175), under new centroids with their codes alone rewritten. Answers the entry-layer table. -/
def State.sealLayers (s : State) (n : Nat) (cb : W32) (d : IndexD) (lc : Nat) (again : Bool) (slots : List SlotEnt) (ns : List NodeRec) :
    Except W16 (List (W32 × Nat)) × State :=
  (List.range d.shards).foldl (fun x sh => match x with
    | (.error e, s) => (.error e, s)
    | (.ok es, s) =>
      let live := ns.filter (fun n => !n.vacant && ((slots[n.node / 268435456]?).map (fun e => e.shard == sh)).getD false)
      let layers := shardLayers d cb lc sh live
      let old := (List.range d.layers).map (fun l => (d.layer sh (l + 1)).getD (0, 0))
      let contents := layers.zipIdx.map (fun (here, l) => layerContent d cb lc sh (l + 1) again here (if l = 0 then live else (layers[l - 1]?).getD []))
      let same : Bool := (List.zipWith (fun (e : W32 × Nat) c => ((s.obj? e.1).map (fun o => o.data.rdBytes 0 o.size == c)).getD false) old contents).all id
      let kept := layers.any (fun l => l.isEmpty)
      let news := if kept then old.map (fun (e : W32 × Nat) => (e.2, ((s.obj? e.1).map (fun o => recodeLayer d o e.2)).getD []))
        else List.zip (layers.map List.length) contents
      if !again && (same || kept) then (.ok (es ++ old), s)
      else (List.zip old news).foldl (fun x (e, count, content) => match x with
        | (.error c, s) => (.error c, s)
        | (.ok es, s) => match s.obj? e.1 with
          | none => (.ok (es ++ [e]), s)
          | some o => match s.sealLayer n (o.like 5 true) content with
            | (.error c, s) => (.error c, s)
            | (.ok h, s) => (.ok (es ++ [(h, count)]), s)) (.ok es, s)) (.ok [], s)

/-- The content of the new CODEBOOK (R247, R277): the old one's with NEXT_ID past the rows of the view and the new tables; a slot table that grew
stands at its end. -/
def newBook (cb : Obj) (d : IndexD) (nextId : Nat) (slots : List SlotEnt) (layers : List (W32 × Nat)) : List Byte :=
  let grown := slots.length != d.slots.length
  let slotOff := if grown then padTo 16 cb.size else cb.field 40 4
  let m := (((bookWith cb d).wrNat 48 8 nextId).wrNat 40 4 slotOff).wrNat 26 2 slots.length
  let m := slots.zipIdx.foldl (fun (m : Mem) (e, i) =>
    ((m.wrNat (slotOff + 16 * i) 4 e.handle.toNat).wrNat (slotOff + 16 * i + 4) 4 e.records).wrNat (slotOff + 16 * i + 8) 8 e.shard) m
  let m := layers.zipIdx.foldl (fun (m : Mem) (e, i) =>
    (m.wrNat (cb.field 36 4 + 16 * i) 4 e.1.toNat).wrNat (cb.field 36 4 + 16 * i + 4) 4 e.2) m
  m.rdBytes 0 (if grown then slotOff + 16 * slots.length else cb.size)

/-- Builds and seals what a consolidation of the index of CODEBOOK `h` produces (R277, R321): the handle of the new CODEBOOK, or the status that
fails it. `d` holds the centroids that the new one takes. -/
def State.buildIndex (s : State) (j : Job) (h : W32) (cb : Obj) (x : IndexSt) (d : IndexD) (again : Bool) : Except W16 W32 × State :=
  let lc := j.snapshot
  let ns := linkNodes d h lc again (s.nodesAfter x d j.base lc)
  let nextId := ns.foldl (fun k n => Nat.max k (n.node + 1)) d.nextId
  match s.sealSlots j.num h cb d again ns with
  | (.error e, s) => (.error e, s)
  | (.ok slots, s) => match s.sealLayers j.num h d lc again slots ns with
    | (.error e, s) => (.error e, s)
    | (.ok layers, s) => s.sealMade j.num (cb.like 3 false) (newBook cb d nextId slots layers)

/-! ## The swap (R278, R279) -/

/-- A consolidation ends without a swap (R279): it waits for a restart, but for a RUN, which the host launches. -/
def State.notConsolidated (s : State) (j : Job) : State :=
  match j.kind with
  | .consolidate i => s.updIndex i (fun x => { x with failed := true })
  | _ => s

/-- The job stages OBJECT_REPLACE of its CODEBOOK as its last act (R278): for that handle, and for every handle that it stands for (log entry
175). -/
def State.stageSwap (s : State) (h new : W32) : Except W16 State :=
  let keys := h.toNat :: (s.set.replaces.filter (fun (_, v) => v == h)).map Prod.fst
  (keys.foldl (fun (m : Except W16 (SMap W32)) k => match m with
    | .error e => .error e
    | .ok m => pendPut 1024 m k new) (.ok s.set.pendReplaces)).map (fun m => { s with set := { s.set with pendReplaces := m } })

/-- Whether a consolidation has done its work: one of Rinsis after its step, a RUN when every core of its program has ended (R321). -/
def State.consolidated (s : State) (j : Job) : Bool :=
  j.phase == .admitted && j.stop.isNone && j.made.isEmpty && (match j.kind with
    | .consolidate _ => true
    | .program _ _ _ _ _ => j.recode != 0 && j.tiles.all (fun t => (s.coresOf t j.num).isEmpty)
    | _ => false)

/-- A consolidation builds its objects and stages the swap; one that fails stops (R277 to R279). -/
def State.consolidate (s : State) (j : Job) : State :=
  let h := ((j.named (s.consolidates j)).getD (s.consolidates j))
  let run := s.codebookRun j
  let s := s.writeCodebook j
  match s.obj? h, s.index? h, (run.map (fun r => r.2.1)).or (s.indexD? h) with
  | some cb, some x, some d =>
    (match s.buildIndex j h cb x d run.isSome with
     | (.error e, s) => (s.notConsolidated j).stopJob ((s.job? j.num).getD j) e
     | (.ok new, s) => match s.stageSwap h new with
       | .ok s => s
       | .error e => (s.notConsolidated j).stopJob ((s.job? j.num).getD j) e)
  | _, _, _ => (s.notConsolidated j).stopJob j stObjectUnknown

/-- Every consolidation whose work is done stages its swap. -/
def State.consolidateAll (s : State) : State :=
  (s.host.jobs.filter s.consolidated).foldl (fun s j => s.consolidate j) s

/-- A row under the centroids of another CODEBOOK (R321): the code of its decoded stored vector. Jobs bound to one of the CODEBOOKs `hs` keep the
code that it had (R18). -/
def Row.recoded (r : Row) (d : IndexD) (hs : List Nat) : Row :=
  if r.del then r
  else { r with codes := d.code (decodeVector d.dim r.vcode r.vmeta),
                older := hs.foldl (fun m h => if (find h m).isSome then m else put h r.codes m) r.older }

/-- The job whose new CODEBOOK a handle is, while its swap is staged. -/
def State.makerOf (s : State) (new : W32) : Option Job :=
  if ((s.obj? new).map (fun o => o.typ)) = some 3 then s.host.jobs.find? (fun j => j.made.contains new) else none

/-- The swap of a consolidation commits (R278): the new CODEBOOK names the index from its snapshot row on; after a re-encode, the rows from there
on take their codes under the new centroids (R321). The old CODEBOOK, and the extents and entry layers that the new one does not name, are dropped, so
that only jobs bound to them keep them (R218). A consolidation of Rinsis ends; a RUN writes its results. -/
def State.swapIndex (s : State) (new : W32) : State :=
  match s.makerOf new with
  | none => s
  | some j =>
    let old := s.indexKey ((j.named (s.consolidates j)).getD (s.consolidates j))
    match find old s.idx.all, (s.obj? (BitVec.ofNat 32 old)).map readDescriptor, (s.obj? new).map readDescriptor with
    | some x, some d, some e =>
      let lc := j.snapshot
      let olds := old :: (s.idx.heads.filter (fun (_, k) => k == old)).map Prod.fst
      let y := { x with base := lc, due := false, failed := false,
                        rows := if j.recode = 0 then x.rows else x.rows.map (fun (n, r) => (n, if lc ≤ n then r.recoded e olds else r)) }
      let idx := { s.idx with all := put new.toNat y (remove old s.idx.all),
                              heads := put old new.toNat (s.idx.heads.map (fun (h, k) => (h, if k = old then new.toNat else k))) }
      let s := ({ s with idx := idx }).showTombs new
      let s := s.updJob j.num (fun j => { j with made := [], phase := if j.recode = 0 then j.phase else .writing })
      let s := if j.recode = 0 then s.endJob j.num else s.stampCounters j.num
      let keeps := e.slots.map (fun e => e.handle) ++ e.layerTab.map Prod.fst
      let gone := (d.slots.map (fun e => e.handle) ++ d.layerTab.map Prod.fst).filter (fun h => h != 0 && !keeps.contains h)
      let s := (BitVec.ofNat 32 old :: gone).foldl State.dropObj s
      s.stamp (srcControl 0) 0x53 (new.setWidth 28)
    | _, _, _ => s

end Sys2Proof.Machine
end

