-- ==== Sys2Proof/Machine/Records.lean ====
section
/-! DEFINITION. The object and tier, group, collective, time and step groups (06 R160, R161, R170 to R176), and the
completion of record instructions (R140). -/
namespace Sys2Proof.Machine

/-! ## Object instructions at issue (R160) -/

/-- How an object instruction is encoded. -/
def opObj (minor : Nat) (imm : W32) : Op :=
  { major := 0x24, minor := minor, a := .s, b := .s, imm := imm, refusable := true, accept := .core }

/-- An object instruction at issue (R139, R160): `kind` makes it from the handle and argument, none for a refusal. -/
def objAct (ag : Agent) (w : IWord) (kind : W32 → Nat → Option RecKind) (s : State) : Act :=
  match ag with
  | .ctx _ _ => .hold
  | .core t c =>
    let a := (s.regs ag).rs w.srcA
    let b := (s.regs ag).rs w.srcB
    match hi32 b == 0, recOperand (lo32 b), kind (lo32 a) (hi32 a).toNat with
    | true, some rec, some k => .async (s.addRec t c w rec k none)
    | _, _, _ => .refuse stInvalidOperand

/-- OBJ.INFO (R160). -/
def execObjInfo (ag : Agent) (w : IWord) (s : State) : Out :=
  .next (s.issue (opObj 0x00 0) ag w (objAct ag w (fun h x => if x = 0 then some (.objInfo h) else none)))

/-- OBJ.NEW (R160): a size of 0 or a handle is refused, and a tier above 1 too (log entry 159, the model's choice). -/
def execObjNew (ag : Agent) (w : IWord) (s : State) : Out :=
  .next (s.issue (opObj 0x01 3) ag w (objAct ag w (fun h x =>
    if h = 0 ∧ x ≠ 0 ∧ w.imm.toNat ≤ 1 then some (.objNew x (w.imm == 1)) else none)))

/-- OBJ.DROP (R160, R218). -/
def execObjDrop (ag : Agent) (w : IWord) (s : State) : Out :=
  .next (s.issue (opObj 0x02 0) ag w (objAct ag w (fun h x => if x = 0 then some (.objDrop h) else none)))

/-- OBJ.PIN (R160, R221); a tier above 1 is refused (log entry 159, the model's choice). -/
def execObjPin (ag : Agent) (w : IWord) (s : State) : Out :=
  .next (s.issue (opObj 0x03 0) ag w (objAct ag w (fun h x => if x ≤ 1 then some (.objPin h (x == 1)) else none)))

/-- OBJ.UNPIN (R160, R220); a tier above 1 is refused (log entry 159, the model's choice). -/
def execObjUnpin (ag : Agent) (w : IWord) (s : State) : Out :=
  .next (s.issue (opObj 0x04 0) ag w (objAct ag w (fun h x => if x ≤ 1 then some (.objUnpin h (x == 1)) else none)))

/-- OBJ.SEAL (R160, R161, R220): from its acceptance a stream that writes the object is refused. A copy_count other than 1 or 2 is refused
(log entry 159, the model's choice). -/
def execObjSeal (ag : Agent) (w : IWord) (s : State) : Out :=
  .next (s.issue (opObj 0x05 1) ag w (fun s =>
    match objAct ag w (fun h x => if x = 1 ∨ x = 2 then some (.objSeal h x (w.imm == 1)) else none) s with
    | .async s' => match s.named? (s.regs ag).job (lo32 ((s.regs ag).rs w.srcA)) with
      | some (h, o) => if o.state = 0 then .async (s'.updObj h (fun o => { o with sealing := true })) else .async s'
      | none => .async s'
    | x => x))

/-- OBJ.STAGE (R160, R161). -/
def execObjStage (ag : Agent) (w : IWord) (s : State) : Out :=
  .next (s.issue (opObj 0x06 0) ag w (objAct ag w (fun h x => some (.objStage h (BitVec.ofNat 32 x)))))

/-! ## Groups and collectives at issue (R170) -/

/-- How a group instruction is encoded. -/
def opGrp (major minor : Nat) : Op := { major := major, minor := minor, a := .s, b := .s, refusable := true, accept := .core }

/-- A group or collective instruction at issue (R139, R170): `kind` makes it from sa, sb bits 31:0 and which call of its
kind it is for the core, none for a refusal; `key` counts the calls. An operation that completes at once writes its
record now. -/
def grpAct (ag : Agent) (w : IWord) (key : Nat) (kind : State → W64 → W32 → Nat → Option RecKind) (now : W32 → Bool) (s : State) : Act :=
  match ag with
  | .ctx _ _ => .hold
  | .core t c =>
    let r := s.regs ag
    let b := r.rs w.srcB
    let k := s.core t.val c.val
    let ordinal := getD 0 k.calls key
    match recOperand (hi32 b) with
    | none => .refuse stInvalidOperand
    | some rec => match kind s (r.rs w.srcA) (lo32 b) ordinal with
      | none => .refuse stInvalidOperand
      | some x =>
        if now (lo32 b) then .async (s.addRec t c w rec x (some (stOk, 0)))
        else .async ((s.setCore t.val c.val { k with calls := if key = 0 then k.calls else put key (ordinal + 1) k.calls }).addRec t c w rec x none)

/-- Whether `n` bytes at `a` lie in SRAM; no byte always does (R501). -/
def rangeOk (a n : Nat) : Bool := n == 0 || inSram a n

/-- The member list of GRP.NEW at `a` (R170): none when it is refused. -/
def memberList (m : Mem) (a : Nat) : Option (List W16) :=
  if !inSram a 2 then none
  else
    let n := m.rdNat a 2
    if n = 0 ∨ !inSram a (2 + 2 * n) then none
    else some ((List.range n).map (fun i => BitVec.ofNat 16 (m.rdNat (a + 2 + 2 * i) 2)))

/-- The SRAM that an agent's instruction reads. -/
def State.sramOf (s : State) : Agent → Mem
  | .core t _ => (s.tile t.val).sram
  | .ctx _ _ => []

/-- GRP.NEW (R170). -/
def execGrpNew (ag : Agent) (w : IWord) (s : State) : Out :=
  .next (s.issue (opGrp 0x30 0x00) ag w (grpAct ag w 1 (fun s a b n =>
    if b ≠ 0 then none else (memberList (s.sramOf ag) a.toNat).map (fun l => .grpNew l n)) (fun _ => false)))

/-- GRP.FREE (R170); sa bits above a group ID's 16 name no group (log entry 160, the model's choice). -/
def execGrpFree (ag : Agent) (w : IWord) (s : State) : Out :=
  .next (s.issue (opGrp 0x30 0x01) ag w (grpAct ag w 1 (fun _ a b n =>
    if b ≠ 0 then none else some (.grpFree (if a.toNat < 65536 then a.setWidth 16 else 0xFFFF) n)) (fun _ => false)))

/-- GRP.INFO (R170); sa bits above a group ID's 16 name no group (log entry 160, the model's choice). -/
def execGrpInfo (ag : Agent) (w : IWord) (s : State) : Out :=
  .next (s.issue (opGrp 0x30 0x02) ag w (grpAct ag w 0 (fun _ a b _ =>
    if b ≠ 0 then none else some (.grpInfo (if a.toNat < 65536 then a.setWidth 16 else 0xFFFF))) (fun _ => false)))

/-- GTOPK (R170, R171): k = 0 completes at once. Operand bits without a meaning are refused when they are not 0 (log entry 160, the model's
choice). -/
def execGtopk (ag : Agent) (w : IWord) (s : State) : Out :=
  .next (s.issue (opGrp 0x31 0x00) ag w (grpAct ag w 2 (fun _ a b n =>
    let k := b.toNat % 8192
    let l := b.toNat / 65536 % 8192
    if 4096 < k ∨ 4096 < l ∨ b &&& 0xE000E000 ≠ 0 ∨ !rangeOk a.toNat (16 * l) ∨ !rangeOk a.toNat (16 * k) then none
    else some (.gtopk a.toNat k l n)) (fun b => b.toNat % 8192 == 0)))

/-- GSUM (R170, R172): a count of 0 completes at once. -/
def execGsum (ag : Agent) (w : IWord) (s : State) : Out :=
  .next (s.issue (opGrp 0x31 0x01) ag w (grpAct ag w 3 (fun _ a b n =>
    if !rangeOk a.toNat (4 * b.toNat) then none else some (.gsum a.toNat b.toNat n)) (fun b => b == 0)))

/-- GBCAST (R170, R172): a count of 0 completes at once. -/
def execGbcast (ag : Agent) (w : IWord) (s : State) : Out :=
  .next (s.issue (opGrp 0x31 0x02) ag w (grpAct ag w 4 (fun s a b n =>
    let count := b.toNat % 16777216
    let src := b.toNat / 16777216
    let m := match ag with
      | .core t _ => (s.placeOf (s.regs ag).job t.val).1
      | .ctx _ _ => 1
    if m ≤ src ∨ !rangeOk a.toNat count then none else some (.gbcast a.toNat count src n)) (fun b => b.toNat % 16777216 == 0)))

/-- GBAR (R170, R172). -/
def execGbar (ag : Agent) (w : IWord) (s : State) : Out :=
  .next (s.issue (opGrp 0x31 0x03) ag w (grpAct ag w 5 (fun _ a b n => if a ≠ 0 ∨ b ≠ 0 then none else some (.gbar n)) (fun _ => false)))

/-! ## Time and step (R173 to R176) -/

/-- TIME.RD (R173): drive time of the agent's island, never below an earlier reading of the agent. -/
def execTimeRd (ag : Agent) (w : IWord) (s : State) : Out :=
  .next (s.issue { major := 0x34, minor := 0x00, dst := .s } ag w (fun s =>
    let now := s.islandTime (s.srcOf ag)
    match ag with
    | .ctx e c =>
      let k := s.ctx e.val c.val
      let v := if now.toNat < k.lastTime.toNat then k.lastTime else now
      .done (s.setCtx e.val c.val { k with lastTime := v, r := k.r.ws w.dst v })
    | .core t c =>
      let k := s.core t.val c.val
      let v := if now.toNat < k.lastTime.toNat then k.lastTime else now
      .done (s.setCore t.val c.val { k with lastTime := v, r := k.r.ws w.dst v })))

/-- TIME.CAIRN (R173): a program cairn of kinds 0x80 to 0xBF. -/
def execTimeCairn (ag : Agent) (w : IWord) (s : State) : Out :=
  .next (s.issue { major := 0x34, minor := 0x01, a := .s, imm := 0xFF, refusable := true } ag w (fun s =>
    let v := (s.regs ag).rs w.srcA
    let kind := w.imm.toNat % 256
    if kind < 0x80 ∨ 0xBF < kind ∨ v.extractLsb' 28 36 ≠ 0 then .refuse stInvalidOperand
    else .done (s.stamp (s.srcOf ag) (BitVec.ofNat 8 kind) (v.setWidth 28))))

/-- STEP.END (R174, R176): the agent waits until the next saddle. -/
def execStepEnd (ag : Agent) (w : IWord) (s : State) : Out :=
  .next (s.issue { major := 0x36, minor := 0x00 } ag w (fun s => .park s .stepEnd))

/-- The live step period in ns, 0 when event-driven (R192, R201). -/
def State.period (s : State) : W64 := s.liveOf 1
/-- The step budget in ns (R193): STEP_PERIOD, or STEP_BUDGET when steps are event-driven. -/
def State.budget (s : State) : Nat := if s.period = 0 then (s.liveOf 2).toNat else s.period.toNat

/-- STEP.INFO (R174): step number, period, cycles left in the step budget. -/
def execStepInfo (ag : Agent) (w : IWord) (s : State) : Out :=
  .next (s.issue { major := 0x36, minor := 0x01, dst := .s, imm := 0xFFFFFFFF, refusable := true } ag w (fun s =>
    let left := (if s.period = 0 then s.set.began.toNat + s.budget else (s.set.nextSaddle.getD 0).toNat) - s.time.now.toNat
    let cycles := match ag with
      | .core _ _ => left * 3 / 2
      | .ctx _ _ => left * 2
    if w.imm = 0 then .done (s.updRegs ag (fun r => r.ws w.dst s.set.step))
    else if w.imm = 1 then .done (s.updRegs ag (fun r => r.ws w.dst s.period))
    else if w.imm = 2 then .done (s.updRegs ag (fun r => r.ws w.dst (BitVec.ofNat 64 cycles)))
    else .refuse stInvalidOperand))

/-- The KEY of a STAGE.WR or STAGE.RD, which carry none (R68, R174): for WEIGHT_BINDING the program
that the job runs, by the handle under which its binding is looked up (log entry 191), else 0. -/
def State.stageKey (s : State) (job : Option Nat) (num : Nat) : W64 :=
  if num ≠ 0x101 then 0
  else match job with
    | none => 0
    | some n => match s.job? n with
      | some j => (match j.kind with
        | .program h _ _ _ _ => ((j.named h).getD h).setWidth 64
        | _ => 0)
      | none => 0

/-- STAGE.WR (R174, R175): its staging completes through a record. A traversal context, which accepts the step group (R103), has no tile SRAM to
hold a record: its change is staged at issue, and only STATUS tells the outcome (log entry 71). Non-zero sb bits 63:32 are refused (log entry
197, the model's choice). -/
def execStageWr (ag : Agent) (w : IWord) (s : State) : Out :=
  .next (s.issue { major := 0x36, minor := 0x02, a := .s, b := .s, imm := 0xFFFF, refusable := true } ag w (fun s =>
    match ag with
    | .ctx _ _ =>
      let r := s.regs ag
      let b := r.rs w.srcB
      match hi32 b == 0, recOperand (lo32 b) with
      | true, some _ =>
        let num := w.imm.toNat % 65536
        (match s.stageChange num (s.stageKey r.job num) (r.rs w.srcA) [] with
        | .error e => .done (s.updRegs ag (fun r => r.outcome e))
        | .ok (_, s) => .done s)
      | _, _ => .refuse stInvalidOperand
    | .core t c =>
      let r := s.regs ag
      let b := r.rs w.srcB
      match hi32 b == 0, recOperand (lo32 b) with
      | true, some rec => .async (s.addRec t c w rec (.stageWr (w.imm.setWidth 16) (r.rs w.srcA)) none)
      | _, _ => .refuse stInvalidOperand))

/-- STAGE.RD (R174): the live or the staged value of a setting; a number that names none is refused (R122, R124). -/
def execStageRd (ag : Agent) (w : IWord) (s : State) : Out :=
  .next (s.issue { major := 0x36, minor := 0x03, dst := .s, imm := 0x1FFFF, refusable := true } ag w (fun s =>
    let num := w.imm.toNat % 65536
    if !settingExists num then .refuse stInvalidField
    else .done (s.updRegs ag (fun r => r.ws w.dst (s.readSetting num (s.stageKey r.job num) (w.imm.getLsbD 16))))))

/-- ASYNC_REFUSED_TRAP (R126): a non-OK outcome found after issue under STRICT raises REFUSED at the next instruction
the agent would issue. -/
def execAsyncRefusedTrap (ag : Agent) (s : State) : Out :=
  .next (s.orStall (
    let r := s.regs ag
    if !s.issues ag then s
    else match r.asyncRefused with
      | none => s
      | some code => (s.setRegs ag { r with asyncRefused := none }).takeTrap ag 6 (code.setWidth 64) true))

/-! ## Work of record instructions -/

/-- OBJ.INFO's VALUE (R160). -/
def objValue (o : Obj) : W64 :=
  let tiers := (if o.s.isSome then 1 else 0) + (if o.d.isSome then 2 else 0) + (if o.f.isSome then 4 else 0)
  BitVec.ofNat 8 0 ++ BitVec.ofNat 4 tiers ++ BitVec.ofNat 4 o.state ++ BitVec.ofNat 8 o.typ ++ BitVec.ofNat 40 o.size

/-- OBJ.NEW (R160, R161, R228): a transient WORK object in Tier S of the issuing tile, or in Tier D. -/
def State.newWork (s : State) (job : Nat) (client : BitVec 6) (t size : Nat) (tierD : Bool) : W16 × W64 × State :=
  let o : Obj := { typ := 0x0C, owner := client, size := size, state := 0, job := some job }
  let made (s : State) (o : Obj) : W16 × W64 × State :=
    match s.createObj o with
    | none => (stTierFull, 0, s)
    | some (h, s) => (stOk, h.setWidth 64, s.updJob job (fun j => { j with created := j.created ++ [h] }))
  if tierD then
    match State.roomD s.obj.dir.length s (unitsOf size) with
    | (false, s) => (stTierFull, 0, s)
    | (true, s) => made s { o with d := some ⟨false, s.time.now, [], []⟩ }
  else
    let n := ceilDiv size 1024
    match State.roomS s.obj.dir.length s t n with
    | (none, s) => (stTierFull, 0, s)
    | (some b, s) => made s { o with s := some ⟨BitVec.ofNat 16 t, [t], false, b, n, false, s.time.now, 0, 1⟩ }

/-- The written units of an extent, in block and unit order, and the blocks that hold them. -/
def State.extentContent (s : State) (e : Extent) : List Byte × List Nat :=
  (List.range e.blocks).foldl (fun (bs, ks) i =>
    let (d, p) := s.extentAt e i
    let wp := ((s.die d).blk p).wp
    if wp = 0 then (bs, ks) else (bs ++ e.data.rdBytes (unitAt i 0) (65536 * wp), ks ++ [i])) ([], [])

/-- OBJ.SEAL (R161, R217, R220, R235): a ready object, encoded with BLKSHIFT 14 unless its type fixes 11, or in place, as a direct object with BLKSHIFT
11, the written units of an extent the program owns (log entry 201); none while a stream still writes the object or a program into the extent still
runs. -/
def State.sealWork (s : State) (op : RecOp) (h : W32) (copies : Nat) (qlc : Bool) : Option (W16 × W64 × State) :=
  match s.named? (some op.job) h with
  | some (r, o) =>
    if o.state ≠ 0 then some (stObjectSealed, 0, s)
    else if s.host.xfers.any (fun x => x.dst == r && !x.cut) then none
    else if !s.loads o then some (stObjectImpaired, 0, s.updObj r (fun o => { o with sealing := false }))
    else
      let content := s.content o
      let o' := { o with qlc := qlc, copies := copies, direct := decide (o.typ = 4 ∨ o.typ = 5),
                         blkshift := if o.typ = 4 ∨ o.typ = 5 then 11 else 14 }
      match s.sealInto r o' content (storedOf o.typ r content.length) with
      | (0, s) => some (stOk, r.setWidth 64, s)
      | (e, s) => some (e, 0, s.updObj r (fun o => { o with sealing := false }))
  | none => match s.extent? h with
    | none => some (stObjectUnknown, 0, s)
    | some e =>
      if !s.ownsExtent op.job h then some (stObjectUnknown, 0, s)
      else if (List.range e.blocks).any (fun i => let (d, p) := s.extentAt e i; ((s.die d).blk p).running != 0) then none
      else
        let (bs, ks) := s.extentContent e
        if bs.isEmpty then some (stInvalidField, 0, s)
        else
          let client := (s.job? op.job).map (fun j => j.client)
          let o : Obj := { typ := 0x0C, owner := client.getD 0, size := bs.length, state := 0, qlc := e.qlc, copies := copies,
                           direct := true, blkshift := 11, extent := some (h, ks), job := some op.job }
          match s.createObj o with
          | none => some (stTierFull, 0, s)
          | some (r, s) => match s.sealInto r o bs bs.length with
            | (0, s) => some (stOk, r.setWidth 64, s.updJob op.job (fun j => { j with created := j.created ++ [r] }))
            | (x, s) => some (x, 0, s.forget r)

/-- The work of a record instruction that one core does alone (R160, R161, R170, R175); none while it waits. -/
def State.soloWork (s : State) (op : RecOp) : Option (W16 × W64 × State) :=
  let on (h : W32) (k : W32 → Obj → W16 × W64 × State) : Option (W16 × W64 × State) :=
    match s.named? (some op.job) h with
    | none => some (stObjectUnknown, 0, s)
    | some (r, o) => some (k r o)
  let client : BitVec 6 := ((s.job? op.job).map (fun j => j.client)).getD 0
  match op.kind with
  | .objInfo h => on h (fun _ o => (stOk, objValue o, s))
  | .objNew kib tierD => some (s.newWork op.job client op.tile (1024 * kib) tierD)
  | .objDrop h =>
    let mine := ((s.job? op.job).map (fun j => (j.named h).map (fun r => j.created.contains r))).getD none
    if mine ≠ some true then some (stObjectUnknown, 0, s)
    else match s.named? (some op.job) h with
      | none => some (stObjectUnknown, 0, s)
      | some (r, _) =>
        if s.host.xfers.any (fun x => x.job == op.job && (x.src == r || x.dst == r)) then none
        else some (stOk, 0, s.dropObj r)
  | .objPin h tierD => on h (fun r o =>
      if o.case_ = 3 ∧ !(if tierD then o.d.isSome else o.s.isSome) then (stObjectImpaired, 0, s)
      else
        let (code, s) := if tierD then s.pinTierD r o else s.pinTierS r o op.tile
        (code, 0, if code = 0 then s.unwant r (!tierD) else s))
  | .objUnpin h tierD => on h (fun r _ => (stOk, 0, (s.unpin r (!tierD)).unwant r (!tierD)))
  | .objSeal h copies qlc => s.sealWork op h copies qlc
  | .objStage h r => on h (fun x _ => match s.stageChange 0x102 ((if h = resultHandle then x else h).setWidth 64) (r.setWidth 64) [] with
      | .error e => (e, 0, s)
      | .ok (_, s) => (stOk, 0, s))
  | .grpInfo g => match s.unit? g with
      | some u => some (stOk, BitVec.ofNat 64 (u.members + 65536 * u.total), s)
      | none => some (stInvalidGroup, 0, s)
  | .stageWr num v => match s.stageChange num.toNat (s.stageKey (some op.job) num.toNat) v [] with
      | .error e => some (e, 0, s)
      | .ok (_, s) => some (stOk, 0, s)
  | _ => none

/-! ## Group operations (R170 to R172) -/

/-- The key and call number of a group operation. -/
def RecKind.call : RecKind → Option (Nat × Nat)
  | .grpNew _ n => some (1, n)
  | .grpFree _ n => some (1, n)
  | .gtopk _ _ _ n => some (2, n)
  | .gsum _ _ n => some (3, n)
  | .gbcast _ _ _ n => some (4, n)
  | .gbar n => some (5, n)
  | _ => none

/-- The operation of the replica on tile `t` that belongs to the same call (log entry 20: paired by core and by how many
calls of the kind the core has made); one that completed at once (k or count 0) belongs to none. -/
def State.peerOp (s : State) (op : RecOp) (t : Nat) : Option RecOp :=
  s.host.recs.find? (fun r => r.tile == t && r.core == op.core && r.job == op.job && r.kind.call == op.kind.call && (r.id == op.id || r.outcome.isNone))

/-- What a member contributes: rank and operation, none for a member on another drive. -/
def State.callOps (s : State) (j : Job) (op : RecOp) : List (Nat × Option RecOp) :=
  (List.range (Nat.max 1 j.nmem)).map (fun r => (r, (j.tiles.find? (fun t => j.rankOf t == r)).bind (s.peerOp op)))

/-- Whether rank `r` of a job is a tile of this drive. -/
def Job.localRank (j : Job) (r : Nat) : Bool := j.tiles.any (fun t => j.rankOf t == r)

/-- A GTOPK entry (R171). -/
structure TopEnt where
  key : W64
  score : W32
  tag : W32
  deriving DecidableEq, Repr

/-- Entry `i` of a list at `a`. -/
def topAt (m : Mem) (a i : Nat) : TopEnt :=
  ⟨BitVec.ofNat 64 (m.rdNat (a + 16 * i) 8), BitVec.ofNat 32 (m.rdNat (a + 16 * i + 8) 4), BitVec.ofNat 32 (m.rdNat (a + 16 * i + 12) 4)⟩

/-- Order of GTOPK: ascending score, equal scores in ascending key (R171). -/
def topLe (x y : TopEnt) : Bool :=
  decide (fKey x.score < fKey y.score) || (fKey x.score == fKey y.score && decide (x.key.toNat ≤ y.key.toNat))

/-- Keeps the first entry of each key (R171). -/
def firstOfKey (seen : List W64) : List TopEnt → List TopEnt
  | [] => []
  | x :: xs => if seen.contains x.key then firstOfKey seen xs else x :: firstOfKey (x.key :: seen) xs

/-- The merge of GTOPK (R171). Of entries with one score and one key, the lowest rank's first stands (log entry 196, the model's choice). -/
def topMerge (k : Nat) (es : List TopEnt) : List TopEnt :=
  (firstOfKey [] ((es.filter (fun e => !isNan e.score)).mergeSort topLe)).take k

/-- The bytes of an entry. -/
def TopEnt.bytes (e : TopEnt) : List Byte := leBytes 8 e.key.toNat ++ leBytes 4 e.score.toNat ++ leBytes 4 e.tag.toNat

/-- The entries that a member on another drive contributes: free values (log entry 11). -/
def peerTop (job call r : Nat) : List TopEnt :=
  (List.range ((Config.peerWord job call r 0).toNat % 4097)).map (fun i =>
    ⟨Config.peerWord job call r (4 * i + 1) ++ Config.peerWord job call r (4 * i + 2),
     Config.peerWord job call r (4 * i + 3), Config.peerWord job call r (4 * i + 4)⟩)

/-- Writes each member's bytes at its own address. -/
def State.writeAt (s : State) (f : RecOp → Option Nat) (bs : RecOp → List Byte) : List RecOp → State
  | [] => s
  | op :: ops => (match f op with
    | some a => s.sramWrite op.tile a (bs op)
    | none => s).writeAt f bs ops

/-- The SRAM address a collective names. -/
def RecKind.addr : RecKind → Option Nat
  | .gtopk a _ _ _ => some a
  | .gsum a _ _ => some a
  | .gbcast a _ _ _ => some a
  | _ => none

/-- Ends a group operation at every local member with one outcome, and the VALUE of each. -/
def State.endCallBy (s : State) (code : W16) (v : RecOp → W64) : List RecOp → State
  | [] => s
  | op :: ops => ((s.shortRecord op.tile op.core code).setOutcome op.id code (v op)).endCallBy code v ops

/-- Ends a group operation at every local member with one outcome and VALUE. -/
def State.endCall (s : State) (code : W16) (v : W64) (ops : List RecOp) : State := s.endCallBy code (fun _ => v) ops

/-- How many entries, elements or bytes a collective asks for (R170). -/
def RecKind.asked : RecKind → Nat
  | .gtopk _ k _ _ => k
  | .gsum _ n _ => n
  | .gbcast _ n _ _ => n
  | _ => 0

/-- The ring position of the drive that holds rank `r` of a level-3 group, in ring order (R65, R134): this drive's tiles of the unit, and 256 of
each other drive (log entry 172). -/
def Job.driveOf (j : Job) (here r : Nat) : Nat :=
  let others := j.others.mergeSort (fun a b => decide (a ≤ b))
  if r < j.rankBase then (others[r / 256]?).getD here
  else if r < j.rankBase + j.tiles.length then here
  else (others[(r - j.tiles.length) / 256]?).getD here

/-- The tile of another drive that rank `r` of a level-3 group falls on (R134; log entry 172). -/
def Job.tileOf (j : Job) (r : Nat) : Nat := (if r < j.rankBase then r else r - j.tiles.length) % 256

/-- GTOPK over the members that have answered (R171, R172): each asks for its own k. VALUE names the
drives of the unit that answered, at level 3. -/
def State.topCall (s : State) (op : RecOp) (j : Job) (call : Nat) (ops : List (Nat × Option RecOp)) (answered : Byte) (code : W16) : State :=
  let locals := ops.filterMap Prod.snd
  let from_ (x : Nat × Option RecOp) : List TopEnt := match x.2 with
    | some o => (match o.kind with
      | .gtopk a _ l _ => (List.range l).map (topAt (s.tile o.tile).sram a)
      | _ => [])
    | none => if !j.localRank x.1 && answered.getLsbD (j.driveOf s.ownPos.toNat x.1) then peerTop op.job call x.1 else []
  let es := ops.flatMap from_
  let out (o : RecOp) := topMerge o.kind.asked es
  let own : Byte := 1#8 <<< s.ownPos.toNat
  let members : Byte := j.others.foldl (fun m d => m ||| 1#8 <<< d) own
  let map : Byte := if gidLevel (s.core op.tile op.core).g = 3 then (answered ||| own) &&& members else 0
  let v (o : RecOp) : W64 := BitVec.ofNat 64 ((out o).length + 1099511627776 * map.toNat)
  let s := if code = stOk then s.count (some op.job) { nanp := es.countP (fun e => isNan e.score) } else s
  (s.writeAt (fun o => o.kind.addr)
    (fun o => (out o).flatMap TopEnt.bytes) locals).endCallBy code v locals

/-- Ends a group operation whose member was reset or does not answer (R137, R172): GTOPK merges the entries that arrived
and completes with MEMBER_MISSING; the others complete with the code and change nothing. -/
def State.callShort (s : State) (op : RecOp) (answered : Byte) (code : W16) : State :=
  match s.job? op.job, op.kind with
  | some j, .gtopk _ _ _ n => s.topCall op j (8 * n + 2) (s.callOps j op) answered stMemberMissing
  | _, _ => (s.shortRecord op.tile op.core code).setOutcome op.id code 0

/-- Does a group operation once every member has issued it (R170 to R172); `answered` is the bitmap of drives that
answered; none while a member is still to issue. -/
def State.callWork (s : State) (op : RecOp) (answered : Byte) : Option State :=
  match s.job? op.job, op.kind.call with
  | some j, some (key, n) =>
    let ops := s.callOps j op
    if ops.any (fun (r, o) => j.localRank r && o.isNone) then none
    else
      let locals := ops.filterMap Prod.snd
      let silent := j.others.any (fun d => !answered.getLsbD d)
      let call := 8 * n + key
      let rankOf (r : Nat) : Option RecOp := (ops.find? (fun x => x.1 == r)).bind Prod.snd
      match op.kind with
      | .grpNew members _ =>
        let same := locals.all (fun o => match o.kind with
          | .grpNew m _ => m == members
          | _ => false)
        some (if silent then s.endCall stMemberMissing 0 locals else if !same then s.endCall stInvalidField 0 locals
          else if members.any (fun m => (s.unit? m).isNone) then s.endCall stInvalidGroup 0 locals
          else match s.stageChange 0x100 0 0 members with
            | .error e => s.endCall e 0 locals
            | .ok (v, s) => s.endCall stOk v locals)
      | .grpFree g _ =>
        let same := locals.all (fun o => match o.kind with
          | .grpFree x _ => x == g
          | _ => false)
        some (if silent then s.endCall stMemberMissing 0 locals else if !same then s.endCall stInvalidField 0 locals
          else match s.stageChange 0x100 (g.setWidth 64) 1 [] with
            | .error e => s.endCall e 0 locals
            | .ok (_, s) => s.endCall stOk 0 locals)
      | .gtopk _ _ _ _ => some (s.topCall op j call ops answered (if silent then stMemberMissing else stOk))
      | .gsum _ _ _ =>
        if silent then some (s.endCall stMemberMissing 0 locals)
        else
          let at_ (r i : Nat) : W32 := match rankOf r with
            | some o => (match o.kind with
              | .gsum a n _ => if i < n then BitVec.ofNat 32 (s.sramNat o.tile (a + 4 * i) 4) else Config.peerWord op.job call r i
              | _ => 0)
            | none => Config.peerWord op.job call r i
          let sums (o : RecOp) := (List.range o.kind.asked).map (fun i => treeSum ((List.range ops.length).map (fun r => at_ r i)))
          some ((s.writeAt (fun o => o.kind.addr) (fun o => (sums o).flatMap (fun x => leBytes 4 x.toNat)) locals).endCall stOk 0 locals)
      | .gbcast _ _ _ _ =>
        if silent then some (s.endCall stMemberMissing 0 locals)
        else
          let away (src i : Nat) : Byte := (Config.peerWord op.job call src i).setWidth 8
          let sent (src i : Nat) : Byte := match rankOf src with
            | some o => (match o.kind with
              | .gbcast a n _ _ => if i < n then (s.tile o.tile).sram.rd (a + i) else away src i
              | _ => 0)
            | none => away src i
          let bs (o : RecOp) : List Byte := match o.kind with
            | .gbcast _ n src _ => (List.range n).map (sent src)
            | _ => []
          some ((s.writeAt (fun o => o.kind.addr) bs locals).endCall stOk 0 locals)
      | .gbar _ => some (s.endCall (if silent then stMemberMissing else stOk) 0 locals)
      | _ => none
  | _, _ => none

/-! ## Completion -/

/-- RECORD_INSTRUCTION_COMPLETE (R140): the core's outstanding record instruction number `n`, oldest 0, completes: its
work is done, and its record written. While its work cannot end, or its island is not locked (R180), nothing happens. -/
def execRecordInstructionComplete (tile : Fin 256) (core : Fin 4) (n : Nat) (answered : Byte) (s : State) : Out :=
  .next (
    let mine := s.host.recs.filter (fun r => r.tile == tile.val && r.core == core.val)
    match mine[n]? with
    | none => s
    | some op =>
      if !(s.island (s.srcTile tile.val)).locked then s
      else
        let s1 : State := if op.outcome.isSome then s
          else if op.kind.call.isSome then (s.callWork op answered).getD s
          else match s.soloWork op with
            | some (code, v, s) => s.setOutcome op.id code v
            | none => s.serveMedia
        match (s1.host.recs.find? (fun r => r.id == op.id)).bind (fun r => r.outcome) with
        | none => s1
        | some (code, v) => s1.writeRecord tile core op code v)

end Sys2Proof.Machine
end

