-- ==== Sys2Proof/Machine/Traverse.lean ====
section
/-! DEFINITION. The traverse group and its events (06 R168, R169; 05 R117; 09 R254, R257 to R266, R271, R284). -/
namespace Sys2Proof.Machine

/-! ## Walks -/

/-- The walk of job `n` on engine `e`. -/
def State.walk? (s : State) (e n : Nat) : Option Walk := find n (s.engine e).walks
/-- Writes the walk of job `n` on engine `e`. -/
def State.setWalk (s : State) (e n : Nat) (w : Walk) : State := s.setEngine e { s.engine e with walks := put n w (s.engine e).walks }

/-- The index that a job names: its CODEBOOK handle as bound (R18). -/
def State.jobIndex (s : State) (n : Nat) : Option W32 :=
  match s.job? n with
  | none => none
  | some j =>
    let h : Option W32 := match j.kind with
      | .search p => some p.index
      | .embed i _ _ _ _ _ _ _ => some i
      | .consolidate i => some i
      | _ => none
    h.bind j.named

/-- The descriptor of the index that a job names. -/
def State.jobDesc (s : State) (n : Nat) : Option IndexD := (s.jobIndex n).bind s.indexD?

/-- Order of the candidate queue: ascending D, then ascending node ID (R258). -/
def qLt (a b : QCand) : Bool := decide (a.d < b.d) || (a.d == b.d && decide (a.node < b.node))

/-- Puts an entry in its place. -/
def qInsert (c : QCand) : List QCand → List QCand
  | [] => [c]
  | x :: xs => if qLt c x then c :: x :: xs else x :: qInsert c xs

/-- The beam bound (R260). -/
def Walk.bound (w : Walk) : Nat :=
  match w.queue[w.le - 1]? with
  | some c => c.d
  | none => 0xFFFF

/-- A push into the queue of the base layer (R258, R259): the walk, and whether the entry was taken. -/
def Walk.push (w : Walk) (c : QCand) : Walk × Bool :=
  if w.visited.contains c.node then (w, false)
  else
    let full := decide (w.vcap ≤ w.visited.length)
    let w := if full then { w with overflowed := true } else { w with visited := w.visited ++ [c.node] }
    if w.queue.any (fun x => x.node == c.node) then (w, false)
    else if w.queue.length < w.qcap then ({ w with queue := qInsert c w.queue }, true)
    else
      let w := if w.qcap ≤ w.le then { w with overflowed := true } else w
      match w.queue.getLast? with
      | some x => if qLt c x then ({ w with queue := (qInsert c w.queue).take w.qcap }, true) else (w, false)
      | none => (w, false)

/-- A push in the descent state keeps the single best entry (R266). -/
def Walk.pushUpper (w : Walk) (c : QCand) : Walk × Bool :=
  match w.queue with
  | [] => ({ w with queue := [c] }, true)
  | x :: _ => if qLt c x then ({ w with queue := [c] }, true) else (w, false)

/-- The descent state ends at the first push of a base-layer node (R266). -/
def Walk.enterBase (w : Walk) : Walk := if w.descent then { w with descent := false, queue := [] } else w

/-- The entry that TRV.POP takes (R260, R264, R266). -/
def Walk.best (w : Walk) : Option QCand :=
  if w.rounds && decide (w.width ≤ w.popped) then none
  else w.queue.find? (fun c => !c.exp && (w.descent || decide (c.d < w.bound)))

/-- Marks an entry as expanded. -/
def Walk.expand (w : Walk) (c : QCand) : Walk :=
  { w with queue := w.queue.map (fun x => if x.node = c.node then { x with exp := true } else x), popped := w.popped + 1 }

/-- Writes a walk back; its first overflow stamps WALK_FULL (R285). -/
def State.keepWalk (s : State) (e n : Nat) (w : Walk) : State :=
  let was := ((s.walk? e n).map (fun w => w.overflowed)).getD false
  let s := s.setWalk e n w
  if w.overflowed && !was then s.stamp (srcEngine e) 0x50 (s.jobDetail (some n)) else s

/-- The contexts of engine `e` that run for job `n`. -/
def State.ctxsOf (s : State) (e n : Nat) : List Nat :=
  (s.engine e).ctxs.filterMap (fun (k, c) => if c.r.job = some n ∧ c.r.run ≠ .idle then some k else none)

/-- Those that wait in TRV.POP, with their destination registers. -/
def State.poppers (s : State) (e n : Nat) : List (Nat × BitVec 5 × BitVec 5) :=
  (s.engine e).ctxs.filterMap (fun (k, c) => match c.r.run with
    | .waiting (.pop d p) _ => if c.r.job = some n then some (k, d, p) else none
    | _ => none)

/-- What TRV.POP leaves in its destination: the entry as the queue holds it (R258; log entry 22). -/
def QCand.bits (c : QCand) : W64 := BitVec.ofNat 64 (c.node * 16777216 + c.d * 256)

/-- The context agent. -/
def ctxAgent (e k : Nat) : Agent := .ctx (Fin.ofNat 16 e) (Fin.ofNat 512 k)

/-- Entries that contexts waiting in TRV.POP can take go to them; which of several waiters goes first is free
(log entry 6). -/
def State.servePops (s : State) (e n : Nat) : Nat → State
  | 0 => s
  | fuel + 1 =>
    match s.walk? e n, s.poppers e n with
    | some w, p :: ps => (match w.best with
      | none => s
      | some c =>
        let (i, s) := if ps.isEmpty then (0, s) else s.draw
        let (k, d, q) := (((p :: ps)[Config.pick i % (p :: ps).length]?).getD p)
        let ag := ctxAgent e k
        let s := (s.setWalk e n (w.expand c)).updRegs ag (fun r => (r.ws d c.bits).wp q (BitVec.allOnes 64))
        (s.wake ag).servePops e n fuel)
    | _, _ => s

/-- Serves every waiting TRV.POP of a walk. -/
def State.pops (s : State) (e n : Nat) : State := s.servePops e n (s.poppers e n).length

/-- Whether every context of a walk waits in TRV.POP and none can take an entry. -/
def State.settled (s : State) (e n : Nat) : Bool :=
  match s.walk? e n with
  | none => true
  | some w => (s.ctxsOf e n).length == (s.poppers e n).length && w.best.isNone

/-- Whether the walks of a job are quiet (R263): every context waits in TRV.POP with nothing to take, no forward is in
flight and none is held. -/
def State.quiet (s : State) (n : Nat) (es : List Nat) : Bool :=
  es.all (fun e => s.settled e n) && !s.host.forwards.any (fun f => f.job == n) &&
  es.all (fun e => match s.walk? e n with
    | some w => w.heldPush.isEmpty && w.heldFwd.isEmpty
    | none => true)

/-- Pushes a list of entries in order, each of an upper layer or of the base layer: the first of the base layer ends the descent, and an
upper-layer entry then counts no more (R266). -/
def Walk.pushAll (w : Walk) : List (QCand × Bool) → Walk
  | [] => w
  | (c, true) :: cs => (if w.descent then (w.pushUpper c).1 else w).pushAll cs
  | (c, false) :: cs => (w.enterBase.push c).1.pushAll cs

/-- A stable insertion by the first component. -/
def byFirst {α : Type} (xs : List (Nat × α)) : List (Nat × α) := xs.mergeSort (fun a b => decide (a.1 ≤ b.1))

/-- In rounds mode, once every walk of the job has settled and every forward has arrived, the round ends (R264): local
pushes apply in context order, then the forwards in ascending source shard, and the next round begins. -/
def State.endRound (s : State) (n : Nat) (es : List Nat) : State :=
  let rounds := es.any (fun e => ((s.walk? e n).map (fun w => w.rounds)).getD false)
  if rounds && es.all (fun e => s.settled e n) && !s.host.forwards.any (fun f => f.job == n) then
    let s := es.foldl (fun s e => match s.walk? e n with
      | none => s
      | some w =>
        let w' := (w.pushAll ((byFirst w.heldPush).map Prod.snd)).pushAll ((byFirst w.heldFwd).map (fun x => (x.2, false)))
        s.keepWalk e n { w' with heldPush := [], heldFwd := [], popped := 0 }) s
    es.foldl (fun s e => s.pops e n) s
  else s

/-- What follows a change of a walk: waiting contexts take entries, and a round may end. -/
def State.advance (s : State) (e n : Nat) : State :=
  let s := s.pops e n
  match s.jobDesc n with
  | some d => s.endRound n d.clusters
  | none => s

/-! ## Instructions -/

/-- How a traverse instruction is encoded. -/
def opTrv (minor : Nat) (dst a b : RegFile) (imm : W32) (refusable : Bool) : Op :=
  { major := 0x2C, minor := minor, dst := dst, a := a, b := b, imm := imm, refusable := refusable, accept := .ctx }

/-- A context's engine, number, job and walk; anything else cannot issue. -/
def onWalk (ag : Agent) (s : State) (f : Nat → Nat → Nat → Walk → Act) : Act :=
  match ag with
  | .core _ _ => .hold
  | .ctx e k => match (s.regs ag).job with
    | none => .hold
    | some n => match s.walk? e.val n with
      | none => .hold
      | some w => f e.val k.val n w

/-- A node ID in a scalar register: bits 39:0 (R168). -/
def nodeOf (x : W64) : Option Nat := if x.extractLsb' 40 24 = 0 then some x.toNat else none

/-- A predicate of all ones or all zeros. -/
def allOr (b : Bool) : W64 := if b then BitVec.allOnes 64 else 0

/-- Searches that hold a walk slot of engine `e` (R257): admitted, until WALK_DONE. -/
def State.walkHolders (s : State) (e : Nat) : List (Nat × SearchP × IndexD) :=
  s.host.jobs.filterMap (fun j => match j.kind, j.phase, s.jobDesc j.num with
    | .search q, .admitted, some x => if q.beam != 0 && q.width != 0 && j.walked.isNone && x.clusters.contains e then some (j.num, q, x) else none
    | _, _, _ => none)

/-- Contexts of engine `e` that are not to be had (R257): those that run, and those that a walk holds and has not started. -/
def State.ctxsHeld (s : State) (e : Nat) : Nat :=
  let hs := s.walkHolders e
  let used := ((s.engine e).ctxs.filter (fun (_, c) => c.r.run != .idle)).length
  used + (hs.map (fun (n, q, _) => q.width - (s.ctxsOf e n).length)).foldl (· + ·) 0

/-- A value beside the outcome OK in a traverse instruction's destination (R168): outcome in bits 15:0, value in bits 63:16. -/
def trvValue (n : Nat) : W64 := BitVec.ofNat 64 (65536 * n)

/-- TRV.LAUNCH (R168): a free context starts at word IMM with s1 = sa; which free one is the engine's choice (log entry
12). With none free the outcome CONTEXT_EXHAUSTED goes to sd and to STATUS, and counts as an outcome found after issue (log entry 195, the model's choice); contexts that other walks hold (R257) are not free. -/
def execTrvLaunch (ag : Agent) (w : IWord) (s : State) : Out :=
  .next (s.issue (opTrv 0x00 .s .s .unused 0xFFFFFFFF false) ag w (fun s =>
    match ag with
    | .core _ _ => .hold
    | .ctx e _ =>
      let r := s.regs ag
      let own := match r.job with
        | some n => (s.walkHolders e.val).any (fun (m, q, _) => m == n && decide ((s.ctxsOf e.val n).length < q.width))
        | none => false
      let free := if own || decide (s.ctxsHeld e.val < 512) then (List.range 512).filter (fun k => (s.ctx e.val k).r.run == .idle) else []
      match free with
      | [] => .done (s.setRegs ag ({ (r.ws w.dst (stContextExhausted.setWidth 64)) with
          status := lastStatus r.status stContextExhausted }.outcome stContextExhausted))
      | f :: fs =>
        let (n, s) := if fs.isEmpty then (0, s) else s.draw
        let k := (((f :: fs)[Config.allot n % (f :: fs).length]?).getD f)
        let c : Ctx := { r := ({ run := .running, job := r.job, s := putD 0 [] 1 (r.rs w.srcA) } : Regs).setPc (w.imm.setWidth 64) }
        .done ((s.setCtx e.val k c).updRegs ag (fun r => { (r.ws w.dst (trvValue k)) with status := lastStatus r.status stOk }))))

/-- Every walk of an engine ends as overflowed, and its job stops at the next saddle with MEDIA_UNCORRECTABLE (R423 kind 4): a waiting
TRV.POP is answered as one of an ended walk is. -/
def State.walksLost (s : State) (e : Nat) : State :=
  (s.engine e).walks.foldl (fun s (n, w) =>
    let s := s.keepWalk e n { w with overflowed := true, ended := true }
    let s := (s.poppers e n).foldl (fun s (k, _, q) => (s.updRegs (ctxAgent e k) (fun r => r.wp q 0)).wake (ctxAgent e k)) s
    s.updJob n (fun j => { j with stop := j.stop.or (some stMediaUncorrectable) })) s

/-- What a context's access finds in its engine's memories (R419 to R423 kind 4). -/
def State.engineHit (s : State) (e : Nat) : EccHit → State
  | .clean => s
  | .correctable b a => s.noteCe 4 e 4 b a
  | .uncorrectable a => (s.noteUe (srcEngine e) 4 e 4 a).walksLost e

/-- TRV.NODE (R168, R246, R423): the record's read is requested and the context waits. -/
def execTrvNode (ag : Agent) (w : IWord) (m : EccHit) (s : State) : Out :=
  .next (s.issue (opTrv 0x01 .s .s .unused 0 true) ag w (fun s0 => onWalk ag s0 (fun e k n _ =>
    let s := s0.engineHit e m
    match nodeOf ((s.regs ag).rs w.srcA) with
    | none => .refuse stInvalidOperand
    | some node => match s.jobDesc n with
      | none => .hold
      | some d => match d.slotOf node with
        | none => .refuse (match d.slots[node / 268435456]? with
          | some x => if x.handle = 0 then stObjectUnknown else stOutOfRange
          | none => stObjectUnknown)
        | some x =>
          let c := s.ctx e k
          .park ((s.setCtx e k { c with fetch := some (0, x.handle, node % 268435456 * 2048, 2048),
                                        dest := some (w.dst.toNat, false, node), layer := 0 }).touchRead x.handle) .data)))

/-- TRV.DRD (R254): a line of the walk's own entry layer IMM 3:0; one beyond the layer's records is OUT_OF_RANGE (log entry 198, the model's
choice). -/
def execTrvDrd (ag : Agent) (w : IWord) (s : State) : Out :=
  .next (s.issue (opTrv 0x02 .s .s .unused 0xF true) ag w (fun s => onWalk ag s (fun e k n wk =>
    let a := ((s.regs ag).rs w.srcA).toNat
    match s.jobDesc n with
    | none => .hold
    | some d => match d.layer wk.shard (w.imm.toNat % 16) with
      | none => .refuse stInvalidOperand
      | some (h, recs) =>
        if a % 64 ≠ 0 then .refuse stInvalidOperand
        else if 2048 * recs < a + 64 then .refuse stOutOfRange
        else
          let c := s.ctx e k
          .park ((s.setCtx e k { c with fetch := some (a % 2048, h, a, 64), dest := some (w.dst.toNat, false, 0),
                                        layer := w.imm.toNat % 16 }).touchRead h) .data)))

/-- The neighbours of the record in a slot: ID, label and codes of positions 0 to DEG − 1 (R249). -/
def neighbours (slot : Mem) (d : IndexD) : List (Nat × Byte × List Nat) :=
  (List.range (Nat.min (slot.rd 20).toNat d.maxdeg)).map (fun i =>
    let base := 32 + d.v
    let a := base + 6 * d.maxdeg + i * (d.m / 2)
    (slot.rdNat (base + 5 * i) 5, slot.rd (base + 5 * d.maxdeg + i),
      (List.range d.m).map (fun j => (slot.rd (a + j / 2)).toNat / 16 ^ (j % 2) % 16)))

/-- TRV.SCORE (R253, R261): the slot's neighbours are scored; those of empty slots or beyond a slot's records are skipped. -/
def execTrvScore (ag : Agent) (w : IWord) (s : State) : Out :=
  .next (s.issue (opTrv 0x03 .s .unused .unused 0 false) ag w (fun s => onWalk ag s (fun e k n wk =>
    match s.jobDesc n with
    | none => .hold
    | some d =>
      let c := s.ctx e k
      let here (id : Nat) : Bool := if c.layer = 0 then (d.slotOf id).isSome else
        ((d.layer wk.shard c.layer).map (fun x => decide (id < x.2))).getD false
      let ns := (neighbours c.slot d).filter (fun x => here x.1)
      let raws := ns.map (fun x => (x.1, rawDist wk.tables wk.labelMask wk.penalty x.2.2 x.2.1))
      let s := s.setCtx e k { c with scored := raws.map (fun (id, x) => ⟨id, coarse x⟩),
                                     r := c.r.ws w.dst (trvValue raws.length) }
      .done (s.count (some n) { sat := raws.countP (fun x => decide (0xFFFF < x.2)) }))))

/-- TRV.VISIT (R168, R259). -/
def execTrvVisit (ag : Agent) (w : IWord) (s : State) : Out :=
  .next (s.issue (opTrv 0x04 .p .s .unused 0 true) ag w (fun s => onWalk ag s (fun e _ n wk =>
    match nodeOf ((s.regs ag).rs w.srcA) with
    | none => .refuse stInvalidOperand
    | some node =>
      let seen := wk.visited.contains node
      let wk' := if seen then wk else if wk.vcap ≤ wk.visited.length then { wk with overflowed := true }
        else { wk with visited := wk.visited ++ [node] }
      .done ((s.keepWalk e n wk').updRegs ag (fun r => r.wp w.dst (allOr seen))))))

/-- TRV.TOMB (R271): the word of the bitmap that holds the tombstone bit is requested and the context waits. -/
def execTrvTomb (ag : Agent) (w : IWord) (s : State) : Out :=
  .next (s.issue (opTrv 0x05 .p .s .unused 0 true) ag w (fun s => onWalk ag s (fun e k n _ =>
    match nodeOf ((s.regs ag).rs w.srcA), (s.jobIndex n).bind s.index? with
    | none, _ => .refuse stInvalidOperand
    | some _, none => .hold
    | some node, some x =>
      let c := s.ctx e k
      let word := ((s.jobDesc n).map (fun d => d.tombAt node / 8 * 8)).getD 0
      .park ((s.touchRead x.tombObj).setCtx e k { c with fetch := some (0, x.tombObj, word, 8), dest := some (w.dst.toNat, true, node) }) .data)))

/-- Offers a scored neighbour (R261, R264, R266): pushed into the own shard's walk, or forwarded; the state and
whether it counts. In rounds mode a push is held for the round's end; in the descent it counts when it betters the entry that the round
found (log entry 168). -/
def offer (d : IndexD) (e k n : Nat) (upper : Bool) (s : State) (x : Scored) : State × Bool :=
  match s.walk? e n with
  | none => (s, false)
  | some w =>
    let c : QCand := ⟨x.node, x.dist, false⟩
    if upper then
      if !w.descent then (s, false)
      else
        let (w', b) := w.pushUpper c
        (s.setWalk e n (if w.rounds then (if b then { w with heldPush := w.heldPush ++ [(k, c, true)] } else w) else w'), b)
    else
      let shard := ((d.slotOf x.node).map (fun y => y.shard)).getD w.shard
      if shard = w.shard then
        if w.rounds then (s.setWalk e n { w with heldPush := w.heldPush ++ [(k, c, false)] }, true)
        else
          let (w', b) := w.enterBase.push c
          (s.keepWalk e n w', b)
      else
        let dst := (d.clusters[shard]?).getD e
        let s := s.setWalk e n { w with sent := w.sent + 1 }
        ({ s with host := { s.host with forwards := s.host.forwards ++ [⟨e, w.shard, dst, n, c⟩] } }, true)

/-- Offers the scored neighbours in ascending position. -/
def offerAll (d : IndexD) (e k n : Nat) (upper : Bool) (s : State) (cnt : Nat) : List Scored → State × Nat
  | [] => (s, cnt)
  | x :: xs =>
    let (s, b) := offer d e k n upper s x
    offerAll d e k n upper s (if b then cnt + 1 else cnt) xs

/-- TRV.PUSH (R261). -/
def execTrvPush (ag : Agent) (w : IWord) (s : State) : Out :=
  .next (s.issue (opTrv 0x06 .s .unused .unused 0 false) ag w (fun s => onWalk ag s (fun e k n _ =>
    match s.jobDesc n with
    | none => .hold
    | some d =>
      let c := s.ctx e k
      let (s, cnt) := offerAll d e k n (c.layer != 0) (s.setCtx e k { c with scored := [] }) 0 c.scored
      .done ((s.updRegs ag (fun r => r.ws w.dst (trvValue cnt))).advance e n))))

/-- TRV.POP (R168, R260): the best unexpanded entry, or the context waits while the walk is live. A walk that has ended gives
pd all zeros and leaves sd as it was. Both registers are those of DST. -/
def execTrvPop (ag : Agent) (w : IWord) (s : State) : Out :=
  let out := s.issue (opTrv 0x07 .p .unused .unused 0 false) ag w (fun s =>
    match ag, (s.regs ag).job with
    | .ctx e _, some n => (match s.walk? e.val n with
      | none => .done (s.updRegs ag (fun r => r.wp w.dst 0))
      | some wk =>
        if wk.ended then .done (s.updRegs ag (fun r => r.wp w.dst 0))
        else match wk.best with
          | some c => .done ((s.setWalk e.val n (wk.expand c)).updRegs ag (fun r => (r.ws w.dst c.bits).wp w.dst (BitVec.allOnes 64)))
          | none => .park s (.pop w.dst w.dst))
    | _, _ => .hold)
  .next (match ag, (s.regs ag).job, (s.regs ag).run with
    | .ctx e _, some n, .running => (match (out.regs ag).run with
      | .waiting (.pop _ _) _ => out.advance e.val n
      | _ => out)
    | _, _, _ => out)

/-- TRV.BOUND (R168, R260). -/
def execTrvBound (ag : Agent) (w : IWord) (s : State) : Out :=
  .next (s.issue (opTrv 0x08 .p .s .unused 0 false) ag w (fun s => onWalk ag s (fun _ _ _ wk =>
    .done (s.updRegs ag (fun r => r.wp w.dst (allOr (decide ((r.rs w.srcA).toNat % 65536 < wk.bound))))))))

/-- Order of the result list (R262). -/
def resLe (a b : WalkResult) : Bool := decide (a.d < b.d) || (a.d == b.d && decide (a.key.toNat ≤ b.key.toNat))

/-- TRV.EMIT (R262): the slot must hold the record whose SELF is the node. -/
def execTrvEmit (ag : Agent) (w : IWord) (s : State) : Out :=
  .next (s.issue (opTrv 0x09 .unused .s .s 0 true) ag w (fun s => onWalk ag s (fun e k n wk =>
    let r := s.regs ag
    let slot := (s.ctx e k).slot
    match nodeOf (r.rs w.srcA), s.jobDesc n with
    | none, _ => .refuse stInvalidOperand
    | some _, none => .hold
    | some node, some d =>
      if slot.rdNat 8 5 ≠ node then .refuse stInvalidOperand
      else
        let x : WalkResult := { node := node, d := (r.rs w.srcB).toNat % 65536, key := BitVec.ofNat 64 (slot.rdNat 0 8), label := slot.rd 18,
                                vcode := slot.rdBytes 32 (d.dim / 2),
                                vmeta := (List.range (d.dim / 32)).map (fun i => BitVec.ofNat 32 (slot.rdNat (32 + d.dim / 2 + 4 * i) 4)) }
        .done (s.setWalk e n { wk with results := ((wk.results ++ [x]).mergeSort resLe).take wk.pool }))))

/-! ## Events -/

/-- CONTEXT_DATA_ARRIVED (R117, R168, R271, R284): the data lands in the slot, or the tombstone bit in its predicate,
and the context is ready. A failed flash read takes R237's path: when no copy serves it, the outcome is MEDIA_UNCORRECTABLE, and that of a
read of an object already in case 3 OBJECT_IMPAIRED (log entry 169); so does a unit of the Tier F copy that is known not to read. A failed Tier D read stamps ECC_UE in the engine's island, with
the address of a word of the line (log entry 209), and halts the cluster's channel (R239); the context waits on. Whether a good Tier D read met a correctable
error is free (log entry 218). -/
def execContextDataArrived (cluster : Fin 16) (ctx : Fin 512) (good : Bool) (s : State) : Out :=
  let e := cluster.val
  let k := ctx.val
  let ag : Agent := .ctx cluster ctx
  let c := s.ctx e k
  .next (match c.r.run, c.fetch, c.dest with
  | .waiting .data _, some (at_, h, off, n), some (reg, pred, node) =>
    let inD := pred || c.layer != 0
    let stack := (Config.firstStack h + off / 4096) % 2
    let unit := (((s.obj? h).bind (fun o => o.d)).map (fun c => c.loc h (off / 65536))).getD 0
    if c.halted then s
    else if !good && inD then
      let (i, s) := s.draw
      let word := off % 65536 / 8 + Config.allot i % Nat.max 1 (ceilDiv n 8)
      let s := s.noteUe (srcEngine e) 2 stack 4 (BitVec.ofNat 40 (65536 * unit + 8 * word))
      let o := s.obj
      let all := if o.halted.contains (stack, e) then o.halted else o.halted ++ [(stack, e)]
      let o := { o with halted := all, haltUnits := put (16 * stack + e) unit o.haltUnits, halts := put stack (satInc (getD 0 o.halts stack)) o.halts }
      let s := { s with obj := o }
      let s := s.stamp (srcDram stack) 0x4C (BitVec.ofNat 1 stack ++ BitVec.ofNat 4 e ++ BitVec.ofNat 23 unit)
      s.setCtx e k { c with halted := true }
    else
    let s := if inD then s.mayCorrect 2 stack 4 (65536 * unit + off % 65536 / 8 * 8) else s
    if pred then
      let length := ((c.r.job.bind s.job?).map (fun j => j.length)).getD 0
      let dead := (((c.r.job.bind s.jobIndex).bind s.index?).map (fun x => x.deleted node length)).getD false
      let s := s.setCtx e k { c with fetch := none, dest := none, r := c.r.wp (BitVec.ofNat 5 reg) (allOr dead) }
      s.wake ag
    else
      let served (s : State) : Option (List Byte) := (s.obj? h).bind (fun o => s.objBytes o 256 off n)
      let fromF := ((s.obj? h).map (fun o => o.f.isSome && o.case_ != 3)).getD false
      let s := if !good ∨ ((served s).isNone ∧ fromF ∧ s.sec.mbk) then s.impair h else s
      let bytes := served s
      let c := s.ctx e k
      let code : W16 := if bytes.isSome then stOk else if good ∧ !fromF then stObjectImpaired else stMediaUncorrectable
      let r := (c.r.ws (BitVec.ofNat 5 reg) (code.setWidth 64)).outcome code
      let s := s.setCtx e k { c with fetch := none, dest := none, r := r,
                                     slot := match bytes with
                                       | some bs => c.slot.wrBytes at_ bs
                                       | none => c.slot }
      s.wake ag
  | _, _, _ => s)

/-- FORWARD_ARRIVAL (R261, R263, R264): the oldest forward from one engine to another for a job arrives; it is tested
and pushed, or in rounds mode held for the next round. -/
def execForwardArrival (src dst : Fin 16) (job : Nat) (s : State) : Out :=
  .next (match s.host.forwards.find? (fun f => f.src == src.val && f.dst == dst.val && f.job == job) with
  | none => s
  | some f =>
    let s := { s with host := { s.host with forwards := s.host.forwards.erase f } }
    match s.walk? f.dst job with
    | none => s
    | some w =>
      let w := { w with received := w.received + 1 }
      let s := if w.rounds then s.setWalk f.dst job { w with heldFwd := w.heldFwd ++ [(f.shard, f.cand)] }
        else s.keepWalk f.dst job (w.enterBase.push f.cand).1
      s.advance f.dst job)

end Sys2Proof.Machine
end

