-- ==== Sys2Proof/Machine/Search.lean ====
section
/-! DEFINITION. The events of a SEARCH, of stored prefill and of an EMBED (01 R19 to R28; 09 R244 to R284; 10 R298 to R316). -/
namespace Sys2Proof.Machine

/-! ## The query (R251, R315) -/

/-- A vector of an adapter or head: codes and metadata words at an offset (R315). -/
def vecAt (o : Obj) (off dim : Nat) : List Byte × List W32 :=
  (o.data.rdBytes off (dim / 2), (List.range (dim / 32)).map (fun i => BitVec.ofNat 32 (o.field (off + dim / 2 + 4 * i) 4)))

/-- Zeros up to a multiple of 32 elements; they convert to pad elements (R30). -/
def padVec (z : List W32) : List W32 := z ++ List.replicate (padTo 32 z.length - z.length) 0

/-- The query adapter (R315). -/
def adapt (o : Obj) (q : List W32) : List W32 :=
  match adapterHeader o false with
  | none => q
  | some (r, dim) =>
    let (qc, qm) := queryCode q
    let row := 5 * dim / 8
    let rp := 32 * ceilDiv r 32
    let z := (List.range r).map (fun i => let a := vecAt o (64 + i * row) dim; dotQ4a a.1 a.2 qc qm dim)
    let (zc, zm) := queryCode (padVec z)
    q.zipIdx.map (fun (x, j) => let b := vecAt o (64 + r * row + j * (5 * rp / 8)) rp; rAdd x (dotQ4a b.1 b.2 zc zm rp))

/-- The output of a reranker head for a stored vector (R316). -/
def headOut (o : Obj) (q : List W32) (vcode : List Byte) (vmeta : List W32) : W32 :=
  match adapterHeader o true with
  | none => 0
  | some (r, dim) =>
    let (qc, qm) := queryCode q
    let row := 5 * dim / 8
    (List.range r).foldl (fun acc k =>
      let u := vecAt o (64 + k * row) dim
      let w := vecAt o (64 + (r + k) * row) dim
      rAdd acc (rMul (dotQ4a u.1 u.2 qc qm dim) (dotQ4a w.1 w.2 vcode vmeta dim))) (BitVec.ofNat 32 (o.field 12 4))

/-- The object that a job's parameter names, through its bindings; none for handle 0. -/
def State.jobObj (s : State) (j : Job) (h : W32) : Option Obj := if h = 0 then none else (j.named h).bind s.obj?

/-- The query that feeds the tables and the scores: adapted (R315), then normalised for COS (R251). -/
def State.queryOf (s : State) (j : Job) (p : SearchP) (d : IndexD) : List W32 :=
  let q := match s.jobObj j p.adapter with
    | some o => adapt o j.vec
    | none => j.vec
  if d.metric = 2 then normalise q else q

/-- The SEARCH parameters and the descriptor of an admitted search. -/
def State.searchOf (s : State) (n : Nat) : Option (Job × SearchP × IndexD) :=
  match s.job? n with
  | none => none
  | some j => match j.kind, j.phase, s.jobDesc n with
    | .search p, .admitted, some d => some (j, p, d)
    | _, _, _ => none

/-- QUERY_EMBEDDED (R26): the encoder's vector; not stamped when a vector was supplied. -/
def execQueryEmbedded (job : Nat) (tile : Fin 256) (vec : List W32) (s : State) : Out :=
  .next (match s.searchOf job with
  | none => s
  | some (j, p, d) =>
    if p.encoder = 0 ∨ j.stamped.contains 0x22 ∨ vec.length ≠ d.dim then s
    else s.orStall <| (s.updJob job (fun j => { j with vec := vec })).stampOnce j (s.srcTile tile.val) 0x22)

/-! ## Walks (R252, R254, R257) -/

/-- Whether a SEARCH walks at all (R244). -/
def SearchP.walks (p : SearchP) : Bool := p.beam != 0 && p.width != 0

/-- Where the walk of a shard begins (R254): position 0 of the top layer, or the lowest node of the shard's lowest slot. -/
def IndexD.entry (d : IndexD) (shard : Nat) : Option Nat :=
  if d.layers ≠ 0 then some 0
  else (d.slots.zipIdx.find? (fun (e, _) => e.handle != 0 && e.shard == shard)).map (fun (_, i) => 268435456 * i)

/-- QCAP (R257). -/
def queueCap (le : Nat) : Nat := padTo 64 (Nat.min 4096 (Nat.max 64 (2 * le)))
/-- The local beam (R257). -/
def localBeam (p : SearchP) (d : IndexD) : Nat := ceilDiv p.beam d.shards

/-- The walk of a shard at its start (R254, R257, R266); the start's own D is free (log entry 21). -/
def newWalk (p : SearchP) (d : IndexD) (tables : List Nat) (job shard : Nat) : Walk :=
  let le := localBeam p d
  let w : Walk := { shard := shard, tables := tables, labelMask := p.labelMask, penalty := p.penalty, le := le, qcap := queueCap le,
                    vcap := Nat.min 8192 (16 * queueCap le), pool := p.pool, width := p.width, rounds := p.rounds, started := true,
                    descent := d.layers != 0, layer := d.layers }
  match d.entry shard with
  | none => w
  | some node =>
    let c : QCand := ⟨node, Config.startDist job shard % 0xFFFF, false⟩
    if d.layers ≠ 0 then { w with queue := [c] } else (w.push c).1

/-- Starts `n` free contexts of an engine at word 16 for a job (R109, R257; log entry 23); which free ones is the engine's choice
(log entry 12). -/
def State.spawn (s : State) (e job : Nat) : Nat → State
  | 0 => s
  | n + 1 =>
    match (List.range 512).filter (fun k => (s.ctx e k).r.run == .idle) with
    | [] => s
    | f :: fs =>
      let (i, s) := s.draw
      let k := ((f :: fs)[Config.allot i % (f :: fs).length]?).getD f
      (s.setCtx e k { r := { run := .running, job := some job } }).spawn e job n

/-- TABLES_READY (R252): the tables reach the engines of the index's shards, whose walks start, and the scan tiles. On the chain
namespace the query's vector and parameters go out to every other member (R28, R283). -/
def execTablesReady (job : Nat) (tile : Fin 256) (s : State) : Out :=
  .next (match s.searchOf job with
  | none => s
  | some (j, p, d) =>
    if j.vec.isEmpty || j.stamped.contains 0x23 then s
    else s.orStall <|
      let tables := d.tables (s.queryOf j p d)
      let s := s.stampOnce j (s.srcTile tile.val) 0x23
      let fans := j.onChain && j.shareOf.isNone
      let others : Byte := if fans then s.membersHere &&& ~~~ bitOf s.ringPos.toNat else 0
      let s := s.updJob job (fun j => { j with fanned := others, missing := if fans then s.membersAway else 0, walked := if p.walks then none else some [] })
      let s := s.ask ((List.range 8).filter (fun m => others.getLsbD m)) (s.fanOutOf j p d.dim d.metric false)
      if !p.walks then s
      else d.clusters.zipIdx.foldl (fun s (e, i) =>
        ((s.setWalk e job (newWalk p d tables job i)).spawn e job p.width).stamp (srcEngine e) 0x24 j.detail) s)

/-- WALK_DONE (R253, R263, R280): every walk is quiet; they end together, each engine filters its list, a D of 0xFFFF is not reported, and
stamps. -/
def execWalkDone (job : Nat) (s : State) : Out :=
  .next (match s.searchOf job with
  | none => s
  | some (j, p, d) =>
    if !j.stamped.contains 0x23 || j.walked.isSome || !p.walks || !s.quiet job d.clusters then s
    else s.orStall <|
      let hides (key : W64) : Bool := (((s.jobIndex job).bind s.index?).map (fun x => x.hides key j.base j.length)).getD false
      let ws := d.clusters.filterMap (fun e => s.walk? e job)
      let cands := ws.flatMap (fun w => (w.results.filter (fun r => !hides r.key && decide (r.d < 0xFFFF))).map (fun r =>
        (⟨r.key, r.node, r.d, r.label, 0, s.ownPos.toNat, 0, r.vcode, r.vmeta⟩ : Cand)))
      let cut := ws.any (fun w => w.overflowed)
      let s := d.clusters.foldl (fun s e =>
        let ks := (s.poppers e job).map (fun x => (x.1, x.2.2))
        let s := ks.foldl (fun s (k, q) => (s.updRegs (ctxAgent e k) (fun r => r.wp q 0)).wake (ctxAgent e k)) s
        let x := s.engine e
        (s.setEngine e { x with walks := remove job x.walks }).stamp (srcEngine e) 0x26 j.detail) s
      s.updJob job (fun j => { j with walked := some cands, stamped := j.stamped ++ [0x26], flags := if cut then j.flags ||| flagPartial else j.flags }))

/-- Order of the merge: ascending D, then ascending KEY (R280). -/
def candLe (a b : Cand) : Bool := decide (a.d < b.d) || (a.d == b.d && decide (a.key.toNat ≤ b.key.toNat))
/-- Order of the result: ascending score, then ascending KEY (R171, R282). -/
def scoreLe (a b : Cand) : Bool := decide (fKey a.score < fKey b.score) || (fKey a.score == fKey b.score && decide (a.key.toNat ≤ b.key.toNat))
/-- Keeps the first entry of each key. -/
def firstKeys (seen : List W64) : List Cand → List Cand
  | [] => []
  | c :: cs => if seen.contains c.key then firstKeys seen cs else c :: firstKeys (c.key :: seen) cs

/-- MORAINE_DONE (R253, R273): the scan of the view's insert rows ends with the best POOL valid ones; a D of 0xFFFF is not reported. -/
def execMoraineDone (job : Nat) (tile : Fin 256) (s : State) : Out :=
  .next (match s.searchOf job, (s.jobIndex job).bind s.index? with
  | some (j, p, d), some x =>
    if !j.stamped.contains 0x23 || j.moraine.isSome then s
    else s.orStall <|
      let tables := d.tables (s.queryOf j p d)
      let bound := ((s.jobIndex job).map (fun h => h.toNat)).getD 0
      let rows := x.rows.filter (fun (n, r) => decide (j.base ≤ n) && decide (n < j.length) && !r.del)
      let raws := rows.map (fun (n, r) => (n, r, rawDist tables p.labelMask p.penalty (r.codesUnder bound) r.label))
      let cs := (raws.filter (fun (n, r, raw) => r.valid n j.base j.length && decide (coarse raw < 0xFFFF))).map (fun (_, r, raw) =>
        (⟨r.key, r.node, coarse raw, r.label, 1, s.ownPos.toNat, 0, r.vcode, r.vmeta⟩ : Cand))
      let s := s.count (some job) { sat := raws.countP (fun (_, _, raw) => decide (0xFFFF < raw)) }
      (s.updJob job (fun j => { j with moraine := some ((cs.mergeSort candLe).take p.pool) })).stampOnce j (s.srcTile tile.val) 0x25
  | _, _ => s)

/-! ## Stored prefill and reading (R304 to R314) -/

/-- Rounds up to a multiple of 64. -/
def pad64 (n : Nat) : Nat := padTo 64 n

/-- Bytes of the K and V blocks of a passage or query region of `t` tokens (R305). -/
def kvBytes (layers heads headdim t : Nat) : Nat := layers * heads * (pad64 (5 * headdim * t / 8) + 20 * headdim * ceilDiv t 32)

/-- Where the start keys of a PREFILL object lie (R305), and the bytes of one key section. -/
def spanKeys (o : Obj) : Nat × Nat :=
  let t := o.field 16 4
  (128 + pad64 (4 * t) + kvBytes (o.field 10 1) (o.field 11 1) (o.field 12 2) t, pad64 (5 * o.field 14 2 * t / 8))

/-- The scores of every token of a passage against a query vector (R311), from the key section at `off`. -/
def keyScores (o : Obj) (off : Nat) (q : List W32) : List W32 :=
  let t := o.field 16 4
  let dim := o.field 14 2
  let (qc, qm) := queryCode q
  (List.range t).map (fun i =>
    dotQ4a qc qm (o.data.rdBytes (off + i * (dim / 2)) (dim / 2))
      ((List.range (dim / 32)).map (fun k => BitVec.ofNat 32 (o.field (off + t * (dim / 2) + 4 * (i * (dim / 32) + k)) 4))) dim)

/-- A best span: passage, start, end, score. -/
abbrev Best := Option (Nat × Nat × Nat × W32)

/-- The best span of one passage, continuing from the best so far (R311): ties go to the lowest start, then the lowest end. -/
def bestSpan (maxspan k : Nat) (ls le : List W32) (b : Best) : Best :=
  (List.range ls.length).foldl (fun b i =>
    (List.range (Nat.min maxspan (ls.length - i))).foldl (fun b w =>
      let x := rAdd ((ls[i]?).getD 0) ((le[i + w]?).getD 0)
      match b with
      | none => if isNan x then none else some (k, i, i + w, x)
      | some (_, _, _, y) => if fLt y x then some (k, i, i + w, x) else b) b) b

/-- The span entry of a best span (R311, R312): `index` is PASSAGE, `o` the passage it lies in. -/
def spanEntry (minscore : W32) (index : Nat) (o : Option Obj) (b : Best) : SpanEnt :=
  match b, o with
  | some (_, i, e, x), some o =>
    if fLt x minscore then ⟨1, index, x, i, e, []⟩
    else ⟨0, index, x, i, e, (List.range (e + 1 - i)).map (fun k => BitVec.ofNat 32 (o.field (128 + 4 * (i + k)) 4))⟩
  | _, _ => ⟨1, index, 0, 0, 0, []⟩

/-- The spans of separate mode, key by key (R311, R312); `qs` holds QS and QE of the usable passages in order. -/
def State.separateSpans (s : State) (maxspan : Nat) (minscore : W32) : List (W32 × Nat) → List (List W32 × List W32) → List SpanEnt
  | [], _ => []
  | (h, 0) :: ps, q :: qs =>
    let o := s.obj? h
    let b : Best := match o with
      | some x => let (off, n) := spanKeys x
        bestSpan maxspan 0 (keyScores x off q.1) (keyScores x (off + n) q.2) none
      | none => none
    spanEntry minscore 0 o b :: s.separateSpans maxspan minscore ps qs
  | (_, st) :: ps, qs => ⟨st, 0, 0, 0, 0, []⟩ :: s.separateSpans maxspan minscore ps qs

/-- The spans of joined mode (R311, R312): the selected span, then one entry per key that is not usable. -/
def State.joinedSpans (s : State) (maxspan : Nat) (minscore : W32) (ps : List (W32 × Nat)) (q : List W32 × List W32) : List SpanEnt :=
  let b := ps.zipIdx.foldl (fun (b : Best) (x : (W32 × Nat) × Nat) => if x.1.2 ≠ 0 then b else match s.obj? x.1.1 with
    | some o => let (off, n) := spanKeys o
      bestSpan maxspan x.2 (keyScores o off q.1) (keyScores o (off + n) q.2) b
    | none => b) none
  let k := (b.map (fun x => x.1)).getD 0
  let o := ((ps[k]?).map (fun x => x.1)).bind s.obj?
  spanEntry minscore k o b :: (ps.zipIdx.filter (fun x => x.1.2 != 0)).map (fun x => ⟨x.1.2, x.2, 0, 0, 0, []⟩)

/-- Bytes of the query region of `qtok` tokens (R305, R310), in whole 64 KiB units (R314). -/
def queryRegion (r : Role) (qtok : Nat) : Nat := padTo 65536 (pad64 (4 * qtok) + kvBytes r.layers r.kvheads r.headdim qtok)

/-- The usable passages of a list, with their objects. -/
def State.usable (s : State) (ps : List (W32 × Nat)) : List (W32 × Obj) :=
  (ps.filter (fun p => p.2 == 0)).filterMap (fun p => (s.obj? p.1).map (fun o => (p.1, o)))

/-- The KV_CACHE of a job (R310): each usable passage at a multiple of 64 KiB, then the query region with the query's token IDs. Answers
whether there was room; what was evicted on the way stays evicted (R228). -/
def State.makeKv (s : State) (j : Job) (r : Role) (ps : List (W32 × Nat)) (tokens : List W32) : Bool × State :=
  let (data, at_) := (s.usable ps).foldl (fun (m, a) (_, o) => (Mem.wrBytes m a (s.content o), a + padTo 65536 o.size)) (([] : Mem), 0)
  let data := Mem.wrBytes data at_ (tokens.flatMap (fun t => leBytes 4 t.toNat))
  let size := at_ + queryRegion r tokens.length
  match State.roomD s.obj.dir.length s (unitsOf size) with
  | (false, s) => (false, s)
  | (true, s) =>
    let o : Obj := { typ := 0x0B, owner := j.client, size := size, state := 0, data := data, d := some ⟨false, s.time.now, [], []⟩, job := some j.num }
    match s.createObj o with
    | none => (false, s)
    | some (h, s) => (true, s.updJob j.num (fun j => { j with created := j.created ++ [h] }))

/-- Token positions (R309): separately each passage begins at 0 and the query follows it; joined the passages follow each other in key order,
and the query follows the last. -/
def placesOf (joined : Bool) (ts : List (W32 × Nat)) : List (W32 × Nat × Nat) :=
  let total := (ts.map Prod.snd).foldl (· + ·) 0
  if joined then
    (ts.foldl (fun (x : List (W32 × Nat × Nat) × Nat) (h, n) => (x.1 ++ [(h, x.2, total)], x.2 + n)) ([], 0)).1
  else ts.map (fun (h, n) => (h, 0, n))

/-- The role block of the reader that a job is bound to. -/
def State.readerRole (s : State) (j : Job) (h : W32) : Role :=
  (((j.named h).bind s.obj?).bind roleOf).getD ⟨true, 0, 0, 0, 0, 0⟩

/-- The passages of a list of keys, from the map at the job's admission (R307, R308). -/
def State.passagesFor (s : State) (j : Job) (reader : W32) (keys : List W64) : List (W32 × Nat) :=
  let r := (j.named reader).getD reader
  let s' : State := { s with idx := { s.idx with prefill := j.map } }
  keys.map (s'.passage r j.weights)

/-- The reading phase begins (R308 to R310, R313, R314): the states of the passages and their positions, the KV_CACHE, and the load of the
usable ones, which the job is bound to until they are loaded. A context over the limit, and one without room, ends the job. -/
def State.beginReading (s : State) (job : Nat) (reader : W32) (joined : Bool) (keys : List W64) (tokens : List W32) : State :=
  match s.job? job with
  | none => s
  | some j =>
    let ps := s.passagesFor j reader keys
    let us := s.usable ps
    let stop (s : State) (c : W16) : State := s.updJob job (fun j => { j with stop := j.stop.or (some c) })
    let s := s.updJob job (fun j => { j with
      passages := some ps, places := placesOf joined (us.map (fun (h, _) => (h, s.passageTokens h))), bound := j.bound ++ us.map Prod.fst })
    if !s.contextOk joined tokens.length ps then stop s stInvalidField
    else match s.makeKv j (s.readerRole j reader) ps tokens with
      | (true, s) => s
      | (false, s) => stop s stTierFull

/-! ## Merge and rerank (R280 to R283) -/

/-- What follows once the result order is final (R21, R22, R282): SHORT, then the lookup and load of the stored prefill when an answer depth
asks for it and records were found, else result writing. -/
def State.orderFinal (s : State) (job : Nat) (p : SearchP) : State :=
  match s.job? job with
  | none => s
  | some j =>
    let n := (j.ranked.getD []).length
    let s := s.updJob job (fun j => { j with flags := if n < p.k then j.flags ||| flagShort else j.flags })
    if p.depth = 0 ∨ n = 0 then s.beginWriting job
    else if j.stop.isSome then s
    else s.beginReading job p.reader false (((j.ranked.getD []).take p.depth).map (fun c => c.key)) p.tokens

/-- MERGE_DONE: of the drive (R280) once the walks and the scan are done, or of the chain (R283) once every member has answered
or is missing. A query's two MERGE_DONE are stamped in one tile island (R26): the tile of the first is the one that counts. -/
def execMergeDone (job : Nat) (tile : Fin 256) (s : State) : Out :=
  .next (match s.searchOf job with
  | none => s
  | some (j, p, _) =>
    match j.ranked, j.walked, j.moraine with
    | none, some ws, some ms =>
      if j.pool.isSome then s
      else s.orStall <| (s.updJob job (fun j => { j with
        pool := some ((firstKeys [] ((ws ++ ms).mergeSort candLe)).take p.pool), mergeTile := tile })).stampOnce j (s.srcTile tile.val) 0x27
    | some rs, _, _ =>
      if !j.onChain || j.shareOf.isSome || !j.unanswered.isEmpty || j.stamped.count 0x27 != 1 then s
      else s.orStall <|
        let all := rs ++ j.answers.flatMap Prod.snd
        let out := (firstKeys [] ((all.filter (fun c => !isNan c.score)).mergeSort scoreLe)).take p.k
        let members : W32 := BitVec.ofNat 32 (2 ^ s.ringPos.toNat + (j.answers.map (fun a => 2 ^ a.1)).foldl (· + ·) 0)
        let s := s.updJob job (fun j => { j with ranked := some out, flags := j.flags ||| members ||| (if j.missing != 0 then flagIncomplete else 0) })
        (s.stampOnce j (s.srcTile j.mergeTile.val) 0x27).orderFinal job p
    | _, _, _ => s)

/-- RERANK_DONE (R281, R282): exact scores over the pool, or the negated output of the head; a NaN score is not reported and
counts NANP. A share of another member's query ends here, with its first K entries returned (R283), unless it must stop at the next
saddle: then it returns none (R284). -/
def execRerankDone (job : Nat) (tile : Fin 256) (s : State) : Out :=
  .next (match s.searchOf job with
  | none => s
  | some (j, p, d) =>
    match j.pool, j.ranked with
    | some pool, none => s.orStall <|
      let q := s.queryOf j p d
      let scoreOf (c : Cand) : W32 := match s.jobObj j p.head with
        | some o => negF (headOut o q c.vcode c.vmeta)
        | none => d.score q c.vcode c.vmeta
      let scored := pool.map (fun c => { c with score := scoreOf c })
      let out := ((scored.filter (fun c => !isNan c.score)).mergeSort scoreLe).take p.k
      let s := s.count (some job) { nanp := scored.countP (fun c => isNan c.score) }
      let s := (s.updJob job (fun j => { j with ranked := some out })).stampOnce j (s.srcTile tile.val) 0x28
      match j.shareOf with
      | some (m, n) => if j.stop.isSome then s else ({ s with chain := { s.chain with sent := s.chain.sent ++ [(m, n, some (out.flatMap Cand.bytes))] } }).endJob job
      | none => if j.onChain then s else s.orderFinal job p
    | _, _ => s)

/-- A result record as a candidate (R404). -/
def candOf (x : W256) : Cand :=
  ⟨x.extractLsb' 0 64, (x.extractLsb' 96 40).toNat, (x.extractLsb' 160 16).toNat, x.extractLsb' 136 8, (x.extractLsb' 152 8).toNat,
    (x.extractLsb' 144 8).toNat, x.extractLsb' 64 32, [], []⟩

/-- CHAIN_MEMBER_ANSWER (R283): a member's entries arrive; one that disagrees in DIM or METRIC ends the query with INVALID_FIELD. -/
def execChainMemberAnswer (job : Nat) (member : Fin 8) (agrees : Bool) (entries : List W256) (s : State) : Out :=
  .next (match s.searchOf job with
  | none => s
  | some (j, p, _) =>
    if !j.unanswered.contains member.val then s
    else if agrees then s.updJob job (fun j => { j with answers := put member.val ((entries.map candOf).take p.k) j.answers })
    else s.updJob job (fun j => { j with disagree := true, stop := j.stop.or (some stInvalidField) }))

/-- CHAIN_MEMBER_TIMEOUT (R283): members that have not answered are missing. -/
def execChainMemberTimeout (job : Nat) (s : State) : Out :=
  .next (match s.searchOf job with
  | none => s
  | some (j, _, _) =>
    let m : Byte := BitVec.ofNat 8 ((j.unanswered.map (fun i => 2 ^ i)).foldl (· + ·) 0)
    s.updJob job (fun j => { j with missing := j.missing ||| m }))

/-- The share of another member's query. -/
def Job.shares (j : Job) (q : FanOutQuery) : Bool := j.shareOf == some (q.sender.val, q.query.toNat)

/-- FAN_OUT (R205, R210, R283): another member's query: its share waits for admission. A member whose index differs in DIM or METRIC, or
that has no such index, refuses it. A share has no CMD_FETCHED, at which a job takes its number (R27): the model gives it this drive's next
number, as a job of its own has (log entry 166, the model's choice). A query that is withdrawn stops its share at the next saddle (log
entry 165). -/
def execFanOut (q : FanOutQuery) (s : State) : Out :=
  .next (if q.cancel then
    let s := { s with host := { s.host with jobs := s.host.jobs.map (fun (j : Job) =>
      if j.shares q then { j with stop := j.stop.or (some stAborted), caught := true } else j) } }
    (s.host.jobs.filter (fun j => j.shares q && j.phase == .waiting)).foldl (fun s j => s.abortWaiting j) s
  else
    let refuse : State := { s with chain := { s.chain with sent := s.chain.sent ++ [(q.sender.val, q.query.toNat, none)] } }
    match s.indexAt q.index with
    | .error _ => refuse
    | .ok d =>
      if d.dim ≠ q.dim ∨ d.metric ≠ q.metric.toNat ∨ q.vec.length ≠ q.dim then refuse
      else
        let p : SearchP := { index := q.index, encoder := 0, adapter := q.adapter, head := q.head, reader := 0, k := q.k, pool := q.pool, beam := q.beam,
                             width := q.width, rounds := q.rounds, penalty := q.penalty.toNat, depth := 0, spantok := false, maxspan := 0,
                             minscore := 0, labelMask := q.labelMask, query := q.vec, tokens := [] }
        s.addJob { num := 0, client := q.client, ctrl := 0, sqid := 0, cid := 0, opcode := 0x90, outOff := 0, outLen := 0, kind := .search p,
                   onChain := true, shareOf := some (q.sender.val, q.query.toNat), silent := true })

/-! ## Reading (R308 to R314) -/

/-- PREFILL_LOADED (R22, R308, R310): every usable passage is in place in Tier D. From then on an object that enters case 3 no longer stops
the job; one that did so during the load has. -/
def execPrefillLoaded (job : Nat) (s : State) : Out :=
  .next (match s.job? job with
  | none => s
  | some j =>
    if j.phase != .admitted || j.passages.isNone || j.stamped.contains 0x29 || j.stop.isSome then s
    else s.orStall <|
      let hs := ((j.passages.getD []).filter (fun p => p.2 == 0)).map Prod.fst
      (s.updJob job (fun j => { j with kept := j.kept ++ hs, bound := j.bound.filter (fun h => !hs.contains h) })).stampOnce j j.core 0x29)

/-- The reader's QS and QE in the query region of the job's KV_CACHE (R311); where in it is free (log entry 167). -/
def State.writeQuery (s : State) (j : Job) (r : Role) (qtok : Nat) (spans : List (List W32 × List W32)) : State :=
  match j.created.find? (fun h => ((s.obj? h).map (fun o => o.typ)) == some 0x0B) with
  | none => s
  | some h =>
    let (n, s) := s.draw
    let region := queryRegion r qtok
    let ids := pad64 (4 * qtok)
    let at_ (o : Obj) : Nat := o.size - region + ids + Config.queryVecs n % (region - ids - 8 * r.dim + 1)
    s.updObj h (fun o => spans.foldl (fun o q => { o with data := o.data.wrBytes (at_ o) ((q.1 ++ q.2).flatMap (fun x => leBytes 4 x.toNat)) }) o)

/-- READ_DONE (R311 to R313): the reader has written QS and QE, of SPANDIM elements each, for each passage it read, or once for the joined
context, and every span is final. -/
def execReadDone (job : Nat) (tile : Fin 256) (spans : List (List W32 × List W32)) (s : State) : Out :=
  .next (match s.job? job with
  | none => s
  | some j =>
    let ps := j.passages.getD []
    let usable := (ps.filter (fun p => p.2 == 0)).length
    let fits (reader : W32) (n : Nat) : Bool :=
      let d := (s.readerRole j reader).dim
      spans.length == n && spans.all (fun q => q.1.length == d && q.2.length == d)
    if !j.stamped.contains 0x29 || j.stamped.contains 0x2A then s
    else match j.kind, j.phase with
    | .search p, .admitted =>
      if !fits p.reader usable then s
      else s.orStall <|
        let es := s.separateSpans p.maxspan p.minscore ps spans
        let rest := List.replicate ((j.ranked.getD []).length - es.length) (⟨5, 0, 0, 0, 0, []⟩ : SpanEnt)
        let s := s.writeQuery j (s.readerRole j p.reader) p.tokens.length spans
        ((s.updJob job (fun j => { j with spans := es ++ rest })).stampOnce j (s.srcTile tile.val) 0x2A).beginWriting job
    | .readAnswer reader joined _ tokens maxspan minscore _, .admitted =>
      if !fits reader (if joined then 1 else usable) then s
      else s.orStall <|
        let es := if joined then s.joinedSpans maxspan minscore ps ((spans[0]?).getD ([], [])) else s.separateSpans maxspan minscore ps spans
        let short := es.all (fun e => e.status != 0)
        let s := s.writeQuery j (s.readerRole j reader) tokens.length spans
        ((s.updJob job (fun j => { j with spans := es, flags := if short then j.flags ||| flagShort else j.flags })).stampOnce j (s.srcTile tile.val) 0x2A).beginWriting job
    | _, _ => s)

/-! ## EMBED (R298 to R306) -/

/-- The items that an EMBED takes from records (R298): at most 65,536, and where the range goes on when more match. -/
def State.recordItems (s : State) (r : RangeP) (unread : List Nat) : List ItemP × List Byte × Bool :=
  let bs := s.rangeBytes r unread
  let (rs, errs) := recordsOf r.layout bs
  let hits := rs.filter (fun x => recMatches r.layout r.terms x.bytes)
  let taken := hits.take 65536
  let more := decide (65536 < hits.length)
  let nextPos := if more then ((taken.getLast?).map (fun x => x.stop)).getD 0 else bs.length
  let seen := rs.filter (fun x => decide (x.stop ≤ nextPos))
  let item (x : Rec) : ItemP :=
    let u := match r.layout.fields[r.layout.textField]? with
      | some f => typeUnit f.typ
      | none => 1
    let text := if r.layout.textField = 0xFF then [] else (usedBytes r.layout x.bytes r.layout.textField).getD []
    { key := BitVec.ofNat 64 (recKey r.layout x.bytes), node := 0xFFFFFFFFFF,
      label := if r.layout.labelField = 0xFF then 0 else BitVec.ofNat 8 (((usedBytes r.layout x.bytes r.layout.labelField).map leNat).getD 0),
      form := 0, tokens := (List.range (text.length / u)).map (fun i => BitVec.ofNat 32 (fieldNat text (u * i) u)), vec := [] }
  let bad := s.unreadBlocks r unread nextPos
  let frames := (errs.filter (fun p => decide (p < nextPos))).length
  (taken.map item, summaryBytes nextPos taken.length seen.length bad frames 16, more || decide (bad ≠ 0) || decide (frames ≠ 0))

/-- Deals the encoder's vectors and the ingested bodies to the items that take one, in item order; none when they do not fit. -/
def dealItems (enc rd : ItemP → Bool) : List ItemP → List (List W32) → List (List Byte) → Option (List (ItemP × List W32 × Option (List Byte)))
  | [], [], [] => some []
  | [], _, _ => none
  | it :: its, vs, bs =>
    match (if enc it then (match vs with
        | v :: r => some (v, r)
        | [] => none) else some (it.vec, vs)),
      (if rd it then (match bs with
        | b :: r => some (some b, r)
        | [] => none) else some (none, bs)) with
    | some (v, vs), some (b, bs) => (dealItems enc rd its vs bs).map (fun r => (it, v, b) :: r)
    | _, _ => none

/-- The header and the token section of a PREFILL object (R304, R305). -/
def prefillHead (r : Role) (reader : W32) (bind key : W64) (tokens : List W32) : List Byte :=
  let ts := tokens.flatMap (fun t => leBytes 4 t.toNat)
  leBytes 4 0x46505A55 ++ [1, 0, 0, 0, 0, 0, BitVec.ofNat 8 r.layers, BitVec.ofNat 8 r.kvheads] ++ leBytes 2 r.headdim ++ leBytes 2 r.dim ++
    leBytes 4 tokens.length ++ leBytes 4 reader.toNat ++ leBytes 8 bind.toNat ++ leBytes 8 key.toNat ++ List.replicate 88 0 ++
    ts ++ List.replicate (pad64 ts.length - ts.length) 0

/-- A byte of a list; 0 beyond it. -/
def byteAt (bs : List Byte) (i : Nat) : Nat := ((bs[i]?).getD 0).toNat

/-- Whether a body past its token section keeps R305 for a passage of `t` tokens: the padding of every section is 0, and in the V blocks the
tokens that complete the last group are pad elements, codes at their group's zero point (R30). -/
def bodyOk (r : Role) (t : Nat) (body : List Byte) : Bool :=
  let k := 5 * r.headdim * t / 8
  let t32 := ceilDiv t 32
  let v := 20 * r.headdim * t32
  let keys := 5 * r.dim * t / 8
  let zero (off n : Nat) : Bool := (List.range n).all (fun i => byteAt body (off + i) == 0)
  let padOk (off : Nat) : Bool := (List.range r.headdim).all (fun d =>
    let zp := byteAt body (off + 16 * r.headdim * t32 + 4 * (d * t32 + (t32 - 1))) % 16
    (List.range (32 * t32 - t)).all (fun i =>
      let e := t % 32 + i
      t % 32 == 0 || byteAt body (off + 16 * (d * t32 + (t32 - 1)) + e / 2) / 16 ^ (e % 2) % 16 == zp))
  let block := pad64 k + v
  decide (body.length = r.layers * r.kvheads * block + 2 * pad64 keys) &&
  (List.range (r.layers * r.kvheads)).all (fun b => zero (b * block + k) (pad64 k - k) && padOk (b * block + pad64 k)) &&
  [0, 1].all (fun b => zero (r.layers * r.kvheads * block + b * pad64 keys + keys) (pad64 keys - keys))

/-- Ingests a passage (R306): a PREFILL object, sealed, held by the job. Answers its handle, none when there is no room. -/
def State.ingest (s : State) (j : Job) (r : Role) (reader : W32) (qlc : Bool) (copies : Nat) (it : ItemP) (body : List Byte) : Option W32 × State :=
  let tokens := it.tokens.take r.maxtok
  let bytes := prefillHead r reader j.weights it.key tokens ++ body
  let o : Obj := { typ := 9, owner := j.client, size := bytes.length, state := 0, qlc := qlc, copies := copies, job := some j.num }
  match s.createObj o with
  | none => (none, s)
  | some (h, s) => match s.sealInto h o bytes (storedOf 9 h bytes.length) with
    | (0, s) => (some h, (s.updJob j.num (fun j => { j with created := j.created ++ [h] })).stamp j.core 0x58 (h.setWidth 28))
    | (_, s) => (none, s.forget h)

/-- The changes of one item (R269, R301): for a delete its row, for an update a delete then the insert. -/
def itemChanges (d : IndexD) (op : Nat) (it : ItemP) (v : List W32) (prefill : W32) : List IndexChange :=
  let x := if d.metric = 2 then normalise v else v
  let (vc, vm) := queryCode x
  let del : IndexChange := ⟨true, it.key, it.node, 0, [], [], [], 0⟩
  let ins : IndexChange := ⟨false, it.key, 0, it.label, d.code x, vc, vm, prefill⟩
  if op = 1 then [del] else if op = 2 then [del, ins] else [ins]

/-- Whether the vector of an item stays finite (R303). -/
def vecOk (d : IndexD) (v : List W32) : Bool := allFinite v && (d.metric != 2 || allFinite (normalise v))

/-- Ingests the items' passages in order, up to the first that finds no room; those before it stay sealed until the job ends (R303, R306).
Answers the handles, 0 for an item without one; none when one found no room. -/
def State.ingestAll (s : State) (j : Job) (r : Role) (reader : W32) (qlc : Bool) (copies : Nat) :
    List (ItemP × List W32 × Option (List Byte)) → Option (List W32) × State
  | [] => (some [], s)
  | (_, _, none) :: xs =>
    let (hs, s) := s.ingestAll j r reader qlc copies xs
    (hs.map (fun hs => 0 :: hs), s)
  | (it, _, some b) :: xs => match s.ingest j r reader qlc copies it b with
    | (none, s) => (none, s)
    | (some h, s) =>
      let (hs, s) := s.ingestAll j r reader qlc copies xs
      (hs.map (fun hs => h :: hs), s)

/-- EMBED_DONE (R298 to R306): `vecs` are the encoder's vectors and `bodies` what the reader's prefill program built past the tokens,
each in item order. Tokens beyond the encoder's MAXTOK are dropped first. A vector that is not finite, with NANP and OVF counting the elements
that the encoder produced so, or a prefill without room, fails the job at the next saddle; else its changes wait for commit. -/
def execEmbedDone (job : Nat) (vecs : List (List W32)) (bodies : List (List Byte)) (s : State) : Out :=
  .next (match s.job? job, s.jobDesc job with
  | some j, some d => (match j.kind, j.phase with
    | .embed _ encoder reader op items range pmode pcopies, .admitted =>
      let (its, summary, part) := match range with
        | some r => s.recordItems r []
        | none => (items, [], false)
      let er := ((j.named encoder).bind s.obj?).bind roleOf
      let maxtok := (er.map (fun r => r.maxtok)).getD 0
      let cut (it : ItemP) : ItemP := if encoder = 0 then it else { it with tokens := it.tokens.take maxtok }
      let rr := s.readerRole j reader
      let takes (it : ItemP) : Bool := op != 1 && it.form == 0
      let reads (it : ItemP) : Bool := reader != 0 && op != 1 && !it.tokens.isEmpty
      match (if (range.map s.rangeWaits).getD false then none else dealItems takes reads (its.map cut) vecs bodies) with
      | none => s
      | some xs => s.orStall <|
        if op ≠ 1 ∧ xs.any (fun (_, v, _) => v.length != d.dim) then s
        else if xs.any (fun (it, _, b) => (b.map (fun b => !bodyOk rr (it.tokens.take rr.maxtok).length b)).getD false) then s
        else if op ≠ 1 ∧ !xs.all (fun (_, v, _) => vecOk d v) then
          let es := (xs.filter (fun (it, _, _) => takes it)).flatMap (fun (_, v, _) => v)
          let s := s.count (some job) { nanp := (es.filter isNan).length, ovf := (es.filter (fun x => !isNan x && x &&& 0x7F800000 == 0x7F800000)).length }
          s.updJob job (fun j => { j with stop := j.stop.or (some stInvalidField) })
        else match s.ingestAll j rr ((j.named reader).getD reader) pmode.not pcopies xs with
          | (none, s) => s.updJob job (fun j => { j with stop := j.stop.or (some stTierFull) })
          | (some hs, s) =>
            let chs := (List.zipWith (fun x h => itemChanges d op x.1 x.2.1 h) xs hs).flatten
            let flagsOf (it : ItemP) : Byte := BitVec.ofNat 8 ((if takes it && decide (maxtok < it.tokens.length) then 1 else 0) +
              (if reads it then 2 else 0) + (if reads it && decide (rr.maxtok < (cut it).tokens.length) then 4 else 0))
            (s.updJob job (fun j => { j with
              changes := chs, itemFlags := its.map (fun it => (it.key, flagsOf it)), summary := summary, phase := .workDone,
              flags := if part then j.flags ||| flagPartial else j.flags })).stampOnce j j.core 0x5B
    | _, _ => s)
  | _, _ => s)

end Sys2Proof.Machine
end

