-- ==== Sys2Proof/Machine/Steps.lean ====
section
/-! DEFINITION. Drive time, cols, steps and saddles (07 R177 to R207; 09 R269 to R279; 10 R302, R303; 15 R470). -/
namespace Sys2Proof.Machine

/-! ## Time (R177 to R181) -/

/-- One interval of an island (R180): its own drift, then a correction of at most half a nanosecond toward the root. Its time never
decreases: in the 1,024 ns of the interval it falls back by no more than that. -/
def Island.steer (i : Island) (drift : Int) : Island :=
  let k := i.skew + drift
  { i with skew := max (if 0 < k then k - 1 else if k < 0 then k + 1 else 0) (i.skew - 2048) }

/-- The islands of the drive (R15): tiles, routers, engines, controllers, channels, ports, control cores, management, root. -/
def islandIds : List Nat := (List.range 0x180).filter isIsland

/-- Stamps the cairns that waited for an island, as far as it can take them now (R180, R188). -/
def State.unstall (s : State) (src : BitVec 9) : State :=
  let mine := s.time.stalled.filter (fun c => c.source == src)
  let s := { s with time := { s.time with stalled := s.time.stalled.filter (fun c => c.source != src) } }
  mine.foldl (fun s c => s.stampAt src c.kind c.detail c.attach) s

/-- Whether drive time runs: not before S0, nor after a thermal shutdown. -/
def State.clockRuns (s : State) : Bool := s.boot.phase != .off && s.boot.phase != .shutDown

/-- Whether a scheduled saddle falls within the next 1,024 ns (R192). -/
def State.saddleDue (s : State) : Bool :=
  s.ready && !s.set.held && (match s.set.nextSaddle with
    | some t => decide (t.toNat < s.time.now.toNat + 1024)
    | none => false)

/-- The writing of the firmware slot ends (R454, R456, R463): FW_SLOT_WRITTEN, and the completion of the commit, or STATE 4; an image that another member
sent completes no command here. A recovery's writing can
fail (ERROR 6, free: log entry 104), which leaves the slot as it was and STATE at 5. -/
def State.finishSlot (s : State) : State :=
  match s.sec.slotWrite with
  | none => s
  | some w =>
    if s.time.now.toNat < w.ends.toNat ∨ s.boot.phase = .faulted ∨ s.mute = true then s
    else
      let u := { s with sec := { s.sec with slot := some (w.man, w.bytes), slotWrite := none, slotCut := false,
                                            slotHeader := some (s.slotDies, w.man.bytes, w.man.digest) } }
      match w.cmd with
      | some c => (u.stamp (srcControl 0) 0x7F (w.man.svn ++ (0 : BitVec 20))).fail c (1, 0x0B)
      | none =>
        if s.boot.phase ≠ .recovery then u.stamp (srcControl 0) 0x7F (w.man.svn ++ (0 : BitVec 20))
        else if Config.slotFails s.freeCtr then
          { s with freeCtr := s.freeCtr + 1, sec := { s.sec with slot := w.was, slotWrite := none }, rcv := { s.rcv with error := 6, state := 5 } }
        else
          ({ u with freeCtr := s.freeCtr + 1, rcv := { s.rcv with error := 0, state := 4 } }).stamp srcRoot 0x7F (w.man.svn ++ (0 : BitVec 20))

/-- Every 24 h of drive time a measurement of the hold-up bank begins (R479); HOLDUP ends it. -/
def State.measureBank (s : State) : State :=
  if s.time.now.toNat < s.pwr.measureAt.toNat then s
  else { s with pwr := { s.pwr with measuring := true, measureAt := s.pwr.measureAt + 86400000000000 } }

/-- TIME_SYNC (R180): 1,024 ns pass on the root; every island steers its copy, is locked within 2 ns of the root, and stamps TIME_LOCK when it
becomes so. A step of `drift` is in half nanoseconds; the time base root's own island holds the root's time itself. Before S0 there is no drive time. The time does not pass the instant of a scheduled
saddle, which falls first (R192), unless the saddle is held (R203). How far the root's rate is steered against another member's (R182) shows
in no interval, which is 1,024 ns of drive time by definition (log entry 162). A write of the firmware slot that has taken its time ends, and
every 24 h of drive time a measurement of the hold-up bank begins (R479). -/
def execTimeSync (drift : List (Nat × Int)) (s : State) : Out :=
  .next (if !s.clockRuns || s.saddleDue then s
  else
    let s := { s with time := { s.time with now := s.time.now + 1024 } }
    let s := islandIds.foldl (fun (s : State) k =>
      let old := getD {} s.time.islands k
      let i := old.steer (if k = 0x17F then 0 else ((drift.find? (fun d => d.1 == k)).map Prod.snd).getD 0)
      let lock := decide (i.skew.natAbs ≤ 4)
      let s := { s with time := { s.time with islands := put k { i with locked := lock } s.time.islands } }
      let src : BitVec 9 := BitVec.ofNat 9 k
      if lock && !old.locked then (s.stamp src 0x14 0).unstall src else s) s
    s.finishSlot.measureBank)

/-- EPOCH_MINUTE (R181): 60 s of drive time have passed since the epoch last advanced. -/
def execEpochMinute (s : State) : Out :=
  .next (if s.clockRuns && decide (s.time.minuteAt.toNat ≤ s.time.now.toNat) then
    ({ s with time := { s.time with epoch := s.time.epoch + 1, minuteAt := s.time.minuteAt + 60000000000 } }).ageBlocks s.time.epoch.toNat
  else s)

/-- EPOCH_SAVE (R181, R443). -/
def execEpochSave (s : State) : Out :=
  .next (if s.clockRuns && !s.mute then { s with time := { s.time with epochSaved := s.time.epoch } } else s)

/-- Clock period of an island in 168ths of a nanosecond (R177). -/
def colPeriod (island : Nat) : Nat :=
  if island < 0x110 then 112 else if island < 0x132 then 84 else if island = 0x132 then 105 else if island < 0x160 then 140
  else if island = 0x160 then 168 else if island < 0x170 then 96 else if island = 0x17E then 840 else 84

/-- Whether a transfer crosses a col: not within one island, nor between a traversal engine and its router group, which share a clock (R14). -/
def crossesCol (src dst : Nat) : Bool :=
  decide (src ≠ dst) && !(decide (0x110 ≤ src ∧ src < 0x130) && decide (0x110 ≤ dst ∧ dst < 0x130) && decide (src % 16 = dst % 16))

/-- COL_TRANSFER (R14, R177, R178): the source holds the transfer while the destination cannot accept it, and then until a cycle of the slower
clock has passed since the one before; it is delivered 2 to 3 destination cycles later, in order, never dropped. The hold and the phase are
free (log entry 39). A transfer that crosses no col takes none of this. -/
def execColTransfer (src dst : BitVec 9) (payload : W64) (s : State) : Out :=
  .next (
    let (n, s) := s.draw
    let key := 512 * src.toNat + dst.toNat
    let q := getD [] s.time.cols key
    let p := colPeriod dst.toNat
    let slow := Nat.max p (colPeriod src.toNat)
    let now := 168 * s.time.now.toNat
    let x := match q.getLast?, crossesCol src.toNat dst.toNat with
      | _, false => (now, now)
      | none, true =>
        let taken := now + p * Config.colHold n
        (taken, taken + 2 * p + Config.allot n % (p + 1))
      | some (_, t, d), true =>
        let taken := Nat.max now (t + slow) + p * Config.colHold n
        (taken, Nat.max (taken + 2 * p + Config.allot n % (p + 1)) (d + slow))
    { s with time := { s.time with cols := put key (q ++ [(payload, x)]) s.time.cols } })

/-! ## Agents and the step budget (R193, R240, R424) -/

/-- Whether a halted DMA channel holds a transfer: it halted under it, or it is queued behind (R239); or its tile's stream channel is halted (R424). -/
def State.xferHalted (s : State) (x : Xfer) : Bool :=
  let d := (s.core x.tile x.core).rd (BitVec.ofNat 5 x.dsc)
  x.halted.isSome || (s.tile x.tile).halted.isSome || s.onHalted x.tile x.src (dSrcOff d) (dLen d) || s.onHalted x.tile x.dst (dDstOff d) (dLen d)

/-- Whether a halt holds what a core waits for: a transfer of it by descriptor, or the shared array, 16 (R240, R424). -/
def State.holds (s : State) (t c d : Nat) : Bool :=
  if d = 16 then (s.tile t).halted.isSome
  else s.host.xfers.any (fun x => x.tile == t && x.core == c && x.dsc == d && !x.cut && s.xferHalted x)

/-- Whether a core waits on a transfer that a halted DMA channel or a halted tile holds (R240, R424). -/
def State.waitsHalted (s : State) (t c : Nat) (w : Wait) : Bool :=
  match w with
  | .stream d => s.holds t c d.toNat
  | .flag n _ => s.host.xfers.any (fun x => x.tile == t && s.xferHalted x &&
      (let d := (s.core x.tile x.core).rd (BitVec.ofNat 5 x.dsc)
       some x.job == (s.core t c).r.job && dFlagEn d && dFlag d == n))
  | _ => false

/-- Whether a core meets the conditions of R193: it waits at STEP.END or counts as waiting there, or has ended or failed. A core whose next instruction
a halt holds back counts too (R113, R115, R240), and every core of a tile that has failed (R470). -/
def State.coreMet (s : State) (t c : Nat) : Bool :=
  let k := s.core t c
  (s.tile t).halted == some none || (match k.r.run with
    | .running => (match k.awaits with
      | some (pc, ds) => pc == k.r.pc && ds.any (s.holds t c)
      | none => false)
    | .waiting .stepEnd _ => true
    | .waiting w _ => s.waitsHalted t c w
    | _ => true)

/-- Whether a traversal context meets them: also while it waits for Tier D or flash (R193), or in TRV.POP (R260). -/
def ctxMet (c : Ctx) : Bool :=
  match c.r.run with
  | .running => false
  | _ => true

/-- Every agent of every running job meets the conditions of R193. -/
def State.allMet (s : State) : Bool :=
  s.tiles.all (fun (t, x) => x.cores.all (fun (c, _) => s.coreMet t c)) && s.engines.all (fun (_, x) => x.ctxs.all (fun (_, c) => ctxMet c))

/-- The end of the step budget (R193, R129): every core, and every ready context, that meets none of the conditions takes STEP_OVERRUN. -/
def State.overrunAll (s : State) : State :=
  let ran := s.time.now.toNat - s.set.began.toNat
  let s := s.tiles.foldl (fun s (t, x) => x.cores.foldl (fun s (c, _) =>
    if s.coreMet t c then s else s.takeTrap (.core (Fin.ofNat 256 t) (Fin.ofNat 4 c)) 8 (BitVec.ofNat 64 (ran * 3 / 2)) false) s) s
  s.engines.foldl (fun s (e, x) => x.ctxs.foldl (fun s (k, c) =>
    if c.r.run == .running then s.takeTrap (ctxAgent e k) 8 (BitVec.ofNat 64 (ran * 2)) false else s) s) s

/-- Whether Rinsis submits a consolidation of an index at the next saddle (R276, R279). -/
def State.dueIndex (s : State) (key : Nat) (x : IndexSt) : Bool :=
  !s.consolidating key && (x.due || (!x.failed && decide ((s.liveOf 0x21).toNat ≤ x.length - x.base)))

/-- Whether a trigger of an event-driven saddle is pending (R194). -/
def State.triggered (s : State) : Bool :=
  s.host.jobs.any (fun j => j.phase == .waiting || j.stops || j.phase == .workDone) ||
  s.pendingCount != 0 || s.set.pendLedgerOn || s.tiles.any (fun (_, x) => x.spare.isSome) || s.idx.all.any (fun (k, x) => s.dueIndex k x) ||
  s.host.jobs.any s.consolidated

/-- Whether an event-driven step runs (R194): a job runs, or a trigger is pending. -/
def State.stepRuns (s : State) : Bool := s.host.jobs.any Job.running || s.triggered

/-- STEP_OVERRUN (R193, R194): the budget ends at the next scheduled instant, or STEP_LIMIT after an event-driven step began; with no job
running and no trigger pending there is no event-driven step. -/
def execStepOverrun (s : State) : Out :=
  .next (if !s.ready || s.set.overrun || (s.set.nextSaddle.isNone && !s.stepRuns) then s
  else
    s.orStall <|
    let s := s.reach (if s.period = 0 then s.set.began + s.liveOf 2 else s.set.nextSaddle.getD s.time.now)
    let s := s.overrunAll
    { s with set := { s.set with overrun := true } })

/-! ## What commits (R195 step 3, R198) -/

/-- The scalar, binding and quota settings commit. -/
def State.commitScalars (s : State) : State :=
  let set := { s.set with
    live := s.set.pend.foldl (fun m (k, v) => put k v m) s.set.live, pend := [],
    bindings := s.set.pendBindings.foldl (fun m (k, v) => putD 0 m k v) s.set.bindings, pendBindings := [],
    quotas := s.set.pendQuotas.foldl (fun m (k, v) => put k v m) s.set.quotas, pendQuotas := [] }
  let media := if (find 0x20 s.set.pend).isSome then { s.media with sinceMove := 0 } else s.media
  { s with set := set, media := media }

/-- The group table commits (R134): a freed ID is not allotted again while a running job holds it. -/
def State.commitGroups (s : State) : State :=
  let freed := (s.set.pendGroups.filter (fun (_, p) => p == .free)).map Prod.fst
  { s with set := { s.set with groups := s.stagedGroups, pendGroups := [], heldGroups := s.set.heldGroups.filter (fun k => !freed.contains k) ++ freed } }

/-- OBJECT_REPLACE entries commit (R201, R278). -/
def State.commitReplaces (s : State) : State :=
  let ps := s.set.pendReplaces
  let s := { s with set := { s.set with pendReplaces := [], replaces := ps.foldl (fun m (k, v) => put k v m) s.set.replaces } }
  ps.foldl (fun s (_, v) => s.swapIndex v) s

/-- An imported ledger becomes live (R339). -/
def State.commitLedger (s : State) : State :=
  if !s.set.pendLedgerOn then s
  else
    let n := (List.range 512).countP (fun i => s.set.pendLedger.getLsbD i)
    let s := { s with media := { s.media with ledger := s.media.ledgerNext }, set := { s.set with pendLedger := 0, pendLedgerOn := false } }
    s.stamp (srcControl 0) 0x62 (BitVec.ofNat 28 n)

/-- A selected power state commits (R418): an operational one is entered, a non-operational one waits for its entry. -/
def State.commitPower (s : State) : State :=
  match s.set.pendPower with
  | none => s
  | some p =>
    let pw := if p < 3 then { s.pwr with ps := p, lastOp := p, entering := none } else { s.pwr with entering := some p }
    { s with set := { s.set with pendPower := none }, pwr := pw }

/-- The chain-scope changes of the saddle flit join the staged copy (R202); a group create matches whatever index the master allotted. A
CONSOLIDATE_AT that another drive staged restarts failed consolidations (R279; log entry 175). -/
def State.takeFlit (s : State) : State :=
  match s.chain.flit with
  | none => s
  | some (_, cs) =>
    let create (c : StagedChange) : Bool := c.num == 0x100 && c.value == 0
    let known (c : StagedChange) : Bool := cs.any (fun d => d.num == c.num && (d.key == c.key || create c) && d.value == c.value && d.members == c.members)
    let own := s.chain.forwarded.filter known
    let s := { s with chain := { s.chain with flit := none, forwarded := s.chain.forwarded.filter (fun c => !known c) } }
    let s := if cs.any (fun c => c.num == 0x21) && s.master != s.chain.pos.toNat && !own.any (fun c => c.num == 0x21) then s.retryConsolidations else s
    cs.foldl State.applyChange s

/-- The number of changes that commit (R187 COMMIT), index changes apart; a free in place of a pending create commits nothing (R134). -/
def State.commitCount (s : State) : Nat :=
  s.set.pend.length + s.set.pendGroups.countP (fun (_, p) => p != .dead) + s.set.pendBindings.length + s.set.pendReplaces.length +
  s.set.pendQuotas.length + (if s.set.pendLedgerOn then 1 else 0) + (if s.set.pendPower.isSome then 1 else 0)

/-- Every staged change commits together. -/
def State.commitSettings (s : State) : State :=
  s.commitScalars.commitGroups.commitReplaces.commitLedger.commitPower

/-! ## Index changes (R269 to R272, R302, R303) -/

/-- All ones: a delete that names no node. -/
def noNode : Nat := 0xFFFFFFFFFF

/-- The KEY of the record of a node: in its sealed extent, or in the moraine row that it was assigned to. -/
def State.nodeKey (s : State) (d : IndexD) (x : IndexSt) (node : Nat) : Option W64 :=
  match d.slotOf node with
  | some e => (s.obj? e.handle).map (fun o => BitVec.ofNat 64 (o.field (2048 * (node % 268435456)) 8))
  | none => (x.rows.find? (fun (_, r) => !r.del && r.node == node)).map (fun (_, r) => r.key)

/-- Whether a delete is refused (R269). -/
def State.badDelete (s : State) (d : IndexD) (x : IndexSt) (c : IndexChange) : Bool :=
  c.del && c.node != noNode && (decide (x.counter ≤ c.node) || s.nodeKey d x c.node != some c.key)

/-- Distinct keys of the rows from BASE (R272). -/
def IndexSt.mainKeys (x : IndexSt) : List W64 := ((x.rows.filter (fun (n, _) => decide (x.base ≤ n))).map (fun (_, r) => r.key)).eraseDups

/-- What the commit of a job's changes comes to. -/
inductive CommitCheck where
  | fits | holds | refused (code : W16)
  deriving DecidableEq, Repr

/-- Checks a job's changes (R269, R271, R272). -/
def State.checkChanges (s : State) (d : IndexD) (x : IndexSt) (cs : List IndexChange) : CommitCheck :=
  if cs.any (s.badDelete d x) then .refused stInvalidField
  else if d.moraineLimit < ((cs.map (fun c => c.key)) ++ x.mainKeys).eraseDups.length then .refused stTierFull
  else if 1048576 < x.tlog.length + (cs.filter (fun c => c.del && c.node != noNode)).length then .holds
  else .fits

/-- Commits one change as the next row (R268, R269, R271). Answers the node it assigned or deleted. -/
def IndexSt.commitRow (x : IndexSt) (step : W64) (c : IndexChange) : Nat × IndexSt :=
  let n := x.length
  let node := if c.del then c.node else x.counter
  let prev := (x.rows.filter (fun (_, r) => r.key == c.key)).getLast?
  let rows := match prev with
    | some (m, r) => put m { r with sup := n } x.rows
    | none => x.rows
  let row : Row := ⟨step, 0, c.del, c.label, node, c.key, c.codes, c.vcode, c.vmeta, []⟩
  let tomb := c.del && c.node != noNode
  (node, { x with rows := put n row rows, length := n + 1, counter := if c.del then x.counter else x.counter + 1,
                  tombs := if tomb then (if x.tombs.contains node then x.tombs else node :: x.tombs) else x.tombs,
                  tlog := if tomb then x.tlog ++ [(node, n)] else x.tlog })

/-- A change of a job that is bound to another CODEBOOK than `d`, which now names the index: after a re-encode, which changed the centroids, an
insert takes its code under the new ones, like the rows committed before it (R321; log entry 175); else it keeps the code of R269. -/
def IndexChange.under (c : IndexChange) (d : IndexD) (recoded : Bool) : IndexChange :=
  if recoded && !c.del then { c with codes := d.code (decodeVector d.dim c.vcode c.vmeta) } else c

/-- Commits changes in order; answers the nodes. -/
def commitRows (step : W64) : List IndexChange → IndexSt → List Nat × IndexSt
  | [], x => ([], x)
  | c :: cs, x =>
    let (n, y) := x.commitRow step c
    let (ns, z) := commitRows step cs y
    (n :: ns, z)

/-- The prefill map after one change (R302). A change whose job has a reader but whose item was not ingested leaves it. -/
def State.commitPrefill (s : State) (reader : W32) (c : IndexChange) : State :=
  let gone (e : PrefillEnt) : Bool :=
    e.key == c.key && (if c.del then true else if c.prefill ≠ 0 then e.reader == reader else reader == 0)
  let drop := (s.idx.prefill.filter gone).map (fun e => e.handle)
  let keep := s.idx.prefill.filter (fun e => !gone e)
  let new := if c.del || c.prefill == 0 then keep else keep ++ [⟨reader, c.key, c.prefill⟩]
  let s := { s with idx := { s.idx with prefill := new } }
  drop.foldl (fun s h => s.dropObj h) s

/-- The node that each item of an EMBED reports (R303): the one assigned to its insert, or the one deleted. -/
def itemNodes (op : Nat) : List Nat → List Nat
  | a :: b :: ns => if op = 2 then b :: itemNodes op ns else a :: itemNodes op (b :: ns)
  | ns => ns

/-- The result entries of an EMBED (R303). -/
def embedEntries (op : Nat) (items : List (W64 × Byte)) (nodes : List Nat) : List Byte :=
  (List.zipWith (fun (k, f) n => leBytes 8 k.toNat ++ leBytes 5 n ++ [f, 0, 0]) items (itemNodes op nodes)).flatten

/-- Commits the index changes of one job whose work has ended (R207, R269, R302, R303). Answers whether it committed. -/
def State.commitJob (s : State) (j : Job) : Bool × State :=
  match s.jobIndex j.num, s.jobDesc j.num, j.kind with
  | some h, some d, .embed _ _ reader op _ _ _ _ =>
    match s.index? h with
    | none => (false, s)
    | some x =>
      match s.checkChanges d x j.changes with
      | .refused code => (false, s.stopJob j code)
      | .holds => (false, s.stamp (srcControl 0) 0x54 j.detail)
      | .fits =>
        let now := (s.indexD? (BitVec.ofNat 32 (s.indexKey h))).getD d
        let (nodes, y) := commitRows s.set.step (j.changes.map (fun c => c.under now (now.cent != d.cent))) x
        let s := (s.updIndex h (fun _ => y)).showTombs h
        let r := (j.named reader).getD reader
        let s := j.changes.foldl (fun s c => s.commitPrefill r c) s
        let mine := (j.changes.map (fun c => c.prefill)).filter (fun h => h != 0)
        let s := mine.foldl (fun s h => s.updObj h (fun o => { o with job := none })) s
        let s := s.updJob j.num (fun j => { j with created := j.created.filter (fun h => !mine.contains h), changes := [],
                                                   entries := embedEntries op j.itemFlags nodes, nEntries := j.itemFlags.length })
        (true, s)
  | _, _, _ => (false, s)

/-- The index changes of every job whose work has ended commit in the order of fetch (R302). Answers the jobs that committed. -/
def State.commitJobs (s : State) : List Nat × State :=
  ((s.host.jobs.filter (fun j => j.phase == .workDone)).map (fun j => j.num)).foldl (fun (ns, s) n =>
    match s.job? n with
    | none => (ns, s)
    | some j => match s.commitJob j with
      | (true, s) => (ns ++ [n], s)
      | (false, s) => (ns, s)) ([], s)

/-! ## Admission (R195 step 5, R205, R270, R276) -/

/-- The most that runs and is admitted (R205). -/
def maxRunning : Nat := 4096
def maxAdmitted : Nat := 1024

/-- Words of text that programs now running on a tile hold in its instruction store (R105). -/
def State.textInUse (s : State) (t : Nat) : SMap (List W64) :=
  (s.tile t).texts.filter (fun (h, _) => (s.tile t).cores.any (fun (_, c) => c.r.job.isSome && c.prog.toNat == h))

/-- Whether tile `t` can take a program (R104, R105, R468): its cores are free, its text fits, and the tile is in service. -/
def State.tileFits (s : State) (t : Nat) (cmask : BitVec 4) (h : W32) (words : Nat) : Bool :=
  let held := s.textInUse t
  let others := (held.filter (fun (k, _) => k != h.toNat)).map (fun (_, x) => x.length)
  (s.tile t).halted.isNone && !(s.tile t).lost &&
  (List.range 4).all (fun c => !cmask.getLsbD c || (s.core t c).r.job.isNone) &&
  decide (others.foldl (· + ·) 0 + words ≤ 8192)

/-- Walk memory that a walk takes (R257). -/
def walkBytes (le pool : Nat) : Nat := 8 * queueCap le + 5 * Nat.min 8192 (16 * queueCap le) + 16 * pool

/-- Whether an engine has room for a walk (R205, R257): a slot, W contexts and memory. -/
def State.engineFits (s : State) (e : Nat) (p : SearchP) (d : IndexD) : Bool :=
  let hs := s.walkHolders e
  decide (hs.length < 512) && decide (s.ctxsHeld e + p.width ≤ 512) &&
  decide ((hs.map (fun (_, q, x) => walkBytes (localBeam q x) q.pool)).foldl (· + ·) 0 + walkBytes (localBeam p d) p.pool ≤ 8388608)

/-- The handles that a job's parameters name, 0 left out. -/
def Job.handles (j : Job) : List W32 :=
  (match j.kind with
   | .search p => [p.index, p.encoder, p.adapter, p.head, p.reader]
   | .filter _ _ _ _ => []
   | .embed i e r _ _ _ _ _ => [i, e, r]
   | .readAnswer r _ _ _ _ _ _ => [r]
   | .program h _ _ _ bs => h :: bs
   | .consolidate i => [i]).filter (fun h => h != 0)

/-- The objects of an index that a job binds beside its CODEBOOK (R244, R245): extents, entry layers, TOMBSTONES and MORAINE. -/
def State.indexParts (s : State) (h : W32) : List W32 :=
  match s.indexD? h, s.index? h with
  | some d, some x => (d.slots.map (fun e => e.handle) ++ d.layerTab.map Prod.fst ++ [x.tombObj, x.moraineObj]).filter (fun h => h != 0)
  | _, _ => []

/-- The encoder that a job names; 0 for none. -/
def Job.encoder (j : Job) : W32 :=
  match j.kind with
  | .search p => p.encoder
  | .embed _ e _ _ _ _ _ _ => e
  | _ => 0

/-- The program that a job runs, or the reader that it names; 0 for none. -/
def Job.reader (j : Job) : W32 :=
  match j.kind with
  | .search p => p.reader
  | .embed _ _ r _ _ _ _ _ => r
  | .readAnswer r _ _ _ _ _ _ => r
  | .program h _ _ _ _ => h
  | _ => 0

/-- The index that a job names; 0 for none. -/
def Job.index (j : Job) : W32 :=
  match j.kind with
  | .search p => p.index
  | .embed i _ _ _ _ _ _ _ => i
  | .consolidate i => i
  | _ => 0

/-- The live WEIGHT_BINDING of the program that stands for a handle (R68, R69); its own two handles stand for themselves (log entry 191, the model's
choice). -/
def State.pairOf (s : State) (h : W32) : W64 := if h = 0 then 0 else getD 0 s.set.bindings (s.replaced h).toNat

/-- The weight sets and scale tables that a job keeps from its admission on (R18, R68, R301). -/
def State.boundPairs (s : State) (j : Job) : List W32 :=
  ([s.pairOf j.reader, s.pairOf j.encoder].flatMap (fun w => [lo32 w, hi32 w])).filter (fun h => h != 0)

/-- What a job binds at admission (R18, R69): every handle with the object that stands for it, or the refusal. -/
def State.bindings (s : State) (j : Job) : Except W16 (List (W32 × W32) × List W32) :=
  let named := j.handles.map (fun h => (h, if (s.extent? h).isSome then h else s.replaced h))
  match s.bindAll j.handles with
  | .error e => .error e
  | .ok _ =>
    let own := named.map Prod.snd
    let parts := own.flatMap s.indexParts
    match (parts.filterMap s.obj?).find? (fun o => o.case_ == 3) with
    | some _ => .error stObjectImpaired
    | none => .ok (named.filter (fun (a, b) => a != b), (own ++ parts ++ s.boundPairs j).eraseDups)

/-- Whether the pinned Tier S copy of an object that a reset lost can be loaded again (R223): its tiles work, no pinned copy stands in its rows, and a
copy that it is loaded from may still read. -/
def State.mayReload (s : State) (h : W32) (o : Obj) : Bool :=
  o.wantS.any (fun c => c.tiles.all (fun t => !(s.tile t).lost) &&
    s.obj.dir.all (fun (k, x) => k == h.toNat || !x.s.any (fun y => y.pinned) || !s.overRows k o.size c)) &&
  o.case_ != 3 && (s.sec.mbk || s.loads o)

/-- Whether a bound object still waits for the reload of the pinned Tier S copy that PS4 lost (R418). -/
def State.awaitsReload (s : State) (hs : List W32) : Bool :=
  hs.any (fun h => ((s.obj? h).map (fun o => o.ps4 && s.mayReload h o)).getD false)

/-- Reads what an admission itself takes from its bound objects: a CODEBOOK's records and a program's text (R18, R105). A Tier F copy that does not read
takes the object into R237; the outcome when no copy serves. -/
def State.loadBound (s : State) (j : Job) (bound : List W32) : W16 × State :=
  let text (h : W32) : Bool := match j.kind with
    | .program p _ _ _ _ => h == s.replaced p
    | _ => false
  bound.foldl (fun (e, s) h => match s.obj? h with
    | some o => if e = 0 ∧ (o.typ = 3 ∨ text h) then s.load h o else (e, s)
    | none => (e, s)) (stOk, s)

/-- Whether the entry layers, TOMBSTONES and MORAINE of an index have Tier D copies (R255). -/
def State.partsInD (s : State) (h : W32) : Bool :=
  match s.indexD? h, s.index? h with
  | some d, some x => ((d.layerTab.map Prod.fst ++ [x.tombObj, x.moraineObj]).filter (fun h => h != 0)).all (fun h =>
      ((s.obj? h).map (fun o => o.d.isSome)).getD false)
  | _, _ => true

/-- Whether a job fits now (R205, R255). -/
def State.jobFits (s : State) (j : Job) : Bool :=
  match j.kind with
  | .program h u m _ _ =>
    (match s.unit? u, s.obj? (s.replaced h) with
     | some x, some o => x.tiles.all (fun t => s.tileFits t m (s.replaced h) (textWords o).length)
     | _, _ => true)
  | .search p =>
    s.partsInD (s.replaced p.index) && (match s.indexD? (s.replaced p.index) with
     | some d => !p.walks || d.clusters.all (fun e => s.engineFits e p d)
     | none => true)
  | .embed i _ _ _ _ _ _ _ => s.partsInD (s.replaced i)
  | _ => true

/-- Ends a job that cannot be admitted (R18, R195): JOB_ABORTED, and its completion with the status. A consolidation waits for a restart (R279). -/
def State.endUnadmitted (s : State) (j : Job) (code : W16) : State :=
  let s := ((s.notConsolidated j).stampOnce j j.core 0x2D).updJob j.num (fun j => { j with phase := .stopped, status := code })
  match s.job? j.num with
  | some k => if k.silent then s.endSilent k else s
  | none => s

/-- Starts a program on a core (R105, R106, R109). -/
def startCore (n : Nat) (h : W32) (unit : W16) (args : List W64) : Core :=
  { r := { run := .running, job := some n, s := args.zipIdx.foldl (fun m (v, i) => putD 0 m (i + 1) v) [] }, prog := h, g := unit }

/-- Places a program on its tiles (R104, R105): the instruction store of each is loaded from the object, which leaves no word of it with an
error (R129). -/
def State.placeProgram (s : State) (n : Nat) (h : W32) (unit : W16) (text : List W64) (m : BitVec 4) (args : List W64) (tiles : List Nat) : State :=
  tiles.foldl (fun s t =>
    let held := s.textInUse t
    let s := s.setTile t { s.tile t with texts := put h.toNat text held }
    let s := { s with ecc := { s.ecc with bad := s.ecc.bad.filter (fun w => !(w.kind == 1 && w.unit == s.physOf t)) } }
    (List.range 4).foldl (fun s c => if m.getLsbD c then s.setCore t c (startCore n h unit args) else s) s) s

/-- The RESULT object of a RUN (R401). Answers whether it found room; what was evicted on the way stays evicted (R228). -/
def State.makeResult (s : State) (j : Job) : Bool × State :=
  if j.outLen ≤ 128 then (true, s)
  else
    let size := j.outLen - 128
    match State.roomD s.obj.dir.length s (unitsOf size) with
    | (false, s) => (false, s)
    | (true, s) =>
      match s.createObj { typ := 0x0D, owner := j.client, size := size, state := 0, d := some ⟨false, s.time.now, [], []⟩, job := some j.num } with
      | none => (false, s)
      | some (h, s) => (true, s.updJob j.num (fun j => { j with result := h }))

/-- A consolidation that is admitted takes its snapshot (R277, R321): CONSOLIDATE_BEGIN. -/
def State.snapshot (s : State) (j : Job) : State :=
  let h := s.consolidates j
  if h = 0 then s else s.stamp (srcControl 0) 0x52 (h.setWidth 28)

/-- Admits a job (R195 step 5): JOB_ADMITTED, then what it is bound to (R18, R69, R270, R302), whose copies are touched (R227). A READ-ANSWER
begins its reading, and stops at once when its context is over the limit (R314) or its KV_CACHE finds no room (R310); so does an
adaptation program whose launch breaks R317. -/
def State.admitJob (s : State) (j : Job) (renamed : List (W32 × W32)) (bound : List W32) : State :=
  let (cairn, s) := s.stampGet j.core 0x21 j.detail []
  let index := s.replaced (s.consolidates j |> fun h => if h = 0 then j.index else h)
  let view := if index = 0 then none else s.index? index
  let maps := match j.kind with
    | .search p => p.depth != 0
    | .readAnswer _ _ _ _ _ _ _ => true
    | _ => false
  let map := if maps then s.idx.prefill.filter (fun e => e.reader == s.replaced j.reader) else []
  let s := s.updJob j.num (fun j => { j with
    phase := .admitted, admittedCairn := cairn, admittedAt := s.time.now, stamped := j.stamped ++ [0x21], renamed := renamed, bound := bound,
    weights := s.pairOf j.reader, encWeights := s.pairOf j.encoder, map := map, kept := map.map (fun e => e.handle),
    base := (view.map (fun x => x.base)).getD 0, length := (view.map (fun x => x.length)).getD 0 })
  let s := bound.foldl State.touch s
  match j.kind, s.job? j.num with
  | .search p, some k => s.updJob j.num (fun _ => { k with vec := if p.encoder = 0 then p.query else [] })
  | .program h u m args _, some _ =>
    (match s.unit? u, s.obj? (s.replaced h) with
     | some x, some o =>
       let s := s.updJob j.num (fun j => { j with tiles := x.tiles, nmem := x.total, rankBase := s.tilesBefore x, others := x.others })
       let s := (s.updJob j.num (fun j => { j with recode := s.recodes h args, snapshot := j.length })).placeProgram j.num (s.replaced h) u
         (textWords o) m args x.tiles
       (match s.job? j.num with
        | some k => if s.launchBad k then s.stopJob k stInvalidField else s.snapshot k
        | none => s)
     | _, _ => s)
  | .readAnswer reader joined keys tokens _ _ _, some _ =>
    let s := s.beginReading j.num reader joined keys tokens
    (match s.job? j.num with
     | some k => (match k.stop with
       | some code => s.stopJob k code
       | none => s)
     | none => s)
  | .consolidate _, some k => (s.updJob j.num (fun j => { j with snapshot := k.length })).snapshot k
  | _, _ => s

/-- Where the admission of one saddle stands: jobs admitted, jobs passed so far, jobs passed by a later one, and whether a job that was
passed at 8 saddles blocks those behind it (R205). -/
structure Admission where
  count : Nat := 0
  skipped : List Nat := []
  passed : List Nat := []
  blocked : Bool := false
  deriving DecidableEq, Repr

/-- Offers one waiting job for admission. The room that its RESULT takes can cost a handle that it names its last copy (R228). -/
def State.tryAdmit (x : Admission × State) (n : Nat) : Admission × State :=
  let (a, s) := x
  match s.job? n with
  | none => x
  | some j =>
    let running := (s.host.jobs.filter (fun j => j.phase == .admitted || j.phase == .workDone || j.phase == .writing)).length
    if a.blocked ∨ maxAdmitted ≤ a.count ∨ maxRunning ≤ running then x
    else
      let unitOk := match j.kind with
        | .program _ u _ _ _ => (s.unit? u).isSome
        | _ => true
      if !unitOk then (a, s.endUnadmitted j stInvalidGroup)
      else match s.bindings j with
      | .error e => (a, s.endUnadmitted j e)
      | .ok (renamed, bound) =>
        if !s.jobFits j || s.awaitsReload bound then
          ({ a with skipped := a.skipped ++ [n], blocked := decide (8 ≤ j.passed) }, s)
        else match s.loadBound j bound with
        | (0, s) => (match s.makeResult j with
        | (false, s) => (a, s.endUnadmitted j stTierFull)
        | (true, s) => match s.job? n with
          | none => (a, s)
          | some j => match s.bindings j with
            | .error e => (a, s.endUnadmitted j e)
            | .ok _ => ({ a with count := a.count + 1, passed := (a.passed ++ a.skipped).eraseDups }, s.admitJob j renamed bound))
        | (e, s) => (a, s.endUnadmitted j e)

/-- Rinsis submits the consolidation jobs that are due (R276, R279), under the client that owns the CODEBOOK. What this saddle commits counts from
the next one on. -/
def State.submitConsolidations (s : State) : State :=
  (s.idx.all.filter (fun (k, x) => s.dueIndex k x)).foldl (fun s (k, _) =>
    match s.obj? (BitVec.ofNat 32 k) with
    | none => s
    | some o =>
      if o.dropped then s
      else
        let s := s.addJob { num := 0, client := o.owner, ctrl := 0, sqid := 0, cid := 0, opcode := 0, outOff := 0, outLen := 0,
                            kind := .consolidate (BitVec.ofNat 32 k), silent := true }
        s.updIndex (BitVec.ofNat 32 k) (fun x => { x with due := false, failed := false })) s

/-- Waiting jobs are admitted in the order of their fetch (R205). -/
def State.admitAll (s : State) : State :=
  let waiting := (s.host.jobs.filter (fun j => j.phase == .waiting)).map (fun j => j.num)
  let (a, s) := waiting.foldl State.tryAdmit ({}, s)
  { s with host := { s.host with jobs := s.host.jobs.map (fun (j : Job) =>
      if a.passed.contains j.num && j.phase == .waiting then { j with passed := j.passed + 1 } else j) } }

/-! ## The saddle (R192 to R196, R202, R203) -/

/-- What the failed cores of a job had issued completes before the job ends (R129): transfers whose data reads, and records but for those of a
call that waits for other members, whose work is done without a record (log entry 88). -/
def State.finishFailed (s : State) (j : Job) : State :=
  let failed (t c : Nat) : Bool := (s.core t c).r.job == some j.num && (s.core t c).r.run == .failed
  let xs := s.host.xfers.filter (fun x => failed x.tile x.core && !x.cut && x.halted.isNone && (s.tile x.tile).halted.isNone)
  let s := xs.foldl (fun s x =>
    let d := (s.core x.tile x.core).rd (BitVec.ofNat 5 x.dsc)
    match s.streamBytes x.tile x d with
    | some bs => s.streamLand x.tile x d bs
    | none => s) s
  let ops := s.host.recs.filter (fun r => failed r.tile r.core && r.outcome.isNone)
  ops.foldl (fun s op => match s.soloWork op with
    | some (_, _, s) => s
    | none => s) s

/-- Jobs that must stop stop (R195 step 2); a consolidation that stops waits for a restart (R279). One that has stopped, and whose queue is gone
since, ends without its completion and stamps nothing more (R26, R389). -/
def State.stopJobs (s : State) : State :=
  (s.host.jobs.filter Job.stops).foldl (fun s j =>
    if j.phase == .stopped then s.endSilent j else ((s.finishFailed j).notConsolidated j).stopJob j (j.stop.getD stAborted)) s

/-- A tile's state with the array registers (R102) of another tile. -/
def Tile.withRegs (x r : Tile) : Tile :=
  { x with form := r.form, spurOn := r.spurOn, reforms := r.reforms, acycFrom := r.acycFrom, amac := r.amac, abwait := r.abwait }

/-- An island is reset (R180, R186): it loads the root's time, is not locked yet, and its SEQ restarts. -/
def State.resetIslands (s : State) (ks : List Nat) : State :=
  { s with time := { s.time with islands := ks.foldl (fun m k => put k {} m) s.time.islands,
                                 stalled := s.time.stalled.filter (fun c => !ks.contains c.source.toNat) } }

/-- Physical tile `p` takes a logical index (R101, R470): the index's registers are from then on those of `p`; the tile that held it keeps its own, and the array instructions start again on `p`. -/
def State.takeIndex (s : State) (t p : Nat) : State :=
  let old := s.physOf t
  let x := s.tile t
  let again (e : QEntry) : QEntry := if e.given then e else { e with started := false, outs := [], inv := 0 }
  let s := s.setTile t { x.withRegs (getD {} s.boot.idle p) with phys := some p, spare := none, dead := false, halted := none, haltBy := none, lost := false,
                                                                 queue := x.queue.map again }
  { s with boot := { s.boot with idle := put old (({} : Tile).withRegs x) (remove p s.boot.idle) } }

/-- A group is ready after its reset (R467, R468): GRPRSTAT counts it, and GROUP_RESET is stamped. -/
def State.countReset (s : State) (gid : W16) : State :=
  ({ s with reg := { s.reg with resets := satInc s.reg.resets } }).stamp (srcControl 0) 0x7B (gid ++ (0 : BitVec 12))

/-- Spares that hold the copy of a failed tile take its index (R470): the logical tile map, TILE_REPLACED, and the halted work runs on. The failed tile is
reset as a group, unless it was already, for it did not answer. -/
def State.takeSpares (s : State) : State :=
  s.tiles.foldl (fun s (t, x) =>
    match x.spare with
    | none => s
    | some p =>
      let old := s.physOf t
      let s := s.takeIndex t p
      let s := ({ s with boot := { s.boot with idle := put old { acycFrom := s.time.now } s.boot.idle } }).resetIslands [old]
      let s := if x.dead then s else s.countReset (BitVec.ofNat 16 t)
      let (cairn, s) := s.stampGet (srcControl 0) 0x79
        (BitVec.ofNat 8 t ++ BitVec.ofNat 9 old ++ BitVec.ofNat 9 p ++ (2 : BitVec 2)) []
      let s := { s with boot := { s.boot with replacements := s.boot.replacements ++ [cairn], failedTiles := (old :: s.boot.failedTiles).eraseDups } }
      { s with ecc := { s.ecc with bad := s.ecc.bad.filter (fun w => !(w.kind ≤ 1 && w.unit == old)) } }) s

/-- Agents waiting at STEP.END are released (R195 step 6). -/
def State.release (s : State) : State :=
  let s := s.tiles.foldl (fun s (t, x) => x.cores.foldl (fun s (c, k) => match k.r.run with
    | .waiting .stepEnd _ => s.wake (.core (Fin.ofNat 256 t) (Fin.ofNat 4 c))
    | _ => s) s) s
  s.engines.foldl (fun s (e, x) => x.ctxs.foldl (fun s (k, c) => match c.r.run with
    | .waiting .stepEnd _ => s.wake (ctxAgent e k)
    | _ => s) s) s

/-- From a saddle on, no control core's island stamps a cairn of an earlier time (R186, R192). -/
def State.stampFloor (s : State) (t : W64) : State :=
  { s with time := { s.time with islands := (List.range 8).foldl (fun m c =>
      let i := getD {} m (srcControl c).toNat
      put (srcControl c).toNat { i with last := if i.last.toNat < t.toNat then t else i.last } m) s.time.islands } }

/-- The saddle of the instant `tn` (R192, R195, R196): its scheduled instant, or now in an event-driven step. A saddle that was held falls
now (R203), and one whose instant passed while another was held falls as soon as it can; the cairn of either carries the time at which it falls
(log entry 163); every other SADDLE carries `tn`. No later cairn of the processing in a control
core's island carries less; which instant within the processing each of them falls at is the model's choice (log entry 199). -/
def State.saddle (s : State) (tn : W64) (dur : BitVec 24) : State :=
  let late := decide (tn.toNat < s.set.earliest.toNat)
  let at_ := if s.set.held then s.time.now else if late then s.set.earliest else tn
  let n := match s.chain.flit with
    | some (k, _) => if s.master = s.chain.pos.toNat then s.set.step + 1 else k
    | none => s.set.step + 1
  let s := s.stampFloor at_
  let s := { s with set := { s.set with step := n, held := false, overrun := false, nextSaddle := none } }
  let s := s.stampOf (s.island (srcControl 0)).last (srcControl 0) 0x10 (n.setWidth 28) []
  let s := s.stopJobs
  let s := s.stageJoin.takeFlit.consolidateAll.submitConsolidations
  let count := s.commitCount
  let s := s.commitSettings
  let (done, s) := s.commitJobs
  let s := s.stamp (srcControl 0) 0x11 (BitVec.ofNat 28 (Nat.min 0xFFFFFFF (count + done.length)))
  let s := done.foldl (fun s n => s.beginWriting n) s
  let s := s.takeSpares.finishJoin.chainSaddle
  let s := if s.boot.again.isSome then s else s.admitAll
  let began := at_ + dur.setWidth 64
  let p := s.liveOf 1
  let s := s.reach began
  let s := s.release
  { s with set := { s.set with
      lastDur := dur, began := began, earliest := began, event := p == 0, nextSaddle := if p = 0 then none else some (tn + p) } }

/-- A member whose saddle flit is missing holds the saddle (R203). -/
def State.holdSaddle (s : State) : State :=
  let s := { s with set := { s.set with held := true } }
  s.stamp (srcControl 0) 0x19 ((s.set.step + 1).setWidth 28)

/-- Whether a saddle needs a flit: CHAIN_SYNC is live and another drive is the timing master (R202). -/
def State.needsFlit (s : State) : Bool := s.chainSync && s.master != s.chain.pos.toNat

/-- A held saddle is performed at once (R203): its scheduled instant still sets the next one; how long its processing takes is free (log
entry 38). -/
def State.performHeld (s : State) : State :=
  let (k, s) := s.draw
  s.saddle (s.set.nextSaddle.getD s.time.now) (Config.heldDur k)

/-- SADDLE (R192, R194, R195): at its scheduled instant, or in an event-driven step when a trigger is pending and every agent waits, or when
the budget has ended. `dur` is how long its processing takes. A held saddle waits for its flit (R203); one whose flit found the control core
stalled (R180) is performed. -/
def execSaddle (dur : BitVec 24) (s : State) : Out :=
  .next (if !s.ready || !s.canStamp (srcControl 0) then s
  else if s.set.held then (if s.chain.flit.isSome then s.orStall s.performHeld else s)
  else s.orStall (match s.set.nextSaddle with
    | some t =>
      let s := s.reach t
      let s := if s.set.overrun then s else s.overrunAll
      if s.needsFlit && s.chain.flit.isNone && s.chain.joining.isNone then s.holdSaddle else s.saddle t dur
    | none => if (s.set.overrun && s.stepRuns) || (s.triggered && s.allMet) then s.saddle s.time.now dur else s))

/-- The instant at which a member that holds a saddle leaves the chain (R203). -/
def State.heldUntil (s : State) : W64 := s.set.nextSaddle.getD s.time.now + 1000000

/-- SADDLE_FLIT_SEND (R202): 10 µs before the chain saddle, the master sends what it has accepted. -/
def execSaddleFlitSend (s : State) : Out :=
  .next (if !s.ready || !s.chainSync || s.master != s.chain.pos.toNat || s.chain.flit.isSome then s
  else
    let s := s.reach ((s.set.nextSaddle.getD s.time.now) - 10000)
    { s with chain := { s.chain with flit := some (s.set.step + 1, s.chain.accepted), accepted := [] } })

/-- SADDLE_FLIT_ARRIVAL (R202, R203): the flit of the saddle that a member joins at carries the master's chain-scope settings (R461). A held
saddle is performed at once, or as soon as its control core can stamp (R180); a flit later than 1 ms comes too late for it. -/
def execSaddleFlitArrival (step : W64) (changes : List StagedChange) (s : State) : Out :=
  .next (if !s.ready || !(s.needsFlit || (s.chain.joining.isSome && s.master != s.chain.pos.toNat)) then s
  else
    let u := { s with chain := { s.chain with flit := some (step, changes) } }
    if !s.set.held then u
    else if s.heldUntil.toNat < s.time.now.toNat then s
    else u.orStall u.performHeld)

/-- CHAIN_LEFT (R203): no flit within 1 ms of a held saddle. The saddle held falls next, for this drive alone. -/
def execChainLeft (s : State) : Out :=
  .next (if !s.set.held || s.chain.flit.isSome then s
  else
    let u := s.reach s.heldUntil
    let v := u.alone
    s.orStall ({ v with set := { v.set with earliest := v.time.now } }.stamp (srcControl 0) 0x1A (u.chain.pos.setWidth 28)))

/-- Sends a member the outcome and the value of a change that it forwarded. -/
def State.answer (s : State) (member : Nat) (code : W16) (v : W64) : State :=
  { s with chain := { s.chain with answered := s.chain.answered ++ [(member, code, v)] } }

/-- FORWARDED_CHANGE (R202): the master takes a change staged at another member, in order, after the checks of R199, and answers that member:
its staging completes with the outcome and the value. -/
def execForwardedChange (member : Fin 8) (change : StagedChange) (s : State) : Out :=
  .next (if !s.ready || !s.chainSync || s.master != s.chain.pos.toNat || !s.chain.present.getLsbD member.val || member.val == s.chain.pos.toNat then s
  else if !s.toMaster change.num.toNat change.key change.members then s
  else match s.stageChange change.num.toNat (if change.num = 0x100 ∧ change.value = 0 then 0 else change.key) change.value change.members with
    | .ok (v, s) => (if change.num = 0x21 then s.retryConsolidations else s).answer member.val stOk v
    | .error e => s.answer member.val e 0)

end Sys2Proof.Machine
end

