-- ==== Sys2Proof/Machine/Admin.lean ====
section
/-! DEFINITION. Settings, ledger, objects, extents, programs and memory as the host commands them (08 R218 to R222, R235;
11 R339; 13 R385, R393, R394, R411 to R415). -/
namespace Sys2Proof.Machine

/-- DOORBELL (R385): the tail of a submission queue or the head of a completion queue; any other offset is no doorbell. -/
def execDoorbell (ctrl : Fin 33) (offset : W16) (value : W32) (s : State) : Out :=
  .next (
    let limit := if ctrl = 0 then 0x4000 else 0x2000
    let o := offset.toNat
    if o < 0x1000 ∨ limit ≤ o ∨ o % 4 ≠ 0 then s
    else
      let q := (o - 0x1000) / 8
      let v : W32 := (value.setWidth 16).setWidth 32
      let k := s.ctrl ctrl
      if q = 0 then s.setCtrl ctrl (if o % 8 = 0 then { k with adminTail := v } else { k with adminHead := v })
      else if o % 8 = 0 then
        match find q k.sqs with
        | some x => s.setCtrl ctrl { k with sqs := put q { x with tail := v } k.sqs }
        | none => s
      else match find q k.cqs with
        | some x => s.setCtrl ctrl { k with cqs := put q { x with head := v } k.cqs }
        | none => s)

/-! ## Settings (R412) -/

/-- A 64-bit value in two dwords, the lower first. -/
def pair64 (lo hi : W32) : W64 := hi ++ lo

/-- Whether the reserved bits of a setting's KEY are 0 (R412). -/
def keyFits (num : Nat) (key : W64) : Bool :=
  if num = 0x100 then decide (key.toNat < 65536)
  else if num = 0x103 then decide (key.toNat / 256 < 3) && decide (key.toNat % 256 < 64)
  else decide (key.toNat < 4294967296)

/-- STAGE SETTINGS (R198 to R202, R412), writing or reading by its READ bit; a write of CONSOLIDATE_AT restarts failed consolidations (R279). -/
def State.settings (s : State) (c : HostCmd) : State :=
  let num := c.cdw10.toNat % 65536
  let value := pair64 c.cdw11 c.cdw12
  let key := pair64 c.cdw13 c.cdw14
  let listed := settingExists num
  if 2 ^ 18 ≤ c.cdw10.toNat ∨ c.cdw15 ≠ 0 ∨ !listed ∨ (0x100 ≤ num ∧ !keyFits num key) then s.fail c nvInvalidField
  else if c.cdw10.getLsbD 16 then
    if num < 0x100 ∧ key ≠ 0 then s.fail c nvInvalidField
    else
      let v := s.readSetting num key (c.cdw10.getLsbD 17)
      s.complete c (lo32 v) (hi32 v) nvOk
  else
    let create := num == 0x100 && value == 0
    match (if create then memberList (memOf c.data) 0 else some []) with
    | none => s.fail c nvInvalidField
    | some ms => match s.stageChange num key value ms with
      | .error e => s.failSt c e
      | .ok (v, s) => (if num = 0x21 then s.retryConsolidations else s).ok c (lo32 v)

/-- STAGE_SETTINGS (R412): a write. -/
def execStageSettings (c : HostCmd) (s : State) : Out := .next (s.admin c (fun s => s.settings c))
/-- STAGE_SETTINGS_READ (R412): the command with its READ bit. -/
def execStageSettingsRead (c : HostCmd) (s : State) : Out :=
  .next (s.admin c (fun s => if c.cdw10.getLsbD 16 then s.settings c else s.fail c nvInvalidField))

/-- Whether an entry that froze a queue is unread (R409, R411): one whose write's queue it is, recorded since that was created, or one recorded before CSTS.RDY that stood in the
log when the queue was created. -/
def State.heldFrozen (s : State) (ctrl : Fin 33) (q : W16) (x : Sq) : Bool :=
  let first := s.host.defWritten.toNat - s.host.deferred.length
  s.host.deferred.zipIdx.any (fun (e, i) =>
    !e.read && ((e.early && decide (first + i < x.born)) || (e.report == 2 && e.ctrl == ctrl && e.sqid == q && decide (x.born ≤ first + i))))

/-- QUEUE_RESUME (R411): a queue stays frozen while an entry that froze it is unread. -/
def execQueueResume (c : HostCmd) (s : State) : Out :=
  .next (s.admin c (fun s =>
    let ci := c.cdw11.toNat
    if 65536 ≤ c.cdw10.toNat ∨ 33 ≤ ci ∨ !c.restZero then s.fail c nvInvalidField
    else
      let ctrl := Fin.ofNat 33 ci
      let q : W16 := c.cdw10.setWidth 16
      match s.sq? ctrl q with
      | none => s.ok c 0
      | some x =>
        if !x.frozen then s.ok c 0
        else if s.heldFrozen ctrl q x then s.failSt c stQueueFrozen
        else (s.updSq ctrl q (fun x => { x with frozen := false })).ok c 1))

/-! ## The ledger (R339, R412) -/

/-- LEDGER_EXPORT (R339, R340, R492): the ledger as flash holds it. An import that has completed shows although its values go live at the next
saddle: no command gives a replaced value back. -/
def execLedgerExport (c : HostCmd) (s : State) : Out :=
  .next (s.admin c (fun s => if c.cdw10 ≠ 0 ∨ c.cdw11 ≠ 0 ∨ !c.restZero then s.fail c nvInvalidField else s.reply c (s.media.ledgerNext.rdBytes 0 8192) 0))

/-- LEDGER_IMPORT (R339): entries of 16 bytes whose mask bit is 1 replace those on flash; the result goes live at the next saddle. -/
def execLedgerImport (c : HostCmd) (s : State) : Out :=
  .next (s.admin c (fun s =>
    if c.cdw10 ≠ 1 ∨ c.cdw11 ≠ 0 ∨ !c.restZero then s.fail c nvInvalidField
    else
      let mask : BitVec 512 := BitVec.ofNat 512 (c.nat 8192 64)
      if mask = 0 then s.ok c 0
      else
        let next := (List.range 512).foldl (fun m i => if mask.getLsbD i then Mem.wrBytes m (16 * i) (c.bytes (16 * i) 16) else m) s.media.ledgerNext
        ({ s with media := { s.media with ledgerNext := next },
                  set := { s.set with pendLedger := s.set.pendLedger ||| mask, pendLedgerOn := true } }).ok c 0))

/-! ## Objects (R218 to R222, R235, R394, R412 to R414) -/

/-- The name bytes up to the padding; none when a byte follows a zero (R216). -/
def nameOf (bs : List Byte) : Option (List Byte) :=
  let n := bs.takeWhile (fun b => b != 0)
  if (bs.drop n.length).all (fun b => b == 0) then some n else none

/-- The sizes of the TOMBSTONES and MORAINE objects of an index (R245, R267, R271). -/
def IndexD.partSizes (d : IndexD) : Nat × Nat :=
  (Nat.max 1 ((d.slots.map (fun e => ceilDiv e.records 8)).foldl (· + ·) 0), d.moraineRows * (d.m / 2 + 32 + d.v) + 32 * d.moraineLimit)

/-- Makes room in Tier D for the TOMBSTONES and MORAINE objects of an index, pinned there for the CODEBOOK's owner (R224, R225, R228): the outcome,
and the state with what was evicted on the way. -/
def State.roomForIndex (s : State) (o : Obj) (d : IndexD) : W16 × State :=
  let (tomb, mor) := d.partSizes
  let need := unitsOf tomb + unitsOf mor
  if !s.withinQuota { o with typ := 6 } 1 (65536 * need) then (stQuotaExceeded, s)
  else match State.roomD s.obj.dir.length s need with
    | (true, s) => (stOk, s)
    | (false, s) => (stTierFull, s)

/-- A CODEBOOK is sealed: Rinsis creates its TOMBSTONES and MORAINE objects, pinned in Tier D, and the index begins (R245, R267, R271); none when
the directory is full. -/
def State.beginIndex (s : State) (h : W32) (o : Obj) (d : IndexD) : Option State :=
  let (tomb, mor) := d.partSizes
  let part (typ size : Nat) : Obj := { typ := typ, owner := o.owner, size := size, state := 0, d := some ⟨true, s.time.now, [], []⟩ }
  match s.createObj (part 6 tomb) with
  | none => none
  | some (t, s) => (s.createObj (part 7 mor)).map (fun (m, s) =>
    { s with idx := { s.idx with all := put h.toNat { tombObj := t, moraineObj := m, counter := d.nextId } s.idx.all } })

/-- Seals content for the host under handle `h` (R217, R235): a CODEBOOK is checked first (R248), and begins its index. -/
def State.hostSeal (s : State) (c : HostCmd) (h : W32) (o : Obj) (content : List Byte) (stored : Nat) : State :=
  let cb : Obj := { o with size := content.length, data := memOf content, state := 0 }
  let d := readDescriptor cb
  if o.typ = 3 ∧ !s.codebookOk cb then s.failSt c stInvalidField
  else match (if o.typ = 3 then s.roomForIndex o d else (stOk, s)) with
    | (0, s) => (match s.obj? h with
      | none => s.failSt c stObjectUnknown
      | some now => match s.sealInto h { o with s := now.s, d := now.d } content stored with
      | (0, s') =>
        if o.typ = 3 then
          (match s'.beginIndex h o d with
           | some s'' => s''.ok c h
           | none => s.failSt c stTierFull)
        else s'.ok c h
      | (e, s) => s.failSt c e)
    | (e, s) => s.failSt c e

/-- What an OBJECT SEAL would seal: content, stored bytes when the image gives them, codec block shift, whether direct. -/
def State.sealSource (s : State) (c : HostCmd) (source : Nat) : Except W16 (List Byte × Option (Nat × Nat × Bool) × Option W32) :=
  let len := c.nat 40 8
  if source = 2 then
    if len ≠ 0 then .error stInvalidField
    else
      let r := c.w32 36
      match s.live? r with
      | none => .error stObjectUnknown
      | some o => if o.state ≠ 0 then .error stObjectSealed else if !s.loads o then .error stObjectImpaired else .ok (s.content o, none, some r)
  else if len = 0 ∨ 2 ^ 30 < len then .error stInvalidField
  else if source = 0 then
    match parseImage (c.bytes 64 len) with
    | none => .error stInvalidField
    | some im => .ok (im.content, some (im.stored, im.blkshift, im.direct), none)
  else .ok (c.bytes 64 len, none, none)

/-- How Rinsis stores content that the host seals under handle `h` (R229, R231, R235): direct or not, the block shift, and the stored bytes. INDEX_EXTENT
and ENTRY_LAYER objects are direct with BLKSHIFT 11, an image is stored as it is, and what the drive encodes itself takes BLKSHIFT 14 (log entry 201). -/
def sealShape (typ : Nat) (im : Option (Nat × Nat × Bool)) (h : W32) (size : Nat) : Bool × Nat × Nat :=
  if typ = 4 ∨ typ = 5 then (true, 11, size)
  else match im with
    | some (n, b, d) => (d, b, n)
    | none => (false, 14, storedOf typ h size)

/-- OBJECT_SEAL (R217, R231, R235, R413): a new object, a ready object in place, or the content of an IMPAIRED target again, which keeps its type, name,
owner, mode and copies. A NAME that another object has is refused with INVALID_FIELD (log entry 200). It waits while a stream still writes its ready
source (log entry 9). -/
def execObjectSeal (c : HostCmd) (s : State) : Out :=
  .next (s.orStall <| s.admin c (fun s1 =>
    let source := c.nat 49 1
    let typ := c.nat 48 1
    let copies := c.nat 51 1
    let target := c.w32 32
    match nameOf (c.bytes 0 32) with
    | none => s1.failSt c stInvalidField
    | some name =>
      if c.cdw10 ≠ 0 ∨ c.cdw11 ≠ 0 ∨ c.cdw12 ≠ 0 ∨ c.cdw13 ≠ 0 ∨ c.cdw14 ≠ 0 ∨ c.cdw15 ≠ 0 ∨ !c.zero 52 12 ∨ 2 < source ∨
          1 < c.nat 50 1 ∨ copies = 0 ∨ 2 < copies ∨ !typeListed typ then s1.failSt c stInvalidField
      else match s1.sealSource c source with
      | .error e => s1.failSt c e
      | .ok (content, im, src) =>
        if target ≠ 0 then
          match s1.live? target with
          | none => s1.failSt c stObjectUnknown
          | some o =>
            if o.state ≠ 2 ∨ digestOf content ≠ o.digest then s1.failSt c stInvalidField
            else
              let (direct, shift, stored) := sealShape o.typ im target content.length
              (match s1.sealInto target { o with direct := direct, blkshift := shift, extent := none } content stored with
               | (0, s) => s.ok c target
               | (e, _) => s1.failSt c e)
        else
          let taken := s1.obj.dir.any (fun (h, o) => !name.isEmpty && o.name == name && some (BitVec.ofNat 32 h) != src)
          let (direct, shift, _) := sealShape typ im 0 0
          let qlc := c.nat 50 1 == 1
          if taken then s1.failSt c stInvalidField
          else match src with
          | some r =>
            (match s1.obj? r with
             | none => s1.failSt c stObjectUnknown
             | some o =>
               if s1.host.xfers.any (fun x => x.dst == r && !x.cut) then s
               else s1.hostSeal c r { o with typ := typ, name := name, qlc := qlc, copies := copies, direct := direct, blkshift := shift } content
                 (storedOf typ r content.length))
          | none =>
            let o : Obj := { typ := typ, owner := s1.clientOf c, size := content.length, state := 0, name := name, qlc := qlc, copies := copies,
                             direct := direct, blkshift := shift }
            (match s1.createObj o with
             | none => s1.failSt c stTierFull
             | some (h, s) =>
               let t := s.hostSeal c h o content (sealShape typ im h content.length).2.2
               if ((t.obj? h).map (fun o => o.state)).getD 0 = 1 then t else t.forget h)))

/-- Runs an OBJECT PLACE of the given action on its object (R219, R412). -/
def State.place (s : State) (c : HostCmd) (action : Nat) (body : State → Obj → State) : State :=
  let extra := if action = 0 then true else c.cdw12 == 0 && !c.cdw11.getLsbD 8
  if c.cdw11.toNat % 8 ≠ action ∨ c.cdw11.toNat / 8 % 32 ≠ 0 ∨ 512 ≤ c.cdw11.toNat ∨ !extra ∨ c.cdw12.toNat / 134217728 ≠ 0 ∨
      (action ≠ 4 ∧ c.cdw13 ≠ 0) ∨ c.cdw14 ≠ 0 ∨ c.cdw15 ≠ 0 then s.fail c nvInvalidField
  else match s.live? c.cdw10 with
    | none => s.failSt c stObjectUnknown
    | some o => body s o

/-- PIN_S (R5, R221, R225): on a unit, at BROW, replicated or striped over all its members by rank. The parts of members on other drives lie
on those drives (log entry 101). Replacing a copy waits for the transfers in flight on it (log entry 9). -/
def execPinS (c : HostCmd) (s : State) : Out :=
  .next (s.admin c (fun s1 => s1.place c 0 (fun s1 o =>
    let h := c.cdw10
    let unit : W16 := c.cdw12.setWidth 16
    let brow := (c.cdw12.toNat / 65536) % 2048
    let stripe := c.cdw11.getLsbD 8
    match s1.unit? unit with
    | none => s1.failSt c stInvalidGroup
    | some u =>
        let rows := partRows o.size u.total stripe
        let new : SCopy := ⟨unit, u.tiles, stripe, brow, rows, true, s1.time.now, s1.tilesBefore u, u.total⟩
        let same := (o.s.map (fun x => x.unit == unit && x.stripe == stripe && x.brow == brow && x.tiles == u.tiles && x.total == u.total)).getD false
        let old : Obj := { o with s := none }
        let bare := s1.setObj h old
        if same then
          (match o.s with
           | none => s1
           | some x =>
             if x.pinned then s1.ok c 0
             else if !s1.withinQuota o 0 (x.allRows o.size * 1024) then s1.failSt c stQuotaExceeded
             else (s1.setObj h { o with s := some { x with pinned := true } }).ok c 0)
        else if 2048 < brow + rows ∨ !u.tiles.all (fun t => s1.rowsFree t brow (new.heldBy o.size t) h.toNat) then s1.failSt c stInvalidField
        else if o.case_ = 3 then s1.failSt c stObjectImpaired
        else if !bare.withinQuota old 0 (new.allRows o.size * 1024) then s1.failSt c stQuotaExceeded
        else if o.s.isSome && s1.inFlight h then s
        else match s1.load h o with
          | (0, t) => (t.placeS h { ((t.obj? h).getD o) with wantS := none } new).ok c 0
          | (e, t) => t.failSt c e)))

/-- PIN_D (R222, R225). -/
def execPinD (c : HostCmd) (s : State) : Out :=
  .next (s.admin c (fun s => s.place c 1 (fun s o =>
    if o.case_ = 3 ∧ o.d.isNone then s.failSt c stObjectImpaired
    else match s.pinTierD c.cdw10 o with
      | (0, s) => (s.updObj c.cdw10 (fun o => { o with wantD := none })).ok c 0
      | (e, s) => s.failSt c e)))

/-- UNPIN_S (R219, R226). -/
def execUnpinS (c : HostCmd) (s : State) : Out :=
  .next (s.admin c (fun s => s.place c 2 (fun s _ => ((s.unpin c.cdw10 true).updObj c.cdw10 (fun o => { o with wantS := none })).ok c 0)))

/-- UNPIN_D (R219, R226). -/
def execUnpinD (c : HostCmd) (s : State) : Out :=
  .next (s.admin c (fun s => s.place c 3 (fun s _ => ((s.unpin c.cdw10 false).updObj c.cdw10 (fun o => { o with wantD := none })).ok c 0)))

/-- Units of the memory namespace (R390: 140 GiB in windows of 64 KiB). -/
def windowUnits : Nat := 2293760

/-- Whether a run of windows is free of mapped copies but that of object `skip`. -/
def State.windowFree (s : State) (skip base n : Nat) : Bool :=
  s.obj.dir.all (fun (h, o) => h == skip || (match o.window with
    | some b => decide (b + unitsOf o.size ≤ base) || decide (base + n ≤ b)
    | none => true))

/-- MAP (R394): the Tier D copy appears at a window base, and counts as pinned while it is there. -/
def execMap (c : HostCmd) (s : State) : Out :=
  .next (s.admin c (fun s => s.place c 4 (fun s o =>
    let base := c.cdw13.toNat
    let n := unitsOf o.size
    match o.d with
    | none => s.failSt c stInvalidField
    | some d =>
      if windowUnits < base + n ∨ !s.windowFree c.cdw10.toNat base n then s.failSt c stInvalidField
      else if !d.pinned && o.window.isNone && !s.withinQuota o 1 (n * 65536) then s.failSt c stQuotaExceeded
      else (s.setObj c.cdw10 { o with window := some base }).ok c 0)))

/-- UNMAP (R394). -/
def execUnmap (c : HostCmd) (s : State) : Out :=
  .next (s.admin c (fun s => s.place c 5 (fun s o => (s.setObj c.cdw10 { o with window := none }).ok c 0)))

/-- OBJECT_DROP (R218); a failed consolidation may run again once Tier F space is free (R279). -/
def execObjectDrop (c : HostCmd) (s : State) : Out :=
  .next (s.admin c (fun s =>
    if c.cdw11 ≠ 0 ∨ c.cdw12 ≠ 0 ∨ c.cdw13 ≠ 0 ∨ c.cdw14 ≠ 0 ∨ c.cdw15 ≠ 0 then s.fail c nvInvalidField
    else match s.live? c.cdw10 with
    | none => s.failSt c stObjectUnknown
    | some o =>
      let s := (s.dropObj c.cdw10).dropIndexes
      let s := if (s.obj? c.cdw10).isSome then s.updObj c.cdw10 (fun o => { o with byHost := true })
        else if o.f.isSome then s.retryConsolidations else s
      s.ok c 0))

/-- The 256 bytes of OBJECT INFO (R414). -/
def Obj.info (o : Obj) : List Byte :=
  let pins := (if (o.s.map (fun c => c.pinned)).getD false then 8 else 0) + (if (o.d.map (fun c => c.pinned)).getD false || o.window.isSome then 16 else 0)
  let tiers := (if o.s.isSome then 1 else 0) + (if o.d.isSome then 2 else 0) + (if o.f.isSome then 4 else 0)
  let place := match o.s with
    | some c => c.brow + 65536 * c.unit.toNat
    | none => 0
  o.record ++ leBytes 4 0 ++ leBytes 1 o.state ++ leBytes 1 (tiers + pins) ++ leBytes 1 o.owner.toNat ++ leBytes 1 o.case_ ++
    leBytes 4 place ++ leBytes 4 (o.window.getD 0xFFFFFFFF) ++ List.replicate 80 0

/-- OBJECT_INFO (R219, R414). -/
def execObjectInfo (c : HostCmd) (s : State) : Out :=
  .next (s.admin c (fun s =>
    if c.cdw11 ≠ 0 ∨ c.cdw12 ≠ 0 ∨ c.cdw13 ≠ 0 ∨ c.cdw14 ≠ 0 ∨ c.cdw15 ≠ 0 then s.fail c nvInvalidField
    else match s.obj? c.cdw10 with
    | none => s.failSt c stObjectUnknown
    | some o => s.reply c o.info 0))

/-! ## Extents (R345, R349, R355, R415) -/

/-- The window index of a ring position (R349). -/
def Die.indexAt (x : Die) (p : Nat) : Nat := if x.winW = 0 then 0 else ((p + 4096 - x.winS % 4096) % 4096 + x.winR) % x.winW

/-- Allots the blocks of an extent (R345, R415), with the erases that they need: the ring position of each; none when a die has no place left. -/
def State.allotPlaces (s : State) (h : Nat) (qlc : Bool) : List Nat → Option (List Nat × State)
  | [] => some ([], s)
  | i :: is =>
    let d := dieOfBlock i
    match s.windowSlot d with
    | none => none
    | some (j, s) => ((s.allotBlock d j (h, i) qlc).allotPlaces h qlc is).map (fun (ps, t) => ((s.die d).ringPos j :: ps, t))

/-- Allots the blocks of an extent: the window index that each then has (R349). -/
def State.allotBlocks (s : State) (h : Nat) (qlc : Bool) (is : List Nat) : Option (List Nat × State) :=
  (s.allotPlaces h qlc is).map (fun (ps, t) => ((ps.zip is).map (fun (p, i) => (t.die (dieOfBlock i)).indexAt p), t))

/-- EXTENT_ALLOCATE (R345, R349, R355, R415): it completes when all of its blocks are erased in its mode. Without room, or on a die that has failed or has
no place left, TIER_FULL (log entry 203). -/
def execExtentAllocate (c : HostCmd) (s : State) : Out :=
  .next (s.admin c (fun s1 =>
    let n := c.cdw11.toNat
    let qlc := c.cdw10.getLsbD 2
    if 8 ≤ c.cdw10.toNat ∨ c.cdw10.toNat % 4 ≠ 0 ∨ n = 0 ∨ c.cdw12 ≠ 0 ∨ c.cdw13 ≠ 0 ∨ c.cdw14 ≠ 0 ∨ c.cdw15 ≠ 0 then s1.fail c nvInvalidField
    else if s1.ftl.readOnly ∨ userUnits < s1.usedUnits + 2048 * n ∨ (List.range n).any (fun i => (s1.die (dieOfBlock i)).failed) then s1.failSt c stTierFull
    else match s1.takeHandle with
      | none => s1.failSt c stTierFull
      | some (h, s2) => match s2.allotBlocks h.toNat qlc (List.range n) with
        | none => s1.failSt c stTierFull
        | some (js, s) =>
          let e : Extent := { owner := s.clientOf c, qlc := qlc, blocks := n, slots := js, waits := some c }
          ({ s with media := { s.media with extents := put h.toNat e s.media.extents } }).endAllots))

/-- EXTENT_FREE (R415): by its owner's client alone; it takes effect when the last bound job ends. -/
def execExtentFree (c : HostCmd) (s : State) : Out :=
  .next (s.admin c (fun s =>
    let h := c.cdw12
    if c.cdw10 ≠ 1 ∨ c.cdw11 ≠ 0 ∨ c.cdw13 ≠ 0 ∨ c.cdw14 ≠ 0 ∨ c.cdw15 ≠ 0 ∨ h = 0 then s.fail c nvInvalidField
    else match s.extent? h with
      | none => s.failSt c stObjectUnknown
      | some e =>
        if e.owner ≠ s.clientOf c then s.failSt c stMediaNotOwned
        else if s.extentBound h then (s.updExtent h (fun e => { e with freed := true })).ok c 0
        else (s.freeExtentNow h.toNat e).ok c 0))

/-! ## Programs (R393) -/

/-- LOAD_PROGRAM (R105, R125, R393): an image becomes a PROGRAM object; its handle is dword 0. The fields are those of the Computational
Programs command set (log entry 41). -/
def execLoadProgram (c : HostCmd) (s : State) : Out :=
  .next (s.admin c (fun s =>
    let pind := c.cdw10.toNat % 65536
    let n := c.cdw11.toNat
    if c.nsid ≠ s.host.nsCompute then s.fail c nvInvalidNamespace
    else if 64 ≤ pind then s.fail c nvInvalidField
    else if c.cdw10.getLsbD 24 then
      (match find pind s.host.programs with
       | none => s.fail c nvInvalidField
       | some (h, _) =>
         let s := { s with host := { s.host with programs := remove pind s.host.programs } }
         (if (s.live? h).isSome then s.dropObj h else s).ok c 0)
    else if n = 0 ∨ (find pind s.host.programs).isSome then s.fail c nvInvalidField
    else
      let bytes := c.bytes 0 n
      let o : Obj := { typ := 8, owner := s.clientOf c, size := n, state := 0, copies := 1, data := memOf bytes }
      if !textOk (textWords o) then s.failSt c stInvalidField
      else match s.createObj o with
        | none => s.failSt c stTierFull
        | some (h, t) => match t.sealInto h o bytes (storedOf 8 h n) with
          | (0, t) => ({ t with host := { t.host with programs := put pind (h, false) t.host.programs } }).ok c h
          | (e, _) => s.failSt c e))

/-- PROGRAM_ACTIVATION_MANAGEMENT (R393): activates or deactivates a loaded index (log entry 41). -/
def execProgramActivationManagement (c : HostCmd) (s : State) : Out :=
  .next (s.admin c (fun s =>
    let sel := c.cdw10.toNat / 65536 % 16
    if c.nsid ≠ s.host.nsCompute then s.fail c nvInvalidNamespace
    else match find (c.cdw10.toNat % 65536) s.host.programs with
      | none => s.fail c nvInvalidField
      | some (h, _) =>
        if 1 < sel then s.fail c nvInvalidField
        else ({ s with host := { s.host with programs := put (c.cdw10.toNat % 65536) (h, sel == 1) s.host.programs } }).ok c 0))

/-- EXECUTE_PROGRAM (R393): a RUN job with UNIT 0x8000, which names the drive at ring position 0 and this one in a chain of one (R6), all four cores, no bind list. The parameter data lies first in the buffer, at
most 56 bytes; CDW11 is the length of the data buffer (log entry 41). -/
def execExecuteProgram (c : HostCmd) (s : State) : Out :=
  .next (s.orStall <| s.io c (fun s =>
    let pind := c.cdw2to5.toNat % 65536
    let rsid := c.cdw2to5.toNat / 65536 % 65536
    let n := c.cdw10.toNat
    if c.nsid ≠ s.host.nsCompute then s.fail c nvInvalidNamespace
    else if rsid ≠ 0 ∨ 56 < n ∨ c.cdw11.toNat < 128 then s.fail c nvInvalidField
    else match find pind s.host.programs with
      | none => s.fail c nvInvalidField
      | some (h, active) =>
        if !active then s.fail c nvInvalidField
        else match s.programAt h with
          | .error e => s.failSt c e
          | .ok _ =>
            if (s.unit? 0x8000).isNone then s.failSt c stInvalidGroup
            else
            let args := (List.range 7).map (fun i => BitVec.ofNat 64 (leNat (((c.data.take n).drop (8 * i)).take 8)))
            s.newJob c 0x94 0 c.cdw11.toNat (.program h 0x8000 0xF args []) none))

/-! ## The memory namespace (R394) -/

/-- The object mapped over a byte of the memory namespace, and the byte's offset in its copy. -/
def State.windowAt (s : State) (a : Nat) : Option (W32 × Obj × Nat) :=
  s.obj.dir.findSome? (fun (h, o) => match o.window with
    | some b => if 65536 * b ≤ a ∧ a < 65536 * (b + unitsOf o.size) then some (BitVec.ofNat 32 h, o, a - 65536 * b) else none
    | none => none)

/-- The parts of a range of the memory namespace, window by window; none when a window is not mapped. -/
def State.windowParts (s : State) (a n : Nat) : Option (List (W32 × Obj × Nat × Nat)) :=
  let last := if n = 0 then a / 65536 else (a + n - 1) / 65536
  (List.range (if n = 0 then 0 else last - a / 65536 + 1)).mapM (fun i =>
    let lo := if i = 0 then a else 65536 * (a / 65536 + i)
    let hi := Nat.min (a + n) (65536 * (a / 65536 + i + 1))
    (s.windowAt lo).map (fun (h, o, off) => (h, o, off, hi - lo)))

/-- Whether a range of a mapped object, within one of its units, reads: from its Tier D copy, or from Tier F after that copy was lost (R158, R333). -/
def State.windowReads (s : State) (o : Obj) (off n : Nat) : Bool :=
  !o.gone.contains (off / 65536) && (match o.d with
    | some d => !d.bad.contains (off / 65536)
    | none => (List.range n).all (fun i => decide (o.size ≤ off + i) || s.tierFReads o (off + i)))

/-- MEMORY_READ (R394): start byte in CDW10 and CDW11, bytes in CDW12 (log entry 41). -/
def execMemoryRead (c : HostCmd) (s : State) : Out :=
  .next (s.io c (fun s =>
    if c.nsid ≠ s.host.nsMemory then s.fail c nvInvalidNamespace
    else match s.windowParts (slbaOf c) c.cdw12.toNat with
      | none => s.fail c nvLbaRange
      | some ps =>
        match ps.find? (fun (_, o, off, n) => !s.windowReads o off n) with
        | some (h, o, off, _) =>
          if o.d.isNone ∧ o.f.isSome ∧ o.case_ ≠ 3 ∧ !o.gone.contains (off / 65536) then
            if s.sec.mbk then (s.impair h).failSt c stObjectImpaired else s.failSt c stMediaUncorrectable
          else s.failSt c stObjectImpaired
        | none => (ps.foldl (fun s (h, _, _, _) => s.touchCopies h false true) s).reply c (ps.flatMap (fun (_, o, off, n) => o.data.rdBytes off n)) 0))

/-- MEMORY_WRITE (R394): only into ready objects; bytes past an object's size are not stored. -/
def execMemoryWrite (c : HostCmd) (s : State) : Out :=
  .next (s.io c (fun s =>
    if c.nsid ≠ s.host.nsMemory then s.fail c nvInvalidNamespace
    else match s.windowParts (slbaOf c) c.cdw12.toNat with
      | none => s.fail c nvLbaRange
      | some ps =>
        if ps.any (fun (_, o, _, _) => o.state != 0) then s.failSt c stObjectSealed
        else
          let (s, _) := ps.foldl (fun ((s, pos) : State × Nat) (h, _, off, n) =>
            ((s.updObj h (fun o => { o with data := o.data.wrBytes off ((c.bytes pos n).take (o.size - off)) })).touch h, pos + n)) (s, 0)
          s.ok c 0))

end Sys2Proof.Machine
end

