-- ==== Sys2Proof/Machine/HostAdmin.lean ====
section
/-! DEFINITION. Queues, features, logs, formats, firmware updates and attestation (12 R379; 13 R387 to R389, R408 to R411, R416 to R418;
14 R434 to R439; 15 R454; 07 R181). The dwords of standard NVMe commands are those of the specifications R386 names (log entry 42). -/
namespace Sys2Proof.Machine

/-! ## Queues (R387 to R389) -/

/-- I/O queue pairs and MSI-X vectors of a controller (R387): the PF holds what no VF was given. -/
def State.pairsOf (s : State) (c : Fin 33) : Nat :=
  if c = 0 then 256 - ((s.host.ctrls.filter (fun x => x.1 != 0)).map (fun x => x.2.pairs)).foldl (· + ·) 0 else (s.ctrl c).pairs
/-- MSI-X vectors of a controller. -/
def State.vectorsOf (s : State) (c : Fin 33) : Nat :=
  if c = 0 then 256 - ((s.host.ctrls.filter (fun x => x.1 != 0)).map (fun x => x.2.vectors)).foldl (· + ·) 0 else (s.ctrl c).vectors

/-- QID and 0-based size of a queue creation, with the refusals the two share. -/
def queueArgs (c : HostCmd) (held : Nat) (isThere : Bool) (limit : Nat) : Except NvStatus (Nat × W16) :=
  let q := c.cdw10.toNat % 65536
  let size := c.cdw10.toNat / 65536
  if q = 0 ∨ limit < q ∨ limit ≤ held ∨ isThere then .error nvInvalidQueue
  else if size = 0 ∨ 0x3FFF < size then .error (1, 0x02)
  else if !c.cdw11.getLsbD 0 then .error nvInvalidField
  else .ok (q, BitVec.ofNat 16 size)

/-- CREATE_IO_COMPLETION_QUEUE (R387): a queue without interrupts takes no vector. -/
def execCreateIoCompletionQueue (c : HostCmd) (s : State) : Out :=
  .next (s.admin c (fun s =>
    let k := s.ctrl c.ctrl
    match queueArgs c k.cqs.length (find (c.cdw10.toNat % 65536) k.cqs).isSome (s.pairsOf c.ctrl) with
    | .error e => s.fail c e
    | .ok (q, size) =>
      let vector : W16 := c.cdw11.extractLsb' 16 16
      if c.cdw11.getLsbD 1 ∧ s.vectorsOf c.ctrl ≤ vector.toNat then s.fail c (1, 0x01)
      else (s.setCtrl c.ctrl { k with cqs := put q ⟨size, vector, c.cdw11.getLsbD 1, 0⟩ k.cqs }).ok c 0))

/-- CREATE_IO_SUBMISSION_QUEUE (R387, R388, R409): it starts as its controller's client, and frozen while entries recorded before CSTS.RDY are
unread. -/
def execCreateIoSubmissionQueue (c : HostCmd) (s : State) : Out :=
  .next (s.admin c (fun s =>
    let k := s.ctrl c.ctrl
    match queueArgs c k.sqs.length (find (c.cdw10.toNat % 65536) k.sqs).isSome (s.pairsOf c.ctrl) with
    | .error e => s.fail c e
    | .ok (q, size) =>
      let cq : W16 := c.cdw11.extractLsb' 16 16
      if (find cq.toNat k.cqs).isNone then s.fail c nvInvalidCq
      else
        let x : Sq := { client := BitVec.ofNat 6 c.ctrl.val, cqid := cq, size := size, frozen := s.host.deferred.any (fun e => e.early && !e.read),
                         born := s.host.defWritten.toNat }
        (s.setCtrl c.ctrl { k with sqs := put q x k.sqs }).ok c 0))

/-- DELETE_IO_SUBMISSION_QUEUE (R389): its jobs end without completions, and the Delete completes after the last has stopped. -/
def execDeleteIoSubmissionQueue (c : HostCmd) (s : State) : Out :=
  .next (s.admin c (fun s =>
    let q : W16 := c.cdw10.setWidth 16
    match s.sq? c.ctrl q with
    | none => s.fail c nvInvalidQueue
    | some x =>
      if x.deleting.isSome then s.fail c nvInvalidQueue
      else
        let s := s.updSq c.ctrl q (fun x => { x with deleting := some c.cid, notices := [] })
        ((s.dropWaiting (fun k => k.ctrl == c.ctrl && k.sqid == q)).silenceJobs (fun j => j.ctrl == c.ctrl && j.sqid == q)).settleQueues))

/-- QUEUE_CLIENT (R388): from the PF's admin queue alone. -/
def execQueueClient (c : HostCmd) (s : State) : Out :=
  .next (s.admin c (fun s =>
    let ci := c.cdw11.toNat
    if c.ctrl ≠ 0 ∨ c.cdw10.toNat % 256 ≠ 0xC1 ∨ 33 ≤ ci ∨ 4194304 ≤ c.cdw12.toNat then s.fail c nvInvalidField
    else
      let q : W16 := c.cdw12.setWidth 16
      match s.sq? (Fin.ofNat 33 ci) q with
      | none => s.fail c nvInvalidQueue
      | some _ => (s.updSq (Fin.ofNat 33 ci) q (fun x => { x with client := c.cdw12.extractLsb' 16 6 })).ok c 0))

/-- VIRTUALIZATION_MANAGEMENT (R387): the PF assigns queue pairs (resource type 0) or vectors (1) to a secondary controller. -/
def execVirtualizationManagement (c : HostCmd) (s : State) : Out :=
  .next (s.admin c (fun s =>
    let act := c.cdw10.toNat % 16
    let rt := c.cdw10.toNat / 256 % 8
    let id := c.cdw10.toNat / 65536
    let n := c.cdw11.toNat % 65536
    if c.ctrl ≠ 0 ∨ !(act = 1 ∨ act = 7 ∨ act = 8 ∨ act = 9) then s.fail c nvInvalidField
    else if 33 ≤ id ∨ (act ≠ 1 ∧ id = 0) then s.fail c (1, 0x1F)
    else if act ≠ 8 then s.ok c 0
    else if 1 < rt then s.fail c (1, 0x22)
    else
      let x := Fin.ofNat 33 id
      let others (f : Ctrl → Nat) : Nat := ((s.host.ctrls.filter (fun y => y.1 != 0 && y.1 != id)).map (fun y => f y.2)).foldl (· + ·) 0
      if 256 < n + others (if rt = 0 then (fun k => k.pairs) else (fun k => k.vectors)) then s.fail c (1, 0x21)
      else (s.updCtrl x (fun k => if rt = 0 then { k with pairs := n } else { k with vectors := n })).ok c (BitVec.ofNat 32 n)))

/-! ## Features -/

/-- POWER_MANAGEMENT (R418): the state is staged and commits at the next saddle. -/
def execPowerManagement (c : HostCmd) (s : State) : Out :=
  .next (s.admin c (fun s =>
    let p := c.cdw11.toNat % 32
    if c.cdw10.toNat % 256 ≠ 2 ∨ 4 < p then s.fail c nvInvalidField
    else ({ s with set := { s.set with pendPower := some p } }).ok c 0))

/-- Minutes that the drive was unpowered (R181): the host timestamps' difference, less the powered time since the last, when positive. -/
def unpowered (old new epochThen epochNow : Nat) : Nat := (new - old) / 60000 - (epochNow - epochThen)

/-- TIMESTAMP (R181): milliseconds in bytes 5:0 of the buffer. -/
def execTimestamp (c : HostCmd) (s : State) : Out :=
  .next (s.admin c (fun s =>
    if c.cdw10.toNat % 256 ≠ 0x0E then s.fail c nvInvalidField
    else
      let ms := c.nat 0 6
      let add := match s.time.hostStamp with
        | some (old, e) => unpowered old ms e s.time.epoch.toNat
        | none => 0
      let e := s.time.epoch + BitVec.ofNat 32 add
      (({ s with time := { s.time with epoch := e, hostStamp := some (ms, e.toNat) } }).ageBlocks s.time.epoch.toNat).ok c 0))

/-- DEVICE_SELF_TEST (R409): starts an operation, or aborts it. -/
def execDeviceSelfTest (c : HostCmd) (s : State) : Out :=
  .next (s.admin c (fun s =>
    let stc := c.cdw10.toNat % 16
    let k := s.ctrl c.ctrl
    if stc = 0xF then (s.setCtrl c.ctrl { k with selfTest := false }).ok c 0
    else if stc ≠ 1 ∧ stc ≠ 2 then s.fail c nvInvalidField
    else if k.selfTest then s.fail c (1, 0x1D)
    else (s.setCtrl c.ctrl { k with selfTest := true }).ok c 0))

/-- SELF_TEST_OPERATION_END (R409). -/
def execSelfTestOperationEnd (ctrl : Fin 33) (s : State) : Out := .next (s.updCtrl ctrl (fun k => { k with selfTest := false }))

/-! ## Formats (R438, R439) -/

/-- A namespace loses its content (R365, R439): a trim entry for its whole range; `rekey` draws a new key pair. -/
def State.blankSpace (s : State) (nsid : Nat) (n : Nspace) (rekey : Bool) : State :=
  let s := if n.units = 0 then s else s.addTrim n.nsx 0 n.units
  let s := { s with ftl := { s.ftl with spaces := put nsid n s.ftl.spaces } }
  if rekey then { s with sec := { s.sec with nsKeys := put n.nsx s.sec.keysDrawn s.sec.nsKeys, keysDrawn := s.sec.keysDrawn + 1 } } else s

/-- FORMAT_NVM (R438, R439): SES in CDW10 bits 11:9, LBA format in bits 3:0. SES 1 and 2 destroy the key pair. It waits for a buffer slot for
each trim entry (log entry 9). -/
def execFormatNvm (c : HostCmd) (s : State) : Out :=
  .next (s.admin c (fun s1 =>
    let ses := c.cdw10.toNat / 512 % 8
    let fmt := c.cdw10.toNat % 16
    let targets := if c.nsid = 0xFFFFFFFF then s1.ftl.spaces else s1.ftl.spaces.filter (fun (i, _) => i == c.nsid.toNat)
    if 2 < ses then s1.fail c nvInvalidField
    else if 1 < fmt then s1.fail c (1, 0x0A)
    else if s1.ftl.readOnly then s1.fail c nvWriteProtected
    else if targets.isEmpty ∧ c.nsid ≠ 0xFFFFFFFF then s1.fail c nvInvalidNamespace
    else if s1.slotsFree < targets.length then s
    else (targets.foldl (fun s (i, n) =>
      let s := s.blankSpace i n (ses != 0)
      let size := if n.big == (fmt == 1) then n.size else if fmt = 1 then ceilDiv n.size 16 else 16 * n.size
      { s with ftl := { s.ftl with spaces := put i { n with big := fmt == 1, size := size } s.ftl.spaces } }) s1).ok c 0))

/-- SANITIZE_CRYPTO_ERASE (R438, R439): every media key is destroyed and drawn anew: namespaces are unmapped, sealed objects and extents
dropped. -/
def execSanitizeCryptoErase (c : HostCmd) (s : State) : Out :=
  .next (s.admin c (fun s1 =>
    if c.cdw10.toNat % 8 ≠ 4 then s1.fail c nvInvalidField
    else if s1.ftl.readOnly then s1.fail c nvWriteProtected
    else if s1.slotsFree < s1.ftl.spaces.length then s
    else
      let s := s1.ftl.spaces.foldl (fun s (i, n) => s.blankSpace i n true) s1
      let s := (s.obj.dir.filter (fun (_, o) => o.state != 0)).foldl (fun s (h, _) => s.dropObj (BitVec.ofNat 32 h)) s
      let s := s.media.extents.foldl (fun s (h, e) =>
        if s.extentBound (BitVec.ofNat 32 h) then s.updExtent (BitVec.ofNat 32 h) (fun e => { e with freed := true }) else s.freeExtentNow h e) s.dropIndexes
      let s := { s with idx := { s.idx with prefill := s.idx.prefill.filter (fun e => (s.live? e.handle).isSome) } }
      ({ s with sec := { s.sec with extentKey := s.sec.keysDrawn, keysDrawn := s.sec.keysDrawn + 1 } }).ok c 0))

/-! ## Firmware updates (R434, R453, R454) -/

/-- FIRMWARE_IMAGE_DOWNLOAD (R454): dwords in CDW10 (0-based), dword offset in CDW11. -/
def execFirmwareImageDownload (c : HostCmd) (s : State) : Out :=
  .next (s.admin c (fun s =>
    let n := 4 * (c.cdw10.toNat + 1)
    let off := 4 * c.cdw11.toNat
    if n % 4096 ≠ 0 ∨ off % 4096 ≠ 0 ∨ imageMax < off + n then s.fail c nvInvalidField
    else
      let got := (List.range (n / 4096)).map (fun i => off / 4096 + i)
      ({ s with sec := { s.sec with staged := Mem.wrBytes s.sec.staged off (c.bytes 0 n), pieces := (s.sec.pieces ++ got).eraseDups } }).ok c 0))

/-- FIRMWARE_COMMIT (R454): slot in CDW10 bits 2:0, action in bits 5:3; it completes when the writing ends. `man` is what the staged image's manifest says and how its checks end. -/
def execFirmwareCommit (c : HostCmd) (man : Manifest) (s : State) : Out :=
  .next (s.admin c (fun s =>
    let fs := c.cdw10.toNat % 8
    let ca := c.cdw10.toNat / 8 % 8
    let whole := (List.range (ceilDiv man.bytes.toNat 4096)).all (fun i => s.sec.pieces.contains i)
    if s.sec.slotWrite.isSome then s.fail c (0, 0x0C)
    else if 3 ≤ ca then s.fail c nvInvalidField
    else if ca = 2 then s.ok c 0
    else if 1 < fs then s.fail c (1, 0x06)
    else if man.bytes = 0 ∨ imageMax < man.bytes.toNat ∨ !whole ∨ s.imageError man ≠ 0 then s.fail c (1, 0x07)
    else s.writeSlot man s.sec.staged (some c)))

/-! ## Logs (R208, R379, R410, R416) -/

/-- Composite temperature in kelvin (R481): the hottest flash package. -/
def State.compositeK (s : State) : Nat := (s.pwr.flash.toInt + 273).toNat

/-- Wear of a die's blocks in service, those of its positions, the one kept aside, and a reserved one of the firmware slot: the highest, the sum,
and how many they are (R325, R327 DIEWEAR). -/
def State.wears (s : State) (d : Nat) : Nat × Nat × Nat :=
  let x := s.die d
  let here := x.blocks.filter (fun (_, b) => b.use != .gone)
  let more := (find d s.media.slotBlks).toList
  let ws := here.map (fun (_, b) => b.wear) ++ more.map (fun b => b.wear) ++ [x.flushBlk.wear]
  (ws.foldl Nat.max 0, ws.foldl (· + ·) 0, 4097 + more.length - (x.blocks.length - here.length))

/-- Percentage used (R379). -/
def State.percentUsed (s : State) : Nat :=
  let ws := s.media.dies.map (fun (d, _) => (s.wears d).2)
  let total := (ws.map Prod.fst).foldl (· + ·) 0
  let count := (ws.map Prod.snd).foldl (· + ·) (4097 * (512 - ws.length))
  let used := (s.media.dies.map (fun (_, x) => 120 - x.spares)).foldl (· + ·) 0
  Nat.min 255 (Nat.max (100 * total / (count * 30000)) (100 * used / 59392))

/-- Critical warning bits 0, 2, 3 and 4 (R379, R479). -/
def State.criticalWarning (s : State) : Nat :=
  let spare := 100 * s.spareFree / 61440
  (if spare < 10 then 1 else 0) + (if s.ftl.readOnly || s.media.dies.any (fun (_, x) => x.failed) then 4 else 0) +
  (if s.ftl.readOnly then 8 else 0) + (if s.ftl.slots < 16384 then 16 else 0)

/-- The SMART / Health page: the indicators the spec gives; its other bytes are free (log entry 43). -/
def State.smartByte (s : State) (k i : Nat) : Byte :=
  if i = 0 then BitVec.ofNat 8 s.criticalWarning ||| (Config.logByte k 2 0 &&& 0xE2)
  else if i = 1 then BitVec.ofNat 8 s.compositeK
  else if i = 2 then BitVec.ofNat 8 (s.compositeK / 256)
  else if i = 3 then BitVec.ofNat 8 (100 * s.spareFree / 61440)
  else if i = 4 then 10
  else if i = 5 then BitVec.ofNat 8 s.percentUsed
  else Config.logByte k 2 i

/-- A deferred-write-error entry (R410). -/
def DefErr.bytes (e : DefErr) : List Byte :=
  leBytes 16 e.cairn.toNat ++ leBytes 4 e.nsid.toNat ++ leBytes 2 e.sqid.toNat ++ leBytes 2 e.cid.toNat ++ leBytes 8 e.slba.toNat ++
    leBytes 2 e.lostmask.toNat ++ [e.report, if e.read then 1 else 0] ++ List.replicate 28 0

/-- The slot of log page 0xC2 that holds the i-th entry kept. -/
def State.defSlot (s : State) (i : Nat) : Nat := (s.host.defWritten.toNat - s.host.deferred.length + i) % 256

/-- Log page 0xC2 (R410). -/
def State.defPage (s : State) : Mem :=
  let m := Mem.wrBytes [] 0 (leBytes 8 s.host.defWritten.toNat ++ leBytes 8 s.host.defLost.toNat)
  s.host.deferred.zipIdx.foldl (fun m (e, i) => Mem.wrBytes m (64 + 64 * s.defSlot i) e.bytes) m

/-- Entry i of the cairn log in write order (R189, R416): zeros when it is overwritten or not yet written. -/
def State.logEntry (s : State) (i : Nat) : W128 :=
  let w := s.time.written.toNat
  if w ≤ i then 0 else ((s.time.log[w - 1 - i]?).map (fun e => e.bits)).getD 0

/-- Log page 0xC0 (R208, R416). -/
def State.countsPage (s : State) : List Byte :=
  (List.range 64).flatMap (fun c =>
    let k : ClientCounts := getD {} s.host.counts c
    leBytes 8 k.submitted.toNat ++ leBytes 8 k.completed.toNat ++ leBytes 8 k.failed.toNat ++ leBytes 8 k.aborted.toNat)

/-- GET_LOG_PAGE (R416): bytes asked for in NUMD (0-based dwords), from the byte offset. Reading a whole entry of page 0xC2 marks it read. -/
def execGetLogPage (c : HostCmd) (s : State) : Out :=
  .next (s.admin c (fun s =>
    let lid := c.cdw10.toNat % 256
    let n := 4 * ((c.cdw11.toNat % 65536) * 65536 + c.cdw10.toNat / 65536 + 1)
    let lpo := (pair64 c.cdw12 c.cdw13).toNat
    let idx := (List.range n).map (lpo + ·)
    if lpo % 4 ≠ 0 then s.fail c nvInvalidField
    else if lid = 0xC0 then s.reply c ((s.countsPage.drop lpo ++ List.replicate n 0).take n) 0
    else if lid = 0xC1 then s.reply c (idx.map (fun i => ((s.logEntry (i / 16)) >>> (8 * (i % 16))).setWidth 8)) 0
    else if lid = 0xC2 then
      let bytes := s.defPage.rdBytes lpo n
      let read (i : Nat) : Bool := decide (lpo ≤ 64 + 64 * s.defSlot i) && decide (128 + 64 * s.defSlot i ≤ lpo + n)
      let d := s.host.deferred.zipIdx.map (fun (e, i) => { e with read := e.read || read i })
      ({ s with host := { s.host with deferred := d, events := s.host.events.filter (fun e => e != 0xC20000) } }).reply c bytes 0
    else if lid = 2 then
      let (k, s) := s.draw
      s.reply c (idx.map (s.smartByte k)) 0
    else if lid = 1 ∨ lid = 6 then
      let (k, s) := s.draw
      s.reply c (idx.map (Config.logByte k lid)) 0
    else s.fail c (1, 0x09)))

/-! ## Attestation (R435, R436) -/

/-- The seed of the identity key pair (R435): the first 256 bits of SHAKE256 of DEVSECRET followed by the ASCII bytes of identity. -/
def State.idSeed (s : State) : BitVec 256 :=
  (digestOf (leBytes 32 s.sec.devSecret.toNat ++ [0x69, 0x64, 0x65, 0x6E, 0x74, 0x69, 0x74, 0x79])).setWidth 256

/-- SHAKE256 of the identity public key (R435, R436). -/
def State.idKey (s : State) : BitVec 512 := Config.idKey s.idSeed

/-- STATE of a report (R436, R490). -/
def State.attestState (s : State) : Byte :=
  BitVec.ofNat 8 ((if s.sec.debug || s.boot.test then 1 else 0) + (if s.boot.phase == .recovery then 2 else 0) + (if s.sec.mbk then 4 else 0) +
    (if s.ftl.readOnly then 8 else 0))

/-- Bytes 255:0 of a report (R436). -/
def State.reportBody (s : State) (nonce : List Byte) : List Byte :=
  let programs := (s.obj.dir.filter (fun (_, o) => o.typ == 8 && o.state != 0)).flatMap (fun (_, o) => leBytes 64 o.digest.toNat)
  leBytes 4 0x54415A55 ++ [1, s.attestState, s.sec.fusedSvn, s.sec.imageSvn] ++ leBytes 8 s.time.now.toNat ++ nonce ++
    leBytes 64 s.sec.imageDigest.toNat ++ leBytes 64 s.idKey.toNat ++ leBytes 64 (digestOf programs).toNat ++ List.replicate 16 0

/-- ATTEST (R436): a report over the host's nonce; its signature is the identity key's (log entry 44). -/
def execAttest (c : HostCmd) (s : State) : Out :=
  .next (s.admin c (fun s =>
    if c.cdw10 ≠ 0 then s.fail c nvInvalidField
    else
      let body := s.reportBody (c.bytes 0 32)
      s.reply c (body ++ (List.range 3309).map (Config.attestByte s.idSeed (digestOf body))) 0))

/-- ATTEST_CERTIFICATE (R435, R436): the certificate after its 4-byte length. -/
def execAttestCertificate (c : HostCmd) (s : State) : Out :=
  .next (s.admin c (fun s =>
    if c.cdw10 ≠ 1 then s.fail c nvInvalidField
    else
      let n := Config.certLength % 4093
      s.reply c (leBytes 4 n ++ (List.range n).map Config.certByte) 0))

end Sys2Proof.Machine
end

