-- ==== Sys2Proof/Machine/Reset.lean ====
section
/-! DEFINITION. Resets, the power-loss flush, stage reports and firmware faults, as the commands share them (11 R334; 12 R371;
14 R424, R432; 15 R443, R444, R466 to R473). -/
namespace Sys2Proof.Machine

/-! ## Islands -/

/-- The islands that a drive reset resets: not those of the management and power domains, the time base root, or the Penla ports (R466). -/
def driveIslands : List Nat := islandIds.filter (fun k => !([0x161, 0x162, 0x17E, 0x17F].contains k))

/-! ## Stage reports (R443, R444) -/

/-- A stage ends (R444): STAGE_DONE with its DATA, and its report record. Outcomes are 0 PASS, 1 DEGRADED, 2 FAIL. -/
def State.stageDone (s : State) (n outcome : Nat) (data : List Byte) : State :=
  let ms := (s.time.now - s.boot.started).toNat / 1000000
  let d := (data ++ List.replicate 48 0).take 48
  let att := [0, 1, 2].map (fun i => BitVec.ofNat 128 (leNat ((d.drop (16 * i)).take 16)))
  let (c, s) := s.stampNow srcRoot 0x78 (BitVec.ofNat 4 n ++ BitVec.ofNat 2 outcome ++ BitVec.ofNat 22 ms) att
  { s with boot := { s.boot with report := put n (leBytes 16 c.toNat ++ d) s.boot.report, started := s.time.now } }

/-- Applies `f` to every controller. -/
def State.allCtrls (s : State) (f : Ctrl → Ctrl) : State :=
  (List.range 33).foldl (fun s i => s.updCtrl (Fin.ofNat 33 i) f) s

/-- A stage halts (R443): FAIL, CSTS.RDY 0 and CSTS.CFS 1 on every controller. -/
def State.haltStage (s : State) (n : Fin 9) (data : List Byte) : State :=
  let s := (s.stageDone n.val 2 data).allCtrls (fun k => { k with rdy := false, cfs := true })
  { s with boot := { s.boot with phase := .halted n, again := none } }

/-! ## The end of die work (R334) -/

/-- A die at a loss of power or a drive reset (R334, R371 step 2): its program completes, its erase stops and leaves the block marked not erased,
how much of it still holds data is free (log entry 205); what has not started is dropped. -/
def State.settleDie (s : State) (d : Nat) : State :=
  let x := s.die d
  if x.failed then s
  else
    let s := s.setDie d { x with reads := [], reading := none, writes := [], writing := none, suspended := false, suspendAt := none, served := 0 }
    let s := match x.writing with
      | none => s
      | some w => if w.erase then s
        else match w.serves with
          | .units us victim fails => s.unitsEnd d w.pos us victim.isSome (!fails)
          | .moveLine _ _ => s
          | _ => s.writeEnds d w true
    let left := (x.writing.toList.filter (fun w => w.erase)) ++ x.writes
    left.foldl (fun s w =>
      let emptied := match w.serves with
        | .victim _ => true
        | _ => false
      if w.erase && emptied && x.writing != some w then s.updBlk d w.pos (fun b => { b with erasing := false })
      else if w.erase then
        let (n, s) := (if emptied then s.dropUnits d w.pos else s).draw
        s.updBlk d w.pos (fun b => { b with erasing := false, erased := false, stopped := true, qlc := w.qlc,
                                            cut := Config.cutUnits n % (blockUnits w.qlc + 1),
                                            use := if emptied || b.use == .open_ || (w.serves == .background && !(s.die d).taken w.pos) then .free else b.use })
      else s.updBlk d w.pos (fun b => { b with wp := b.wp - b.running, running := 0 })) s

/-- Every die settles; a window move stops (R350). -/
def State.settleDies (s : State) : State := s.dropMove.media.dies.foldl (fun s (d, _) => s.settleDie d) s.dropMove

/-! ## The power-loss flush (R371) -/

/-- The power-loss flush (R371). -/
def State.powerFlush (s : State) : State :=
  let (k, s) := s.settleDies.draw
  let images := s.flushImages
  let s := s.fillFlush (s.ftl.buf.map Prod.fst ++ s.heldSlots)
  { s with ftl := { s.ftl with flush := images, flushed := some (Config.flushUs k).toNat, clean := false },
           time := { s.time with epochSaved := s.time.epoch }, boot := { s.boot with flushedSince := true } }

/-! ## Tiles and engines -/

/-- Transfers of a tile that its reset cuts off (R468 step 3): part of their data may have landed (log entry 17). -/
def State.cutXfers (s : State) (t : Nat) : State :=
  let mine := s.host.xfers.filter (fun x => x.tile == t)
  let s := mine.foldl (fun s x =>
    let (n, s) := s.draw
    let d := (s.core t x.core).rd (BitVec.ofNat 5 x.dsc)
    let bs := (List.range (Config.delivered n % (dLen d + 1))).map (fun i =>
      ((s.obj? x.src).bind (fun o => s.objByte o t (dSrcOff d + i))).getD ((s.tile t).sram.rd (dSrcOff d + i)))
    s.streamLand t x d bs) s
  let s := s.keepIssued (fun r => r.tile == t)
  { s with host := { s.host with xfers := s.host.xfers.filter (fun x => x.tile != t) } }

/-- A tile is reset (R468): registers, program state, flags, queue and array counters; SRAM and instruction store keep their contents. -/
def State.resetTile (s : State) (t : Nat) : State :=
  let s := s.cutXfers t
  let x := s.tile t
  (s.setTile t { sram := x.sram, texts := x.texts, acycFrom := s.time.now, generation := x.generation + 1, phys := x.phys, lost := x.lost,
                 spare := x.spare }).resetIslands [s.physOf t]

/-- A traversal engine is reset (R468): contexts and walk slots; its instruction store keeps its content. Forwards that it has sent arrive, those on their
way to it are dropped. -/
def State.resetEngine (s : State) (e : Nat) : State :=
  let s := s.setEngine e { text := (s.engine e).text }
  ({ s with host := { s.host with forwards := s.host.forwards.filter (fun f => f.dst != e) } }).resetIslands [0x120 + e]

/-- Whether a job has an agent or a walk among tiles and engines. -/
def State.jobOn (s : State) (j : Job) (tiles engines : List Nat) : Bool :=
  (j.phase == .admitted || j.phase == .workDone) && (j.tiles.any (fun t => tiles.contains t) ||
    engines.any (fun e => (find j.num (s.engine e).walks).isSome || (s.engine e).ctxs.any (fun (_, c) => c.r.job == some j.num)))

/-- Jobs with an agent or a walk there stop at the next saddle with PEER_RESET (R468). -/
def State.peersReset (s : State) (tiles engines : List Nat) : State :=
  { s with host := { s.host with jobs := s.host.jobs.map (fun j =>
      if s.jobOn j tiles engines then { j with stop := j.stop.or (some stPeerReset) } else j) } }

/-- The engines whose cluster lies wholly in a group (R466). -/
def enginesIn (tiles : List Nat) : List Nat := (List.range 16).filter (fun e => (List.range 16).all (fun i => tiles.contains (16 * e + i)))

/-- What is on its way to units that are reset is dropped (R468 step 4). -/
def State.dropPackets (s : State) (tiles engines : List Nat) : State :=
  let islands := tiles.map s.physOf ++ engines.map (0x120 + ·)
  { s with time := { s.time with cols := s.time.cols.filter (fun (k, _) => !islands.contains (k % 512)) } }

/-- A group reset (R468). -/
def State.groupReset (s : State) (gid : W16) (tiles : List Nat) : State :=
  let es := enginesIn tiles
  let s := s.peersReset tiles es
  let s := tiles.foldl State.resetTile s
  ((es.foldl State.resetEngine s).dropPackets tiles es).countReset gid

/-! ## Spares (R448, R470) -/

/-- The lowest-numbered passing spare of the compute die of logical tile `t`: it holds no index and is promised to none. -/
def State.spareOf (s : State) (t : Nat) : Option Nat :=
  ((List.range 68).map (fun i => 68 * (t / 64) + i)).find? (fun p =>
    !s.boot.failedTiles.contains p && !s.boot.s4Failed.contains p && allTiles.all (fun u => s.physOf u != p && (s.tile u).spare != some p))

/-- A Tier S copy that its tiles have lost: pinned ones wait for their reload (R223); an object without another copy is lost (R228). -/
def State.loseS (s : State) (h : Nat) (o : Obj) : State :=
  let o' := { o with s := none, wantS := match o.s with
    | some c => if c.pinned && o.f.isSome then some c else none
    | none => o.wantS }
  if o'.nCopies = 0 then (s.forget (BitVec.ofNat 32 h)).stamp (srcControl 0) 0x4B (BitVec.ofNat 28 h) else s.setObj (BitVec.ofNat 32 h) o'

/-- A failed tile has no spare (R470): TILE_LOST; the index is lost, and jobs that run on it stop with INVALID_GROUP. -/
def State.loseTile (s : State) (t : Nat) : State :=
  let s := { s with host := { s.host with jobs := s.host.jobs.map (fun (j : Job) =>
    if j.running && j.tiles.contains t then { j with stop := j.stop.or (some stInvalidGroup) } else j) } }
  let s := (s.obj.dir.filter (fun (_, o) => (o.s.map (fun c => c.tiles.contains t)).getD false)).foldl (fun s (h, o) => s.loseS h o) s
  let s := s.resetTile t
  let old := s.physOf t
  let s := s.setTile t { s.tile t with lost := true, sram := [], texts := [] }
  let s := { s with boot := { s.boot with failedTiles := (old :: s.boot.failedTiles).eraseDups } }
  s.stamp (srcControl 0) 0x7A (BitVec.ofNat 8 t ++ (0 : BitVec 20))

/-- A tile that answers has failed (R424, R470): its state goes to a spare, which takes the index at the next saddle. -/
def State.moveTile (s : State) (t : Nat) : State :=
  match s.spareOf t with
  | none => s.loseTile t
  | some p => s.setTile t { s.tile t with halted := (s.tile t).halted.or (some none), spare := some p }

/-! ## What a reset discards -/

/-- Every pending staged change is discarded (R471): STAGE_DISCARDED with the count. What another drive, as master, has accepted stays, and so does
a ledger import, which is on flash since its completion (R339, R340; log entry 113). -/
def State.discardStaged (s : State) : State :=
  let n := s.commitCount - (if s.set.pendLedgerOn then 1 else 0) + s.chain.accepted.length
  let set := { s.set with pend := [], pendGroups := [], pendBindings := [], pendReplaces := [], pendQuotas := [], pendPower := none }
  ({ s with set := set, chain := { s.chain with accepted := [] } }).stamp (srcControl 0) 0x7E (BitVec.ofNat 28 n)

/-- Every job and its agents end without a completion, to be counted ABORTED at S8 (R208, R473); what a consolidation sealed and did not swap
goes (R279). -/
def State.dropJobs (s : State) : State :=
  let js := s.host.jobs
  let s := js.foldl (fun s j => s.releaseAgents j.num) s
  let h := { s.host with jobs := [], recs := [], issued := [], xfers := [], forwards := [], held := [] }
  let s := (s.host.jobs.flatMap (fun j => j.made)).foldl State.forget s
  { s with host := h, boot := { s.boot with endedJobs := s.boot.endedJobs ++ (s.host.jobs.filter Job.submitted).map (fun j => j.client) } }

/-- An object after Tier S, or Tier S and Tier D, are lost (R223, R238, R255); none when it is lost with them. The ENTRY_LAYER copies, the TOMBSTONES
and the MORAINE of an index return as pinned copies; a PREFILL that no commit took goes with its job (R306). -/
def Obj.afterLoss (o : Obj) (tierD : Bool) : Option Obj :=
  let wS := match o.s with
    | some c => if c.pinned then some c else none
    | none => o.wantS
  let loose := o.typ == 9 && o.job.isSome
  let o := { o with s := none, wantS := wS, ps4 := false }
  let o := if !tierD then o
    else { o with d := none, job := none, sealing := false, case_ := if o.case_ = 1 then 3 else o.case_,
                  wantD := match o.d with
                    | some c => if o.typ = 5 then some true else if c.pinned || o.window.isSome then some c.pinned else none
                    | none => o.wantD }
  if o.typ = 6 ∨ o.typ = 7 then some { o with wantD := if tierD then some true else o.wantD }
  else if o.nCopies = 0 ∨ (tierD ∧ (o.dropped ∨ loose)) then none
  else if o.f.isSome then some o else some { o with wantS := none }

/-- The object directory after a loss of tiers. -/
def State.loseTiers (s : State) (tierD : Bool) : State :=
  let dir := s.obj.dir.filterMap (fun (h, o) => (o.afterLoss tierD).map (fun o => (h, o)))
  { s with obj := { s.obj with dir := dir } }

/-- What a drive reset and a loss of power both lose (R473); a write of the firmware slot is cut (R455). -/
def State.loseVolatile (s : State) : State :=
  let s := (s.dropWaiting (fun _ => true)).dropJobs
  let s := (s.loseTiers true).reapExtents.reapIndex
  let tiles := s.tiles.map (fun (t, x) => (t, ({ phys := x.phys, lost := x.lost, acycFrom := s.time.now, generation := x.generation } : Tile)))
  let set := { s.set with live := remove 3 s.set.live, groups := [], heldGroups := [], refused := false, refnum := 0, lastDur := 0, step := 0,
                          nextSaddle := none, began := 0, event := false, held := false, overrun := false, earliest := 0 }
  let ch : ChainSt := { record := s.chain.record, gone := s.chain.gone, sent := s.chain.sent, asked := s.chain.asked, answered := s.chain.answered }
  let o := { s.obj with halted := [], haltUnits := [], trained := 0, temp := [] }
  let media := { s.media with chsel := 0, diesel := 0, chans := s.media.chans.map (fun (c, x) => (c, { x with trained := false })),
                              dies := s.media.dies.map (fun (d, x) => (d, { x with failed := false, otpBad := false, calDef := false, temp := 0, tempRead := false })) }
  let h := { s.host with ctrls := [], tags := [], events := [] }
  let ecc := { s.ecc with memsel := 0, bad := s.ecc.bad.filter (fun w => w.kind == 3) }
  let reg := { s.reg with tilesel := 0, tilephys := false, stksel := 0, portsel := 0, resetStatus := 0, busy := false }
  let sec := { s.sec with mbk := false, staged := [], pieces := [], slotWrite := none, slotCut := s.sec.slotCut || s.sec.slotWrite.isSome }
  let t := { s.time with choff := 0, readAt := 0, cols := [] }
  { s with tiles := tiles, engines := [], set := set, chain := ch, obj := o, media := media, host := h, ecc := ecc, reg := reg, sec := sec,
           time := t, pwr := { s.pwr with ps := 0, lastOp := 0, entering := none, exiting := false },
           link := { s.link with mesh := [], meshTrained := 0, pcieRate := 0, pcieLanes := 0 }, ftl := { s.ftl with mapLive := false, closing := [] } }

/-! ## Firmware faults (R431, R432) -/

/-- A firmware fault of a control core (R432): fetching stops, the flush runs, CTRL_FAULT, and CSTS.CFS on every controller. Jobs end without
completions, and nothing is served until a reset. Causes are 0 UE, 1 exception, 2 watchdog. -/
def State.firmwareFault (s : State) (core cause : Nat) : State :=
  if s.boot.phase = .off ∨ s.boot.phase = .faulted ∨ s.boot.phase = .shutDown then s
  else
    let s := (s.dropWaiting (fun _ => true)).dropJobs.powerFlush.stamp srcMgmt 0x74 (BitVec.ofNat 3 core ++ BitVec.ofNat 4 cause ++ (0 : BitVec 21))
    let s := s.allCtrls (fun k => { k with cfs := true })
    { s with boot := { s.boot with phase := .faulted, again := none } }

/-! ## Drive and PF resets (R466, R473) -/

/-- The 576 bytes of stage records, the tile map and the replacements: a boot report (R446). -/
def State.bootReport (s : State) : List Byte :=
  let records := (List.range 9).flatMap (fun n => getD (List.replicate 64 0) s.boot.report n)
  let map := (List.range 272).flatMap (fun p =>
    let t := allTiles.find? (fun t => s.physOf t == p && !(s.tile t).lost)
    leBytes 2 ((match t with
      | some t => 32768 + t
      | none => 0) + if s.boot.failedTiles.contains p || s.boot.s4Failed.contains p then 16384 else 0))
  let reps := (List.range 16).flatMap (fun i => leBytes 16 ((s.boot.replacements[i]?).getD 0).toNat ++ List.replicate 16 0)
  records ++ map ++ reps ++ List.replicate 2464 0

/-- Cairns held until map memory is trained go to the log (R444); what waited for room in an island's queue follows (R188). -/
def State.flushUnlogged (s : State) : State :=
  let held := s.time.unlogged
  let t := { s.time with unlogged := [], logUp := true }
  let s := { s with time := held.foldl (fun (t : TimeSt) (c, a) => t.logCairn c a) t }
  ((s.time.stalled.map (fun c => c.source)).eraseDups).foldl State.unstall s

/-- The boot ROM enters recovery (R456): it trains map memory, when a loss of power has taken its training (R447), and channels 0 to 3 alone. -/
def State.enterRecovery (s : State) (cause : Nat) : State :=
  let chans := (List.range 4).foldl (fun m c => put c { getD ({} : Chan) m c with trained := true } m) s.media.chans
  let s := { s with boot := { s.boot with phase := .recovery }, rcv := { cause := BitVec.ofNat 4 cause }, media := { s.media with chans := chans } }
  if s.time.logUp then s else s.flushUnlogged

/-- S0 ends (R441, R445): its record; bring-up goes on once the connector has 12 V (R477), into recovery when RCVCTL.ENTER asked for it. -/
def State.endS0 (s : State) (cause : Nat) : State :=
  let s := { s with boot := { s.boot with test := !s.boot.testN && (s.boot.test || s.sec.debug) } }
  if !s.pwr.aux12 then { s with boot := { s.boot with phase := .awaiting } }
  else
    let d := [BitVec.ofNat 8 cause, s.sec.fusedSvn, s.sec.revoked.setWidth 8, 0] ++ leBytes 4 Config.bootRom.toNat
    let s := s.stageDone 0 0 d
    if cause = 6 then s.enterRecovery 6
    else { s with boot := { s.boot with phase := .stage 1 } }

/-- A drive reset (R466, R471, R473, R479, R490): steps 1 and 2 of the flush, then everything but the management and power domains, map memory, drive
time and the Penla ports; S0 follows, with a measurement of the hold-up bank and the level of TEST_N, which only PERST# brings and is free else (log entry
214). Nothing happens while the card has no power to run S0. -/
def State.driveReset (s : State) (cause : Nat) : State :=
  if s.boot.phase = .off ∨ s.boot.phase = .shutDown then s
  else
    let s := (s.settleDies.discardStaged).loseVolatile.resetIslands driveIslands
    let (pin, s) := s.draw
    let testN := if cause = 1 then s.boot.testN else Config.testN pin
    let boot := { s.boot with testN := testN, previous := s.bootReport, report := [], idle := [], cause := BitVec.ofNat 8 cause, started := s.time.now, zero := s.time.now,
                              again := none }
    let sec := { s.sec with debug := s.sec.debug || s.sec.debugNext, noBind := s.sec.debugNext, debugNext := false }
    let pwr := { s.pwr with measuring := true, measureAt := s.time.now + 86400000000000 }
    ({ s with boot := boot, rcv := {}, sec := sec, pwr := pwr }).endS0 cause

/-- Every tile, spares too, and every engine is reset and loses its SRAM and instruction store (R473). -/
def State.wipeUnits (s : State) : State :=
  let s := allTiles.foldl State.resetTile s
  let s := allTiles.foldl (fun (s : State) t => s.setTile t { s.tile t with sram := [], texts := [] }) s
  let s := (List.range 16).foldl (fun (s : State) e => (s.resetEngine e).setEngine e {}) s
  let spares := (List.range 272).filter (fun p => allTiles.all (fun t => s.physOf t != p))
  let s := s.resetIslands spares
  { s with boot := { s.boot with idle := spares.map (fun p => (p, { acycFrom := s.time.now })) } }

/-- Errors of the memories that a PF reset loses go with them. -/
def State.dropUnitErrors (s : State) : State :=
  { s with ecc := { s.ecc with bad := s.ecc.bad.filter (fun w => decide (2 ≤ w.kind) && w.kind != 4) } }

/-- The power state is at its default (R473). -/
def State.powerDefault (s : State) : State := { s with pwr := { s.pwr with ps := 0, lastOp := 0, entering := none } }

/-- A PF reset (R466, R473): every tile and traversal engine is reset, Tier S and instruction stores are lost, and S4 and S5 run again, when they have run:
beside S6 to S8 (log entry 215), or in place of an S5 that had begun. Jobs on
them stop with PEER_RESET, those of `silent` controllers without completions. -/
def State.pfReset (s : State) (silent : Fin 33 → Bool) : State :=
  let s := (s.peersReset allTiles (List.range 16)).silenceJobs (fun j => silent j.ctrl)
  let s := ((s.wipeUnits.dropUnitErrors).loseTiers false).discardStaged
  let s := s.powerDefault
  match s.boot.phase with
  | .ready => { s with boot := { s.boot with again := some 4, started := s.time.now } }
  | .stage n =>
    if n.val < 5 then s
    else if n.val = 5 then { s with boot := { s.boot with phase := .stage 4, started := s.time.now } }
    else { s with boot := { s.boot with again := some 4, started := s.time.now } }
  | _ => s

/-- Whether BAR2 and the controllers are there and the control cores run (R442, R466): from S2 on. -/
def State.coresRun (s : State) : Bool :=
  match s.boot.phase with
  | .ready => true
  | .stage n => decide (2 ≤ n.val)
  | _ => false

end Sys2Proof.Machine
end

