-- ==== Sys2Proof/Machine/Background.lean ====
section
/-! DEFINITION. What the drive does by itself about objects, memories, tiles, control cores and links (08 R223, R236 to R241; 09 R274;
14 R419 to R432; 15 R464, R465, R470; 05 R137). -/
namespace Sys2Proof.Machine

/-! ## Objects (R223, R236 to R238, R274) -/

/-- OBJ_RESEALED (R237, R238): an IMPAIRED object of case 1 or 2 takes fresh Tier F copies from the copy that serves it, when there is room and
the DIGEST checks. A source copy that fails meanwhile moves it to case 3. -/
def execObjResealed (h : W32) (s : State) : Out :=
  .next (match s.obj? h with
  | none => s
  | some o =>
    if !s.ready ∨ o.state ≠ 2 ∨ (o.case_ ≠ 1 ∧ o.case_ ≠ 2) then s
    else if (o.case_ = 1 ∧ !s.wholeInD h o) ∨ (o.case_ = 2 ∧ !(s.secondGood o && s.sec.mbk)) then s.impair h
    else
      let o' := { o with state := 1, case_ := 0, f := some { stored := o.stored }, extent := none }
      let (n, t) := s.draw
      let t := t.setObj h o'
      let plan := o'.plan o'.stored (unitChannel [] (s.channelsFor o') (Config.sealChannel n))
      if s.ftl.readOnly || !t.fits plan || digestOf (o.data.rdBytes 0 o.size) != o.digest then s
      else (t.stamp (srcControl 0) 0x4A (h.setWidth 28)).placeUnits h plan)

/-- The bytes of a row descriptor (R268). -/
def Row.descriptor (r : Row) : List Byte :=
  leBytes 8 r.key.toNat ++ leBytes 5 r.node ++ [r.label, if r.del then 1 else 0, 0] ++ leBytes 6 r.sup ++ [0, 0] ++ leBytes 8 r.step.toNat

/-- The bytes of rows as a MORAINE_LOG segment: the arrays of R267, code rows, descriptors and stored vectors in turn (log entry 51). Every row,
a delete's too, has its M / 2 and its V bytes; those of a delete are 0 (log entry 177). -/
def segmentBytes (d : IndexD) (rows : List Row) : List Byte :=
  rows.flatMap (fun r => leBytes (d.m / 2) (packCodes 4 r.codes)) ++ rows.flatMap Row.descriptor ++
    rows.flatMap (fun r => leBytes d.v (leNat (r.vcode ++ r.vmeta.flatMap (fun w => leBytes 4 w.toNat))))

/-- MORAINE_SEGMENT (R274): the oldest 65,536 rows in Tier D are sealed in pSLC. Without room in Tier F they stay. -/
def execMoraineSegment (index : W32) (s : State) : Out :=
  .next (match s.index? index, s.indexD? index, s.obj? index with
  | some x, some d, some cb =>
    let held := x.rows.filter (fun (n, _) => decide (x.sealedTo ≤ n))
    let seg := held.take 65536
    match seg with
    | [] => s
    | (first, _) :: _ =>
      if !s.ready ∨ held.length ≤ d.moraineRows ∨ seg.length < 65536 then s
      else
        let bytes := segmentBytes d (seg.map Prod.snd)
        let o : Obj := { typ := 0x0A, owner := cb.owner, size := bytes.length, state := 0, copies := 1 }
        match s.createObj o with
        | none => s
        | some (h, t) => match t.sealInto h o bytes (storedOf 0x0A h bytes.length) with
          | (0, t) => (t.updIndex index (fun x => { x with segs := x.segs ++ [(h, first)], sealedTo := first + 65536 })).stamp (srcControl 0) 0x51 (h.setWidth 28)
          | _ => s
  | _, _, _ => s)

/-- BLOCK_MOVE (R236, R377): stored units of a sealed object move out of blocks of which fewer than a quarter of the units are live, or that are due
for a refresh, and its directory entry with them. A unit that does not read stays. Blocks without a live unit are erased. -/
def execBlockMove (h : W32) (units : List Nat) (s : State) : Out :=
  .next (match s.obj? h with
  | none => s
  | some o => match o.f with
    | none => s
    | some f =>
      let at_ (u : Nat) : Nat × Nat × Bool := o.numbered f.stored u
      let ok := (units.filter (fun u => s.unitReads f (at_ u).1 (at_ u).2.1 &&
        ((f.place? (at_ u).1 (at_ u).2.1).map (fun a => s.movesFrom (a / 2048))).getD false)).eraseDups
      if !s.ready ∨ !s.sec.mbk ∨ o.state ≠ 1 then s
      else
        let s := s.setObj h { o with f := some { f with moved := (f.moved ++ ok).eraseDups } }
        (ok.foldl (fun s u => s.moveUnit h (at_ u).2.2 (at_ u).1 (at_ u).2.1) s).reapSealed)

/-- Evicts the evictable copies that stand in rows which a pinned copy takes back, the one touched longest ago first (R227, R228). -/
def State.clearRows (s : State) (h : W32) (size : Nat) (c : SCopy) : State :=
  (List.range s.obj.dir.length).foldl (fun s _ =>
    match firstTouched true (s.obj.dir.filter (fun (k, o) => k != h.toNat && s.evictable k o true && s.overRows k size c)) with
    | some (k, o) => s.evict k o true
    | none => s) s

/-- PINNED_RELOAD (R223, R237, R255, R473): a pinned copy that a reset lost is loaded from Tier F again, from S8 on, or after S5 runs again. -/
def execPinnedReload (h : W32) (tierS : Bool) (s : State) : Out :=
  .next (match s.obj? h with
  | none => s
  | some o =>
    if !s.ready ∨ s.boot.again.isSome then s
    else if tierS then
      match o.wantS with
      | none => s
      | some c =>
        if c.tiles.any (fun t => (s.tile t).lost) then s
        else match s.load h o with
        | (0, s) =>
          let t := s.clearRows h o.size c
          if !c.tiles.all (fun u => t.rowsFree u c.brow (c.heldBy o.size u) h.toNat) then t
          else t.placeS h { ((t.obj? h).getD o) with wantS := none } { c with touch := s.time.now }
        | (_, s) => s
    else match o.wantD with
      | none => s
      | some pin =>
        match o.d with
        | some d => s.setObj h { o with wantD := none, d := some { d with pinned := pin || d.pinned } }
        | none => match (if o.typ = 6 ∨ o.typ = 7 then (stOk, s) else s.load h o) with
          | (0, s) => (match State.roomD s.obj.dir.length s (unitsOf o.size) with
            | (false, s) => s
            | (true, s) => s.setObj h { ((s.obj? h).getD o) with wantD := none, d := some (s.newD h o.size pin) })
          | (_, s) => s)

/-! ## Tier D channels (R239 to R241) -/

/-- The object whose Tier D copy holds an address of a stack, with the unit of its copy: a copy's lines alternate between the stacks, so each unit
has lines on both (R222, log entry 15). -/
def State.ownerInD (s : State) (addr : Nat) : Option (Nat × Obj × Nat) :=
  s.obj.dir.findSome? (fun (h, o) => match o.d with
    | none => none
    | some c => ((List.range (unitsOf o.size)).find? (fun u => c.loc (BitVec.ofNat 32 h) u == addr / 65536)).map (fun u => (h, o, u)))

/-- A 64 KiB unit of Tier D is retired for the rest of the power-on, and the unit of the copy that lies there gets another location (R239). -/
def State.retireUnit (s : State) (st u : Nat) : State :=
  let o := s.obj
  let owner := s.ownerInD (65536 * u)
  let s := { s with obj := { o with retired := put st (satInc (getD 0 o.retired st)) o.retired, retiredUnits := o.retiredUnits ++ [(st, u)] } }
  match owner with
  | none => s
  | some (h, _, v) => s.updObj (BitVec.ofNat 32 h) (fun o => { o with d := o.d.map (fun c =>
      { c with moved := c.moved ++ List.replicate (1 + s.passed (BitVec.ofNat 32 h) v (c.moved.count v + 1)) v }) })

/-- Whether every byte of the Tier F copy that lies in a 64 KiB unit of an object reads, so that the unit can be loaded again (R237, R239). -/
def State.restores (s : State) (o : Obj) (u : Nat) : Bool :=
  (List.range (Nat.min 65536 (o.size - 65536 * u))).all (fun i => s.tierFReads o (65536 * u + i))

/-- A unit of a Tier D copy cannot be loaded again, for its Tier F copy does not read either: it stays unreadable, and the object takes R237's path. -/
def State.unrestored (s : State) (h : W32) (u : Nat) : State :=
  (s.updObj h (fun o => { o with d := o.d.map (fun d => { d with bad := if d.bad.contains u then d.bad else d.bad ++ [u] }) })).impair h

/-- DMA_CHANNEL_RESTART (R239): the unit is reloaded from Tier F, or moved and the faulty unit retired when the error persists; the channel
restarts and its transfers run again. Without a Tier F copy there is nothing to restore (R241); one that does not read takes the object into
R237. -/
def execDmaChannelRestart (stack : Fin 2) (ch : Fin 16) (persists : Bool) (s : State) : Out :=
  let st := stack.val
  let key := 16 * st + ch.val
  .next (if !s.obj.halted.contains (st, ch.val) then s
  else
    let o := s.obj
    let unit := find key o.haltUnits
    let left := o.halted.filter (fun x => x != (st, ch.val))
    let obj := { o with halted := left, haltUnits := remove key o.haltUnits }
    let bad := match unit with
      | some u => s.ecc.bad.filter (fun w => !(w.kind == 2 && w.unit == st && w.addr / 65536 == u))
      | none => s.ecc.bad
    let xs := s.host.xfers.map (fun x => if x.halted == some (st, ch.val) then { x with halted := none } else x)
    let s := { s with obj := obj, ecc := { s.ecc with bad := bad }, host := { s.host with xfers := xs } }
    let s := match unit with
      | some u => (match s.ownerInD (65536 * u) with
        | some (h, o, v) => if o.f.isSome && !s.restores o v then s.unrestored (BitVec.ofNat 32 h) v
          else if persists then s.retireUnit st u else s
        | none => if persists then s.retireUnit st u else s)
      | none => s
    if left.any (fun x => x.2 == ch.val) then s
    else
      let e := s.engine ch.val
      s.setEngine ch.val { e with ctxs := e.ctxs.map (fun (k, c) => (k, { c with halted := false })) })

/-! ## Tile SRAM (R424) -/

/-- The bytes of a Tier S row of tile `t` as another copy of the object gives them (R158, R424); none when no other copy holds them. -/
def State.otherBytes (s : State) (o : Obj) (t off n : Nat) : Option (List Byte) :=
  let rest := o.s.map (fun c => { c with tiles := c.tiles.filter (fun u => u != t) })
  let o' := { o with s := match rest with
    | some c => if c.stripe || c.tiles.isEmpty then none else some c
    | none => none }
  s.objBytes o' 256 off n

/-- The object whose Tier S copy holds an address of tile `t`, and the byte of it that lies there (R221). -/
def State.copyAt (s : State) (t addr : Nat) : Option (W32 × Obj × Nat) :=
  s.obj.dir.findSome? (fun (h, o) => (o.s.bind (fun c => c.part o.size t 0 o.size)).bind (fun (a, i, k) =>
    if a ≤ addr ∧ addr < a + padTo 1024 k then some (BitVec.ofNat 32 h, o, i + (addr - a)) else none))

/-- The row of a Tier S copy that holds an address of tile `t`: its object, and the offset and length of what the row holds of it. -/
def State.rowAt (s : State) (t addr : Nat) : Option (Obj × Nat × Nat) :=
  (s.obj.dir.filter (fun (_, o) => (o.s.map (fun c => decide (1024 * c.brow ≤ addr) && decide (addr < 1024 * (c.brow + c.heldBy o.size t)))).getD false)).head?.bind
    (fun (_, o) => o.s.map (fun c =>
      let off := (if c.stripe then padTo 1024 (ceilDiv o.size (Nat.max 1 c.total)) * c.rank t else 0) + 1024 * (addr / 1024 - c.brow)
      (o, off, Nat.min 1024 (o.size - off))))

/-- The address of the row of a Tier S copy that holds an address of tile `t`, and its bytes from another copy (R424). -/
def State.rowCopy (s : State) (t addr : Nat) : Option (Nat × Option (List Byte)) :=
  (s.rowAt t addr).map (fun (o, off, n) => (1024 * (addr / 1024), s.otherBytes o t off n))

/-- The address of that row, and its bytes from Tier F (R239, R427). -/
def State.rowFromF (s : State) (t addr : Nat) : Option (Nat × Option (List Byte)) :=
  (s.rowAt t addr).map (fun (o, off, n) => (1024 * (addr / 1024), s.objBytes { o with s := none, d := none } 256 off n))

/-- A core fails with DATA_ECC, which no handler takes (R424, R129). -/
def State.fatalEcc (s : State) (t : Nat) (c : Fin 4) (addr : Nat) : State :=
  let ag : Agent := .core (Fin.ofNat 256 t) c
  let r := s.regs ag
  let tval : W64 := BitVec.ofNat 64 addr
  let (det, att) := s.trapCairn ag 3 r.pc tval
  let s := (s.setRegs ag { r with tpc := r.pc, tcause := 3, tval := tval, tctl := r.tctl ||| 2, run := .failed }).stampAt (s.srcOf ag) 0x31 det att
  s.updJob? r.job (fun j => { j with stop := j.stop.or (some stProgramTrap) })

/-- The core whose transfer or array instruction met the error that halted the tile. -/
def State.heldCores (s : State) (t : Nat) : List (Fin 4) := coreIds.filter (fun c => (s.tile t).haltBy == some c.val)

/-- TILE_SRAM_RELOAD (R424): the bank row is reloaded from another copy, and the halted work runs again; when the error persists the tile is
retired for a spare. Without another copy the program fails with DATA_ECC. -/
def execTileSramReload (tile : Fin 256) (persists : Bool) (s : State) : Out :=
  let t := tile.val
  .next (match (s.tile t).halted with
  | some (some a) =>
    match s.rowCopy t a with
    | some (row, some bytes) =>
      let s := (s.sramWrite t row bytes).eccWritten 0 (s.physOf t) row 1024
      if persists then s.moveTile t else s.setTile t { s.tile t with halted := none, haltBy := none }
    | _ =>
      let cs := s.heldCores t
      let s := cs.foldl (fun s c => s.fatalEcc t c a) s
      let s := { s with host := { s.host with xfers := s.host.xfers.map (fun (x : Xfer) =>
        if x.tile = t ∧ cs.any (fun c => c.val == x.core) then { x with cut := true } else x) } }
      s.setTile t { (s.tile t).dropEntries (fun e => cs.any (fun c => c.val == e.core)) with halted := none, haltBy := none }
  | _ => s)

/-! ## Counts (R440) -/

/-- ECC_CE (R440): the correctable errors of a kind since the last such cairn, at most one cairn per kind in a millisecond. -/
def execEccCe (kind : Fin 6) (s : State) : Out :=
  let k := s.eccKind kind.val
  .next (if k.sinceCe = 0 ∨ (k.ceAt.map (fun t => decide (s.time.now.toNat < t.toNat + 1000000))).getD false = true then s
  else (s.setEccKind kind.val { k with sinceCe := 0, ceAt := some s.time.now }).stamp (srcControl 0) 0x70
    (BitVec.ofNat 3 kind.val ++ BitVec.ofNat 25 (Nat.min k.sinceCe 0x1FFFFFF)))

/-! ## Map memory (R425) -/

/-- What an uncorrectable word of map memory holds (R425; which content an address holds is not specified, log entry 46): 0 the translation map,
1 a write-buffer slot, 2 the directory or prefill map, 3 a block-state record, 4 a cairn-log entry, 5 the Rinsis reserve. -/
def State.mapError (s : State) (addr : Nat) : State :=
  let (kind, item) := Config.mapWord addr
  let fixed := { s with ecc := { s.ecc with bad := s.ecc.bad.filter (fun w => !(w.kind == 3 && w.addr == addr / 8 * 8)) } }
  if kind % 6 = 0 then s
  else if kind % 6 = 1 then
    match fixed.ftl.buf[item % Nat.max 1 fixed.ftl.buf.length]? with
    | none => fixed
    | some (i, u) =>
      if u.kind != .data then fixed
      else
        let v := { u with data := overSlots u.valid [] u.data, lost := u.lost ||| u.valid }
        let (cairn, t) := fixed.unitLost v u.valid
        ({ t with ftl := { t.ftl with buf := put i v t.ftl.buf } }).deferError v u.valid cairn false
  else if kind % 6 = 3 then
    let d := item / 4096 % 512
    match ((fixed.die d).blk (item % 4096)).use with
    | .extent _ _ => fixed.queueCheck d (item % 4096)
    | _ => fixed.driveReads d (item % 4096) [((fixed.die d).blk (item % 4096)).wp]
  else if kind % 6 = 4 then
    let n := item % Nat.max 1 fixed.time.log.length
    { fixed with time := { fixed.time with log := fixed.time.log.zipIdx.map (fun (e, i) => if i = n then { e with bits := 0 } else e) } }
  else if kind % 6 = 5 then fixed.firmwareFault 0 0
  else fixed

/-- MAP_ENTRY_REBUILT (R425): the entries of the translation map that an uncorrectable word held are rebuilt from flash, which names the places that
the map named (R374, R376), and the units wait no more; which units they are is free (log entry 46). -/
def execMapEntryRebuilt (s : State) : Out :=
  .next (match s.ecc.bad.find? (fun w => w.kind == 3) with
  | none => s
  | some w =>
    ({ s with ecc := { s.ecc with bad := s.ecc.bad.filter (fun x => x != w) } }).stamp (srcControl 0) 0x75
      (BitVec.ofNat 28 (s.ftl.map.countP (fun (x : Nat × MapEnt) => Config.mapHolds w.addr (x.1 / 4294967296) (x.1 % 4294967296)))))

/-! ## The scree walker (R426, R427) -/

/-- The rate setting of a kind (R419); none for the kinds that are always walked. -/
def rateSetting (kind : Nat) : Option Nat := if kind ≤ 1 then some 0x10 else if kind = 2 then some 0x11 else if kind = 3 then some 0x12 else none

/-- Bytes of a pass over a kind (R426, R427). -/
def passBytes (kind : Nat) : Nat :=
  if kind = 0 then 536870912 else if kind = 1 then 17825792 else if kind = 2 then 154618822656 else if kind = 3 then 34359738368
  else 1024 * (1 + Config.memBytes kind)

/-- The i-th logical tile in ascending physical index. -/
def State.tileByPhys (s : State) (i : Nat) : Nat := ((allTiles.mergeSort (fun a b => decide (s.physOf a ≤ s.physOf b)))[i]?).getD 0

/-- Unit, byte address and logical tile of the line at a position of a kind (R426). -/
def State.lineAt (s : State) (kind pos : Nat) : Nat × Nat × Nat :=
  if kind = 0 then
    let t := s.tileByPhys (pos / 1024 % 256)
    (s.physOf t, 1024 * (pos / 262144) + pos % 1024, t)
  else if kind = 1 then
    let i := pos / 65536
    if i < 256 then (s.physOf (s.tileByPhys i), pos % 65536, s.tileByPhys i) else (272 + (i - 256), pos % 65536, 256)
  else if kind = 2 then (pos / 4096 % 2, 4096 * (pos / 8192) + pos % 4096, 0)
  else if kind = 3 then (0, pos, 0)
  else
    let per := passBytes kind / (if kind = 4 then 16 else 8)
    (pos / per, pos % per, 0)

/-- The first position from `pos` on whose line is not in a retired unit of Tier D (R426), and whether the pass ends before it. -/
def State.skipRetired (s : State) (kind : Nat) : Nat → Nat → Nat
  | 0, pos => pos
  | n + 1, pos =>
    let (u, a, _) := s.lineAt kind pos
    if kind = 2 ∧ pos < passBytes kind ∧ s.obj.retiredUnits.contains (u, a / 65536) then s.skipRetired kind n (4096 * (pos / 4096 + 1)) else pos

/-- What the walker does about an uncorrectable word that no agent waits for (R427): one of a copy that Tier F backs, a program's text among them, is reloaded, and
its Tier D unit moved or its tile retired when the error persists (R238, R239, R424; log entry 208); one of a ready object makes the unit unreadable (R241); elsewhere it is zeroed. What a word of an
engine's memory is for is not specified, so its zeros show in no walk (log entry 47). -/
def State.scrubUe (s : State) (kind unit addr t : Nat) : State :=
  let w := addr / 8 * 8
  let healed (s : State) : State := { s with ecc := { s.ecc with bad := s.ecc.bad.filter (fun x => !(x.kind == kind && x.unit == unit && x.addr == w)) } }
  let zero8 : List Byte := List.replicate 8 0
  if kind = 0 then
    match s.copyAt t w with
    | none => s.sramWrite t w zero8
    | some (h, o, i) => if o.f.isNone then s.loseUnit h (i / 65536)
      else match s.rowFromF t w with
        | some (row, some bytes) =>
          let (n, s) := ((s.sramWrite t row bytes).eccWritten 0 unit row 1024).draw
          if Config.persists n then s.moveTile t else s
        | _ => s
  else if kind = 1 then
    healed (if unit < 272 then s.setTile t { s.tile t with texts := (s.tile t).texts.map (fun (h, x) =>
        (h, if ((s.obj? (BitVec.ofNat 32 h)).map (fun o => o.f.isSome)).getD false then x else x.set (w / 8) 0)) }
      else
        let e := s.engine (unit - 272)
        s.setEngine (unit - 272) { e with text := e.text.set (w / 8) 0 })
  else if kind = 2 then
    match s.ownerInD w with
    | none => healed s
    | some (h, o, u) =>
      let r := BitVec.ofNat 32 h
      if o.f.isNone then s.loseUnit r u
      else if o.case_ = 1 ∨ o.case_ = 3 then
        s.unrestored r u
      else if !s.restores o u then (healed s).unrestored r u
      else
        let (n, s) := (healed s).draw
        if Config.persists n then s.retireUnit unit (w / 65536) else s
  else if kind = 3 then s.mapError w
  else if kind = 4 then healed s
  else s.firmwareFault unit 0

/-- The island of the walker of a line. -/
def State.walkerSrc (s : State) (kind unit t : Nat) : BitVec 9 :=
  if kind = 0 then s.srcTile t
  else if kind = 1 then (if unit < 272 then BitVec.ofNat 9 unit else srcEngine (unit - 272))
  else if kind = 2 then srcDram unit
  else if kind = 3 then srcMap
  else if kind = 4 then srcEngine unit
  else srcControl unit

/-- SCRUB_LINE (R420, R426, R427): the walker reads the line at its position; an error is corrected or handled; at the end of the kind a pass
ends with SCRUB_PASS. A rate of 0 stops it. The S walker visits the tiles, then the instruction stores. -/
def execScrubLine (kind : Fin 6) (m : EccHit) (s : State) : Out :=
  let k := kind.val
  let x := s.eccKind k
  let stopped : Bool := match rateSetting k with
    | some n => s.liveOf n == 0
    | none => false
  let turn : Bool := if k = 0 then x.passes == (s.eccKind 1).passes else if k = 1 then x.passes != (s.eccKind 0).passes else true
  .next (if !s.ready || stopped || !turn then s
  else
    let pos := s.skipRetired k (32 * s.obj.retiredUnits.length) x.pos.toNat
    let (unit, line, t) := s.lineAt k pos
    let src := s.walkerSrc k unit t
    let inLine (a : BitVec 40) : BitVec 40 := BitVec.ofNat 40 (line + a.toNat % 64)
    let s := if passBytes k ≤ pos then s
      else
        let bad := s.ecc.bad.filter (fun w => w.kind == k && w.unit == unit && decide (w.addr < line + 64) && decide (line < w.addr + 8))
        let s := bad.foldl (fun (s : State) w => (s.noteUe src k unit 1 (BitVec.ofNat 40 w.addr)).scrubUe k unit w.addr t) s
        match m with
        | .clean => s
        | .correctable b a => s.noteCe k unit 1 b (inLine a)
        | .uncorrectable a => if bad.any (fun w => w.addr == (inLine a).toNat / 8 * 8) then s else (s.noteUe src k unit 1 (inLine a)).scrubUe k unit (inLine a).toNat t
    let y := s.eccKind k
    if pos + 64 < passBytes k then s.setEccKind k { y with pos := BitVec.ofNat 64 (pos + 64) }
    else
      let n := y.passes + 1
      (s.setEccKind k { y with pos := 0, passes := n }).stamp (srcControl 0) 0x72 (BitVec.ofNat 3 k ++ n.setWidth 25))

/-! ## Tiles and control cores (R431, R470) -/

/-- TILE_FAILURE (R470): the tile's cores halt and its state goes to a spare; a tile that does not answer is reset, its jobs fail with PEER_RESET,
and the spare takes its index with its state cleared. -/
def execTileFailure (tile : Fin 256) (answers : Bool) (s : State) : Out :=
  let t := tile.val
  .next (if !s.ready || (s.tile t).lost || (s.tile t).spare.isSome then s
  else if answers then s.moveTile t
  else
    let s := s.groupReset (BitVec.ofNat 16 t) [t]
    match s.spareOf t with
    | none => s.loseTile t
    | some p =>
      let s := (s.obj.dir.filter (fun (_, o) => (o.s.map (fun c => c.tiles.contains t)).getD false)).foldl (fun (s : State) (h, o) => s.loseS h o) s
      s.setTile t { s.tile t with sram := [], texts := [], halted := some none, spare := some p, dead := true })

/-- WATCHDOG_EXPIRY (R431, R432). -/
def execWatchdogExpiry (core : Fin 8) (s : State) : Out := .next (s.firmwareFault core.val 2)

/-- CONTROL_CORE_EXCEPTION (R431, R432). -/
def execControlCoreException (core : Fin 8) (s : State) : Out := .next (s.firmwareFault core.val 1)

/-! ## Links (R429, R430, R464, R465, R137) -/

/-- A port's traffic loops out of the other port (R465): RING_WRAP. The flits of its replay buffer, the last of those it sent, leave by the other port; one for
a neighbour that is lost is dropped with a NACK (log entry 216). A ring that is wrapped at the port stays so. -/
def State.wrapPort (s : State) (p : Nat) : State :=
  if (s.port p).wrapped then s
  else
    let (k, s) := s.draw
    let n := (s.chain.record.map (fun r => r.n)).getD 1
    let next := if p = 0 then (s.ringPos.toNat + 1) % n else (s.ringPos.toNat + n - 1) % n
    let replay := (s.port p).sent.drop ((s.port p).sent.length - Config.unacked k % 513)
    let again := replay.map (fun (dest, x, nack) => (dest, x, nack || (Config.neighbourLost k && dest == next)))
    let s := (s.updPort p (fun x => { x with wrapped := true, unwrap := false })).updPort (1 - p) (fun x => { x with sent := x.sent ++ again })
    s.stamp (srcPenla p) 0x7C (BitVec.ofNat 28 (67108864 * p))

/-- LANE_FAILURE (R429): the port runs on 7 lanes; a second failed lane takes it down, and the ring wraps (R465). -/
def execLaneFailure (port : Fin 2) (lane : Fin 8) (s : State) : Out :=
  let p := port.val
  .next (
    let x := s.port p
    if !x.lanes.getLsbD lane.val then s
    else
      let lanes := x.lanes &&& ~~~ bitOf lane.val
      let down := x.lanes ≠ 0xFF
      let s := s.updPort p (fun x => { x with lanes := if down then 0 else lanes, uncorr := BitVec.ofNat 32 (Nat.min (x.uncorr.toNat + 1025) 0xFFFFFFFF) })
      let s := s.stamp (srcPenla p) 0x73 ((if down then 0 else lanes).setWidth 28)
      if down then s.wrapPort p else s)

/-- PORT_RETRAIN (R429, R430): 8 failed replays of a flit, then a retrain. -/
def execPortRetrain (port : Fin 2) (s : State) : Out :=
  .next (s.updPort port.val (fun x => { x with retrains := satInc x.retrains, replays := BitVec.ofNat 32 (Nat.min (x.replays.toNat + 8) 0xFFFFFFFF) }))

/-- MESH_LINK_FAILURE (R429): traffic reroutes; LINK_DEGRADED. Links are numbered as the router groups number them. -/
def execMeshLinkFailure (link : BitVec 26) (s : State) : Out :=
  .next (if s.link.mesh.contains link.toNat then s
  else
    ({ s with link := { s.link with mesh := s.link.mesh ++ [link.toNat] } }).stamp (srcRouter (link.toNat % 16)) 0x73 ((1 : BitVec 1) ++ (0 : BitVec 1) ++ link))

/-- RING_WRAP (R465). -/
def execRingWrap (port : Fin 2) (s : State) : Out := .next (s.wrapPort port.val)

/-- The codewords that a port's lanes corrected or failed, and the flits replayed for it, since its last flit (R429, R430; log entry 146). -/
def State.linkCounts (s : State) (p : Nat) : State :=
  let (k, s) := s.draw
  let plus (c : W32) (i : Nat) : W32 := BitVec.ofNat 32 (Nat.min (c.toNat + Config.linkErrors k i) 0xFFFFFFFF)
  s.updPort p (fun x => { x with corr := plus x.corr 0, uncorr := plus x.uncorr 1, replays := plus x.replays 2 })

/-- FLIT_FORWARD (R464): a flit that arrives at a port for another drive leaves by the other port, or by the port it came in at when that one is
wrapped; a flit for this drive is answered with a NACK when it holds no chain record, or when it is not present: a drive takes flits in S7, when it may
join, and from S8 on (log entry 213). Forwarding starts with Penla training and never stops. -/
def execFlitForward (port : Fin 2) (dest : Fin 8) (payload : W64) (s : State) : Out :=
  .next (
    let p := port.val
    let trained := (s.port p).lanes ≠ 0
    let mine := dest.val == s.ringPos.toNat
    if !trained then s
    else
    let s := s.linkCounts p
    if mine && s.chain.record.isSome && (s.ready || s.boot.phase == .stage 7) then s
    else if mine then s.updPort p (fun x => { x with sent := x.sent ++ [(dest.val, payload, true)] })
    else
      let out := if (s.port (1 - p)).wrapped || (s.port (1 - p)).lanes = 0 then p else 1 - p
      s.updPort out (fun x => { x with sent := x.sent ++ [(dest.val, payload, false)] }))

/-- LOST_LINK_TRAINS (R465): the port unwraps at the next chain saddle, which a drive outside chain-synchronous steps performs as its own. -/
def execLostLinkTrains (port : Fin 2) (s : State) : Out :=
  .next (if !(s.port port.val).wrapped then s
  else s.updPort port.val (fun x => { x with unwrap := true, lanes := if x.lanes = 0 then 0xFF else x.lanes }))

/-- Whether a job's group has a member among tiles of this drive, or on another drive. -/
def Job.hasMember (j : Job) (tiles : List Nat) (drive : Option Nat) : Bool :=
  match drive with
  | none => j.tiles.any (fun t => tiles.contains t)
  | some d => j.others.contains d

/-- The ranks of a job's members among tiles of this drive, or of another drive: all of its tiles where none is named. -/
def Job.ranksOf (j : Job) (here : Nat) (tiles : List Nat) (drive : Option Nat) : List Nat :=
  match drive with
  | none => (j.tiles.filter (fun t => tiles.contains t)).map j.rankOf
  | some d => (List.range j.nmem).filter (fun r => !j.localRank r && j.driveOf here r == d && (tiles.isEmpty || tiles.contains (j.tileOf r)))

/-- Ends the matrix instructions under RED that still wait for a member which takes part, one of ranks `rs` (R65, R137): a counter record of zeros,
the banks keep their contents. -/
def State.nackMatrix (s : State) (n : Nat) (code : W16) (rs : List Nat) (t : Nat) : State :=
  ((s.tile t).queue.filter (fun e => e.red && e.job == n && rs.any (fun r => decide (r < e.taking)))).foldl (fun (s : State) e =>
    s.writeEntry (Fin.ofNat 256 t) e ((s.tile t).queue.erase e) code) s

/-- Ends the group operations of a job that wait for a member with the code (R137, R172): GTOPK merges what has arrived. -/
def State.nackRecords (s : State) (n : Nat) (code : W16) (answered : Byte) : State :=
  let waiting := s.host.recs.filter (fun r => r.job == n && r.outcome.isNone && r.kind.call.isSome)
  waiting.foldl (fun (s : State) op =>
    if (s.host.recs.any (fun r => r.id == op.id && r.outcome.isSome)) then s
    else s.callShort op answered code) s

/-- NACK (R137, R464): a NACK for tiles of this drive that were reset, or from a drive of the chain that was reset or is missing. Transfers and
collective instructions that wait on the member end with PEER_RESET or MEMBER_MISSING. -/
def execNack (member : Fin 8) (reset : Bool) (tiles : List (Fin 256)) (s : State) : Out :=
  .next (
    let own := member.val == s.ownPos.toNat
    let code := if reset then stPeerReset else stMemberMissing
    let js := s.host.jobs.filter (fun j => j.phase == .admitted && j.hasMember (tiles.map (fun t => t.val)) (if own then none else some member.val))
    let answered : Byte := s.chain.present &&& ~~~ bitOf member.val
    js.foldl (fun (s : State) j =>
      let rs := j.ranksOf s.ownPos.toNat (tiles.map (fun t => t.val)) (if own then none else some member.val)
      let s := j.tiles.foldl (fun (s : State) t => s.nackMatrix j.num code rs t) s
      s.nackRecords j.num code answered) s)

end Sys2Proof.Machine
end

