-- ==== Sys2Proof/Machine/ChainAdmin.lean ====
section
/-! DEFINITION. CHAIN FORM and the chain's own events (15 R458 to R463). -/
namespace Sys2Proof.Machine

/-- Command Sequence Error. -/
def nvSequence : NvStatus := (0, 0x0C)

/-- Runs a CHAIN FORM of the given action (R459): its dwords hold nothing else, EXPECT apart. -/
def State.chainForm (s : State) (c : HostCmd) (action : Nat) (body : State → State) : State :=
  if c.cdw10.toNat ≠ action ∨ (action ≠ 0 ∧ c.cdw11 ≠ 0) ∨ 16 ≤ c.cdw11.toNat ∨ c.cdw12 ≠ 0 ∨ c.cdw13 ≠ 0 ∨ c.cdw14 ≠ 0 ∨ c.cdw15 ≠ 0 then
    s.fail c nvInvalidField
  else body s

/-- FORM (R460 steps 1 and 2): the probe flit leaves by port 0. -/
def execForm (c : HostCmd) (s : State) : Out :=
  .next (s.admin c (fun s => s.chainForm c 0 (fun s =>
    let expect := c.cdw11.toNat
    if expect < 2 ∨ 8 < expect then s.fail c nvInvalidField
    else if s.chain.record.isSome ∨ s.chain.probing.isSome then s.fail c nvSequence
    else { s with chain := { s.chain with probing := some (c, expect) } })))

/-- The drive's identity digest: the first 16 bytes of IDKEY (R458). -/
def State.ownDigest (s : State) : W128 := s.idKey.setWidth 128

/-- PROBE_RETURN (R460 steps 3 and 4): the ring is checked, and the record written as pending. `ring` holds what the other drives appended, in
ring order from position 1. -/
def execProbeReturn (ring : List DriveProbe) (s : State) : Out :=
  .next (match s.chain.probing with
  | none => s
  | some (c, expect) =>
    let done : State := { s with chain := { s.chain with probing := none } }
    if ring.length + 1 ≠ expect ∨ ring.any (fun d => !d.cabled) then done.failSt c stMemberMissing
    else if s.chain.record.isSome ∨ ring.any (fun d => !d.atS8 || d.holdsRecord || d.penlaVersion != s.sec.penlaVersion || d.stepPeriod == 0) ∨
        s.liveOf 1 = 0 then done.fail c nvInvalidField
    else
      let (k, s) := s.draw
      let (nsid, s) := s.takeNsid
      let r : ChainRec := { id := Config.chainId k, n := expect, pos := 0, digests := s.ownDigest :: ring.map (fun d => d.digest),
                            nsid := BitVec.ofNat 32 nsid, valid := false }
      { s with chain := { s.chain with record := some r, pos := 0 } })

/-- The next own saddle is held until an instant. -/
def State.setNext (s : State) (t : W64) : State := { s with set := { s.set with nextSaddle := some t } }

/-- The record of a chain becomes valid (R460 steps 4 to 6): the chain namespace exists, CHOFF is measured, and the next own saddle is held until
the first chain saddle, 12 ms after the commit in chain time, at which the master's STEP_PERIOD commits. -/
def State.formChain (s : State) (r : ChainRec) (masterTime : W64) (period : W32) (form : Option HostCmd) : State :=
  let present : Byte := BitVec.ofNat 8 (2 ^ r.n - 1)
  let at_ := s.time.now + 12000000
  let ch := { s.chain with record := some { r with valid := true }, probing := none, pos := r.pos, present := present,
                           joining := some { at_ := at_, period := period, present := present, form := form } }
  let s := { s with chain := ch, host := { s.host with nsChain := some r.nsid } }
  (s.measure masterTime).setNext at_

/-- The record that a member takes from the flit of another drive's FORM (R458): 2 to 8 members, this drive not the first of them, and each
member's digest, its own among them. -/
def memberRecord (own : W128) (m : MemberForm) : ChainRec :=
  let n := 2 + m.n % 7
  let pos := 1 + m.pos % (n - 1)
  { id := m.id, n := n, pos := BitVec.ofNat 3 pos,
    digests := (List.range n).map (fun i => if i = pos then own else (m.digests[i]?).getD 0), nsid := m.nsid, valid := true }

/-- COMMIT_FLIT (R182, R460 steps 4 to 6): at the drive that runs FORM, which is the master, and at a drive that another one's FORM makes a member:
what the flit says there is free, the record that the drive wrote as pending among it (log entry 53). -/
def execCommitFlit (s : State) : Out :=
  .next (s.orStall <| match s.chain.record, s.chain.probing with
  | some r, some (c, _) => if r.valid then s else s.formChain r s.time.now ((s.liveOf 1).setWidth 32) (some c)
  | some r, none =>
    if r.valid || !s.ready || s.liveOf 1 == 0 then s
    else
      let (k, s) := s.draw
      let m := Config.formFlit k
      let period := if m.period = 0 ∨ !scalarRange 1 m.period.toNat then (s.liveOf 1).setWidth 32 else m.period
      s.formChain r m.masterTime period none
  | none, none =>
    if !s.ready || s.liveOf 1 == 0 then s
    else
      let (k, s) := s.draw
      let m := Config.formFlit k
      let period := if m.period = 0 ∨ !scalarRange 1 m.period.toNat then (s.liveOf 1).setWidth 32 else m.period
      s.formChain (memberRecord s.ownDigest m) m.masterTime period none
  | _, _ => s)

/-- PROBE_FLIT_TIMEOUT (R460 step 3). -/
def execProbeFlitTimeout (s : State) : Out :=
  .next (match s.chain.probing, s.chain.record with
  | some (c, _), none => ({ s with chain := { s.chain with probing := none } }).failSt c stMemberMissing
  | _, _ => s)

/-- LEAVE and DISSOLVE (R463) wait for the next chain saddle. A drive without a record has nothing to leave (log entry 54). -/
def State.endChain (s : State) (c : HostCmd) (dissolve : Bool) : State :=
  if !((s.chain.record.map (fun r => r.valid)).getD false) || s.chain.ending.isSome then s.fail c nvSequence
  else { s with chain := { s.chain with ending := some (c, dissolve) } }

/-- LEAVE (R463). -/
def execLeave (c : HostCmd) (s : State) : Out := .next (s.admin c (fun s => s.chainForm c 1 (fun s => s.endChain c false)))

/-- DISSOLVE (R463). -/
def execDissolve (c : HostCmd) (s : State) : Out := .next (s.admin c (fun s => s.chainForm c 2 (fun s => s.endChain c true)))

/-- FIRMWARE (R463): it completes at the next chain saddle; dword 0 names the present members whose slots then hold this drive's image, of those that
answer. A second one before that is out of sequence (log entry 54). -/
def execFirmware (c : HostCmd) (answers : List (Fin 8)) (s : State) : Out :=
  .next (s.admin c (fun s => s.chainForm c 3 (fun s =>
    let got : Byte := answers.foldl (fun b p => b ||| bitOf p.val) (bitOf s.ringPos.toNat)
    if s.chain.sending.isSome then s.fail c nvSequence
    else { s with chain := { s.chain with sending := some (c, if s.sec.slot.isNone then 0 else got &&& s.seen) } })))

/-- What STATUS says of a chain (R459): 0 no record, 1 in its chain, 2 outside its chain, 3 forming. -/
def State.chainState (s : State) : Nat :=
  if s.chain.probing.isSome ∨ s.chain.joining.isSome then 3
  else if s.chain.record.isNone then 0 else if s.chain.inChain then 1 else 2

/-- STATUS (R459). -/
def execStatus (c : HostCmd) (s : State) : Out :=
  .next (s.admin c (fun s => s.chainForm c 4 (fun s =>
    let r := s.chain.record
    let n := (r.map (fun r => r.n)).getD 0
    let bytes : List Byte := leBytes 8 ((r.map (fun r => r.id.toNat)).getD 0) ++
      [s.ringPos.setWidth 8, BitVec.ofNat 8 (lowest s.seen s.ringPos.toNat), s.seen, s.recorded, BitVec.ofNat 8 n, BitVec.ofNat 8 s.chainState,
       BitVec.ofNat 8 (bitsSet (s.port 0).lanes), BitVec.ofNat 8 (bitsSet (s.port 1).lanes)] ++ leBytes 4 ((r.map (fun r => r.nsid.toNat)).getD 0) ++ List.replicate 44 0
    s.reply c bytes 0)))

/-- Joins a chain by steps 5 and 6 of R460: CHOFF is measured, and the next own saddle held until the chain saddle at `wait` ns from now. With
`running` the chain runs, and its master stays so until that saddle (R462). The master's settings and period are free where it is another
drive (log entry 53). -/
def State.beginJoin (s : State) (present : Byte) (masterTime : W64) (wait : W64) (running : Bool) : State :=
  let all := present ||| bitOf s.ringPos.toNat
  let at_ := s.time.now + wait
  let s := { s with chain := { s.chain with pos := s.ringPos, present := if running then present else all } }
  let own := (s.liveOf 1).setWidth 32
  let (k, s) := s.draw
  let given := (Config.formFlit k).period
  let period := if s.master = s.chain.pos.toNat ∨ given = 0 ∨ !scalarRange 1 given.toNat then own else given
  let live := if running then some (masterSettings (Config.masterLive k)) else none
  let s := { s with chain := { s.chain with joining := some ⟨at_, period, all, none, live⟩ } }
  (s.measure masterTime).setNext at_

/-- Whether the drive holds a valid record and is outside its chain (R461). -/
def State.outside (s : State) : Bool :=
  (s.chain.record.map (fun r => r.valid)).getD false && !s.chain.inChain && s.chain.joining.isNone

/-- JOIN_OFFER (R461): an offer leaves on both ports. -/
def execJoinOffer (s : State) : Out :=
  .next (if s.outside && (s.ready || s.boot.phase == .stage 7) then { s with chain := { s.chain with offers := s.chain.offers + 1 } } else s)

/-- MASTER_CHANGE (R462): the members present, and the master's time. A new master sends the flit of a saddle held under R203 and schedules the
next one period later; CHOFF is measured again. A member that is no longer present is missing from every query that waits for it (R283). At a drive outside its chain that has offered to join, it says that the offer was
accepted (R461, log entry 53). -/
def execMasterChange (present : Byte) (masterTime : W64) (s : State) : Out :=
  .next (s.orStall <|
    let all := present ||| bitOf s.ringPos.toNat
    if !s.ready then s
    else if s.outside then
      if s.chain.offers = 0 ∨ all = bitOf s.ringPos.toNat then s
      else
        let (k, s) := s.draw
        s.beginJoin (present &&& ~~~ bitOf s.ringPos.toNat) masterTime ((Config.joinIn k).setWidth 64) true
    else if !s.chain.inChain then s
    else
      let old := s.master
      let s := ({ s with chain := { s.chain with present := all } }).missLeft all
      if s.master = old then s
      else
        let s := { s with chain := { s.chain with forwarded := [] } }
        let s := s.measure masterTime
        if s.master ≠ s.chain.pos.toNat ∨ !s.set.held then s
        else
          let s := { s with chain := { s.chain with flit := some (s.set.step + 1, s.chain.accepted), accepted := [] } }
          let now := s.time.now
          let s := s.performHeld
          { s with set := { s.set with nextSaddle := s.set.nextSaddle.map (fun _ => now + s.liveOf 1) } })

/-- OFFER_RECEIVED (R461): a running chain accepts an offer for its own ID from the drive that its record names at the position; the drive joins
at the next chain saddle. -/
def execOfferReceived (port : Fin 2) (chainId : W64) (pos : Fin 8) (digest : W128) (s : State) : Out :=
  .next (match s.chain.record with
  | none => s
  | some r =>
    let known := decide (pos.val < r.n) && (r.digests[pos.val]?) == some digest && pos.val != s.chain.pos.toNat
    if !s.ready || !s.chain.inChain || !r.valid || r.id != chainId || !known || (s.port port.val).lanes == 0 || s.chain.present.getLsbD pos.val then s
    else { s with chain := { s.chain with admitting := s.chain.admitting ||| bitOf pos.val } })

end Sys2Proof.Machine
end

