-- ==== Sys2Proof/Machine/Boot.lean ====
section
/-! DEFINITION. Bring-up from power good to S8 (15 R441 to R453, R461; 12 R373 to R376; 11 R342, R344; 16 R477). -/
namespace Sys2Proof.Machine

/-- COLD_POWER_ON (R441, R473, R477, R490): power good. S0 starts the root at time 0, reads the pins, and leaves both boot reports and the error
log empty; a measurement of the hold-up bank begins (R479); a card that is not in production has its debug port unlocked (R489). -/
def execColdPowerOn (pins : PowerPins) (s : State) : Out :=
  .next (if s.boot.phase ≠ .off then s
  else
    let s := { s with
      time := { s.time with now := 0, minuteAt := 60000000000, epoch := s.time.epochSaved, islands := [], stalled := [], unlogged := [], logUp := false, errors := [], errHead := 0 },
      pwr := { s.pwr with sense0 := pins.sense0, sense1 := pins.sense1, aux12 := pins.aux12, therm := 300, measuring := true, measureAt := 86400000000000 },
      sec := { s.sec with debug := !s.sec.prod, debugNext := false, noBind := false },
      boot := { s.boot with mgmt := true, cause := 0, started := 0, zero := 0, report := [], previous := [], testN := pins.testN, test := false, again := none,
                            s4Failed := [] },
      rcv := {} }
    let s := { s with time := { s.time with islands := put srcRoot.toNat { locked := true } s.time.islands } }
    (s.stamp srcRoot 0x14 0).endS0 0)

/-- AUX_12V_PRESENT (R477): the connector has 12 V, and a card that waited in S0 goes on. -/
def execAux12vPresent (s : State) : Out :=
  .next (
    let t := { s with pwr := { s.pwr with aux12 := s.boot.phase ≠ .off } }
    if s.boot.phase = .awaiting then t.endS0 t.boot.cause.toNat else t)

/-- The manifest of the image in the slot (R453): that of the last image written; of the image of manufacture, which the state does not hold, what the
boot ROM finds (log entry 18). -/
def State.slotMan (s : State) (f : SlotFound) : Manifest := (s.sec.slot.map Prod.fst).getD f.man

/-- Whether the boot ROM can read the slot's blocks (R333, R453): the header is there, and no die that it names has failed. -/
def State.slotReads (s : State) (f : SlotFound) : Bool :=
  f.readable && ((s.sec.slotHeader.map (fun h => h.1.all (fun d => !(s.die d).failed))).getD true)

/-- What the boot ROM finds wrong with the slot at S1 (R434, R456): 0 nothing, else RCVSTAT.CAUSE. A slot whose
writing was cut holds no valid image (R455). -/
def State.slotCause (s : State) (f : SlotFound) : Nat :=
  if !f.header then 1 else if s.sec.slotCut then 2 else if !s.slotReads f then 2 else s.imageError (s.slotMan f)

/-- What S1 reports of an image that could be read (R445). -/
def manifestReport (m : Manifest) : List Byte :=
  leBytes 4 m.bytes.toNat ++ [BitVec.ofNat 8 m.keySlot.val, m.svn, m.penlaVersion] ++ List.replicate 9 0 ++ leBytes 32 (m.digest.toNat % 2 ^ 256)

/-- FIRMWARE_CHECK (R434, R445, R453, R456): S1. An image that does not check sends the drive into recovery. -/
def execFirmwareCheck (found : SlotFound) (s : State) : Out :=
  .next (if s.boot.phase ≠ .stage 1 then s
  else
    let m := s.slotMan found
    let cause := s.slotCause found
    if cause ≠ 0 then
      (s.stageDone 1 2 (if cause ≤ 2 then [] else (manifestReport m))).enterRecovery cause
    else
      let sec := { s.sec with imageSvn := m.svn, keySlot := m.keySlot, imageDigest := m.digest, imageBytes := m.bytes, penlaVersion := m.penlaVersion }
      let s := ({ s with sec := sec }).stageDone 1 0 (manifestReport m)
      { s with boot := { s.boot with phase := .stage 2 } })

/-- CONTROL_CORE_START (R441, R445): S2. `started` has a bit for each control core that passed its self-test. -/
def execControlCoreStart (started : Byte) (s : State) : Out :=
  .next (if s.boot.phase ≠ .stage 2 then s
  else if started ≠ 0xFF then s.haltStage 2 [started]
  else
    let s := s.stageDone 2 0 [started]
    { s with boot := { s.boot with phase := .stage 3 } })

/-- PARALLEL_TRAINING (R333, R445, R447): S3. Map memory and the Penla ports train at cold power-on alone. -/
def execParallelTraining (t : Training) (s : State) : Out :=
  .next (if s.boot.phase ≠ .stage 3 then s
  else
    let cold := s.boot.cause == 0
    let chans := (List.range 32).foldl (fun m c => put c { getD ({} : Chan) m c with trained := t.channels.getLsbD c } m) s.media.chans
    let link := { s.link with meshTrained := t.meshFailed }
    let link := if !cold then link
      else { link with ports := put 0 { getD {} link.ports 0 with lanes := t.lanes0 } (put 1 { getD {} link.ports 1 with lanes := t.lanes1 } link.ports) }
    let s := { s with media := { s.media with chans := chans }, obj := { s.obj with trained := t.dramOk }, link := link }
    let bad := (List.range 512).filter (fun d => !t.channels.getLsbD (d / 16) || t.badDies.any (fun x => x.val == d))
    let s := bad.foldl State.failDie s
    let lanes := link.ports
    let lane (p : Nat) : Byte := (getD {} lanes p).lanes
    let d : List Byte := leBytes 4 t.channels.toNat ++ leBytes 2 bad.length ++
      [BitVec.ofNat 8 (t.dramOk.toNat + (if cold && t.mapOk then 4 else 0) + if cold then 0 else 8)] ++ leBytes 2 t.meshFailed.toNat ++
      [BitVec.ofNat 8 (bitsSet (lane 0)), BitVec.ofNat 8 (bitsSet (lane 1))]
    if t.dramOk ≠ 3 ∨ (cold ∧ !t.mapOk) ∨ t.unreachable then
      let s := s.haltStage 3 d
      if cold && !t.mapOk then s else s.flushUnlogged
    else
      let lost := !bad.isEmpty || t.meshFailed != 0 || lane 0 != 0xFF || lane 1 != 0xFF
      let s := (s.stageDone 3 (if lost then 1 else 0) d).flushUnlogged
      { s with boot := { s.boot with phase := .stage 4 } })

/-! ## S4 and S5 (R448 to R450) -/

/-- Whether stage `n`, 4 or 5, runs, at bring-up or again (R466). -/
def State.runs (s : State) (n : Fin 9) : Bool :=
  s.boot.phase == .stage n || (s.boot.again == some n && decide (s.pwr.ps < 3) && (match s.boot.phase with
    | .ready => true
    | .stage m => decide (6 ≤ m.val)
    | _ => false))

/-- Passing physical tiles of a compute die, and its spares that hold no index. -/
def State.passing (s : State) (d : Nat) : List Nat :=
  ((List.range 68).map (68 * d + ·)).filter (fun p => !s.boot.failedTiles.contains p && !s.boot.s4Failed.contains p)

/-- Unused spares of a compute die: passing tiles that hold no logical index. -/
def State.unusedSpares (s : State) (d : Nat) : Nat := ((s.passing d).filter (fun p => allTiles.all (fun t => s.physOf t != p))).length

/-- A logical tile passes to the lowest passing spare of its compute die, for good (R448): TILE_REPLACED, with the cause. -/
def State.replaceTile (s : State) (t cause : Nat) : State :=
  let old := s.physOf t
  let s := s.setTile t { s.tile t with spare := none }
  match s.spareOf t with
  | none => s
  | some p =>
    let s := s.takeIndex t p
    let (cairn, s) := s.stampGet (srcControl 0) 0x79 (BitVec.ofNat 8 t ++ BitVec.ofNat 9 old ++ BitVec.ofNat 9 p ++ BitVec.ofNat 2 cause) []
    { s with boot := { s.boot with replacements := s.boot.replacements ++ [cairn], failedTiles := (old :: s.boot.failedTiles).eraseDups } }

/-- Stage 4 or 5 ends: what follows it at bring-up, or when it runs again. -/
def State.nextStage (s : State) (n : Fin 9) : State :=
  if s.boot.phase = .stage n then { s with boot := { s.boot with phase := .stage (n + 1) } }
  else { s with boot := { s.boot with again := if n = 4 then some 5 else none } }

/-- TILE_SELF_TEST (R180, R445, R448): S4, which waits while control core 0 cannot stamp TILE_REPLACED. `failed` names the physical tiles that fail the test. -/
def execTileSelfTest (failed : List (Fin 272)) (s : State) : Out :=
  .next (s.orStall <| if !s.runs 4 then s
  else
    let s := { s with boot := { s.boot with s4Failed := failed.map (fun (p : Fin 272) => p.val) } }
    let data (s : State) (n : Nat) : List Byte :=
      (List.range 4).map (fun d => BitVec.ofNat 8 (s.passing d).length) ++ (List.range 4).map (fun d => BitVec.ofNat 8 (s.unusedSpares d)) ++ [BitVec.ofNat 8 n]
    if (List.range 4).any (fun d => decide ((s.passing d).length < 64)) then s.haltStage 4 (data s 0)
    else
      let bad := allTiles.filter (fun t => s.boot.s4Failed.contains (s.physOf t) || s.boot.failedTiles.contains (s.physOf t))
      let s := bad.foldl (fun s t => s.replaceTile t 0) s
      (s.stageDone 4 0 (data s bad.length)).nextStage 4)

/-- FIRMWARE_BROADCAST (R445, R449, R450): S5. A tile with a core that misses packets after three rounds is replaced; a spare that misses
them is passed over. The packets show in their outcome (log entry 211); where the stage halts, how many engines miss packets is free (log entry
188). -/
def execFirmwareBroadcast (b : Broadcast) (s : State) : Out :=
  .next (s.orStall <| if !s.runs 5 then s
  else
    let cores := b.failedCores.eraseDups
    let bad := (cores.map (fun x => x.1.val)).eraseDups
    let tiles := allTiles.filter (fun t => bad.contains (s.physOf t))
    let s := { s with boot := { s.boot with failedTiles := (bad ++ s.boot.failedTiles).eraseDups } }
    let s := tiles.foldl (fun s t => s.replaceTile t 1) s
    let left := tiles.filter (fun t => bad.contains (s.physOf t))
    let (k, s) := s.draw
    let missed := (cores.filter (fun x => left.any (fun t => s.physOf t == x.1.val))).length + if b.engineFails then 1 + Config.enginesMissed k % 16 else 0
    let d : List Byte := leBytes 2 (1040 - missed) ++ leBytes 2 b.packets.toNat ++
      [BitVec.ofNat 8 b.rounds.val, BitVec.ofNat 8 cores.length, BitVec.ofNat 8 (tiles.length - left.length)]
    if b.engineFails || !left.isEmpty then s.haltStage 5 d
    else
      let text := Config.walkText s.sec.imageDigest
      let s := (List.range 16).foldl (fun s e => s.setEngine e { s.engine e with text := text }) s
      (s.stageDone 5 0 d).nextStage 5)

/-! ## The rebuild (R374, R376) -/

/-- A unit that the rebuild found: its place on flash, none in the flush area, and its header and data. -/
abbrev Found := Option Nat × FUnit

/-- Whether a unit goes before another (R376): higher SEQ, then higher GEN, then the lower PUA. -/
def Found.before (x y : Found) : Bool :=
  decide (y.2.seq < x.2.seq) || (x.2.seq == y.2.seq && (decide (y.2.gen < x.2.gen) || (x.2.gen == y.2.gen && (match x.1, y.1 with
    | some a, some b => decide (a < b)
    | some _, none => true
    | none, _ => false))))

/-- The first of a list of units in the order of R376. -/
def bestOf : List Found → Option Found
  | [] => none
  | x :: xs => match bestOf xs with
    | none => some x
    | some y => if Found.before x y then some x else some y

/-- Whether the header of a unit on a die is valid (R357): read from its metadata, which a failed die does not give (R333). -/
def State.headed (s : State) (d p : Nat) (u : FUnit) : Bool := !(s.die d).failed && (readHeader (u.metadata (((s.die d).blk p).tag d p))).isSome

/-- The units that the rebuild considers (R359, R376): DATA, TRIM and PARTIAL units with a valid header, on flash outside blocks marked not erased and in the
flush area. -/
def State.foundUnits (s : State) : List Found :=
  let all : List Found := (s.ftl.units.filter (fun (a, u) => !((s.die (puaDie a)).blk (puaPos a)).stopped && s.headed (puaDie a) (puaPos a) u)).map (fun (a, u) => (some a, u)) ++
    (s.ftl.flush.filter (fun u => s.headed (u.die.getD 0) 0 u)).map (fun u => (none, u))
  all.filter (fun x => x.2.kind == .data || x.2.kind == .trim || x.2.kind == .partial_)

/-- The highest SEQ of the trim entries that cover a unit; 0 when there is none. -/
def trimOver (us : List Found) (nsx lua : Nat) : Nat :=
  (us.flatMap (fun x => x.2.trims)).foldl (fun m t => if t.nsx = nsx ∧ t.lua ≤ lua ∧ lua < t.lua + t.count then Nat.max m t.seq else m) 0

/-- A PARTIAL image over the image so far (R374 step 5). -/
def FUnit.onto (p base : FUnit) : FUnit :=
  { p with kind := .data, valid := base.valid ||| p.valid, data := overSlots p.valid p.data base.data, lost := p.lost ||| (base.lost &&& ~~~ p.valid) }

/-- The partial images of a unit above a SEQ, in ascending SEQ. -/
def partialsOf (us : List Found) (nsx lua seq : Nat) : List FUnit :=
  ((us.map Prod.snd).filter (fun u => u.kind == .partial_ && u.nsx == nsx && u.lua == lua && decide (seq < u.seq))).mergeSort
    (fun a b => decide (a.seq ≤ b.seq))

/-- The lowest slot that holds no unit. -/
def State.emptySlot (s : State) : Nat := ((List.range 16384).find? (fun i => (find i s.ftl.buf).isNone)).getD 0

/-- A unit returns to the write buffer (R374 step 8). -/
def State.backInBuffer (s : State) (u : FUnit) : Nat × State :=
  let i := s.emptySlot
  (i, ({ s with ftl := { s.ftl with buf := put i u s.ftl.buf } }).setMap u.nsx u.lua ⟨2, i⟩)

/-- The content of one logical unit (R374 steps 4, 5 and 8; R376). A merge whose read fails, which is free (log entry 217), freezes queues
(R409); whose write it was is free too (log entry 48). -/
def State.rebuildUnit (us : List Found) (s : State) (key : Nat × Nat) : State :=
  let (nsx, lua) := key
  let best := bestOf (us.filter (fun x => x.2.kind == .data && x.2.nsx == nsx && x.2.lua == lua))
  let trim := trimOver us nsx lua
  let seq := (best.map (fun x => x.2.seq)).getD 0
  let best := if seq < trim then none else best
  let base : MapEnt × Option FUnit := match best with
    | some (some a, u) => (⟨if u.lost = 0 then 1 else 3, a⟩, none)
    | some (none, u) => (⟨0, 0⟩, some { u with tag := none, old := ⟨0, 0⟩ })
    | none => (⟨0, 0⟩, none)
  match partialsOf us nsx lua (Nat.max seq trim) with
  | [] => match base with
    | (_, some u) => (s.backInBuffer u).2
    | (e, none) => if e.state = 0 then s else s.setMap nsx lua e
  | p :: ps =>
    let first := match base.2 with
      | some u => p.onto u
      | none => { p with kind := .data }
    let u := ps.foldl (fun b q => q.onto b) first
    let (k, s) := s.draw
    let u := { u with tag := some (Config.lostTag k), old := base.1 }
    let (i, s) := s.backInBuffer u
    let (n, s) := s.draw
    let s := if u.valid = 0xFFFF then s else s.mergeSlot i u (!Config.readFails n) true
    match find i s.ftl.buf with
    | some v => { s with ftl := { s.ftl with buf := put i { v with tag := none, old := ⟨0, 0⟩ } s.ftl.buf } }
    | none => s

/-- The kept-aside block of a die fails its erase and is retired (R348): a spare, or a free block of the die, takes its place; which physical block it was is
free (log entry 173). -/
def State.retireFlush (s : State) (d : Nat) : State :=
  let (n, s) := s.draw
  let x := s.die d
  let free := (List.range 4096).filter (fun q => !x.inWindow q && x.idleAt q)
  let blocks := match (if x.spares = 0 then free[Config.allot n % free.length]? else none) with
    | some q => put q { x.blk q with use := .gone } x.blocks
    | none => x.blocks
  let s := s.setDie d { x with spares := x.spares - 1, retired := x.retired + 1, blocks := blocks }
  (s.stamp (srcChannel (d / 16)) 0x64 (dieDetail d ++ (0 : BitVec 6) ++ BitVec.ofNat 13 (Config.allot n % 4096))).checkReadOnly

/-- The pSLC blocks of the flush area, or of the held units that a shutdown wrote, are erased, one erase each (R325, R373, R374). Whether one fails is free
(log entry 173). -/
def State.eraseFlush (s0 : State) : State :=
  let s := s0.ftl.flushDies.foldl (fun (s : State) d =>
    if (s.die d).failed then s
    else
      let (n, s) := s.draw
      let s := (s.updDie d (fun x => { x with flushBlk := { qlc := false, wear := x.flushBlk.wear + eraseWear false } })).updChan d (fun c => { c with erases := c.erases + 1 })
      if Config.eraseFails n then s.retireFlush d else s) s0
  let erased := s0.ftl.flushDies.countP (fun d => !(s0.die d).failed)
  { s with ftl := { s.ftl with flushDies := [] }, media := { s.media with sinceMove := s.media.sinceMove + erased } }

/-- The SYSTEM units of the flush area return as held units of their extents (R373, R374 step 6), and word lines that are complete are programmed. -/
def State.returnHeld (s : State) : State :=
  (s.ftl.flush.foldl (fun s u => match if (s.die (u.die.getD 0)).failed then none else u.ext with
    | none => s
    | some (h, k) => s.updExtent h (fun e =>
        { e with data := e.data.wrBytes (65536 * k) (u.data.rdBytes 0 65536), held := if e.held.contains k then e.held else e.held ++ [k] })) s).queueLines

/-- The map rebuild (R374, R376, R181): the flush area is taken back, and its blocks erased. -/
def State.rebuild (s0 : State) : State :=
  let us := s0.foundUnits
  let s := { s0 with ftl := { s0.ftl with buf := [], map := [] } }
  let keys := ((us.filter (fun x => x.2.kind != .trim)).map (fun x => (x.2.nsx, x.2.lua))).eraseDups
  let s := keys.foldl (State.rebuildUnit us) s
  let trims := s0.ftl.flush.filter (fun u => u.kind == .trim)
  let s := trims.foldl (fun (s : State) u =>
    let live := u.trims.filter (fun t => s.trimLive t.seq)
    if live.isEmpty then s
    else
      let i := s.emptySlot
      { s with ftl := { s.ftl with buf := put i { u with trims := live, tag := none } s.ftl.buf } }) s
  let top := us.foldl (fun m x => Nat.max m x.2.seq) s.ftl.seq
  let minute := us.foldl (fun m x => Nat.max m x.2.minute) s.time.epoch.toNat
  let s := s.returnHeld.eraseFlush
  ({ s with ftl := { s.ftl with seq := top, flush := [] }, time := { s.time with epoch := BitVec.ofNat 32 minute } }).ageBlocks s.time.epoch.toNat

/-- The path of S6 (R451): 0 clean, 1 warm, 2 rebuild. -/
def State.mapPath (s : State) : Nat :=
  if s.boot.cause = 0 then (if s.ftl.clean && s.ftl.flushed.isNone then 0 else 2) else if s.boot.flushedSince then 2 else 1

/-- MAP_REBUILT (R342, R344, R374, R437, R445, R451): S6. -/
def execMapRebuilt (r : S6Found) (s : State) : Out :=
  .next (s.orStall <| if s.boot.phase ≠ .stage 6 then s
  else
    let s := r.otpBad.foldl (fun (s : State) d => (s.updDie d.val (fun x => { x with otpBad := true })).failDie d.val) s
    let calDef := r.calDefault.eraseDups
    let s := calDef.foldl (fun (s : State) c =>
      let s := (List.range 16).foldl (fun (s : State) i => s.updDie (16 * c.val + i) (fun x => { x with calDef := true })) s
      s.stamp (srcChannel c.val) 0x61 (BitVec.ofNat 5 c.val ++ (0 : BitVec 23))) s
    let mbk := r.mbk && !s.sec.noBind
    let s := { s with
      sec := { s.sec with mbk := mbk }, media := { s.media with ledger := s.media.ledgerNext },
      set := { s.set with pendLedger := 0, pendLedgerOn := false } }
    let path := s.mapPath
    let flushed := s.ftl.flushed
    let s := if path = 2 then
        let detail : BitVec 28 := (if flushed.isSome then 1 else 0 : BitVec 1) ++ BitVec.ofNat 27 (flushed.getD 0)
        s.rebuild.stamp (srcControl 0) 0x6C detail
      else if path = 0 then
        let s := s.returnHeld.eraseFlush
        { s with ftl := { s.ftl with flush := [] } }
      else s
    let ftl := { s.ftl with flushed := none, mapLive := true, unsafe_ := if path = 1 then s.ftl.unsafe_ else path == 2 }
    let s := ({ s with ftl := ftl }).stamp (srcControl 0) 0x68 ((if path = 2 then 1 else 0 : BitVec 1) ++ r.durationMs)
    let d : List Byte := [BitVec.ofNat 8 path, BitVec.ofNat 8 calDef.length] ++ leBytes 2 r.otpBad.eraseDups.length ++ [if mbk then 1 else 0] ++
      List.replicate 3 0 ++ leBytes 4 r.unreadable.toNat
    let s := s.stageDone 6 (if !r.otpBad.isEmpty || !calDef.isEmpty || !mbk then 1 else 0) d
    { s with boot := { s.boot with phase := .stage 7 } })

/-! ## S7 and S8 (R452, R461) -/

/-- CHAIN_FORMATION (R445, R460, R461): S7. A record still pending is erased; a drive with a valid record joins its chain, forms it with the
members that are in S7 too, or goes on outside it. -/
def execChainFormation (f : S7Found) (s : State) : Out :=
  .next (s.orStall <| if s.boot.phase ≠ .stage 7 then s
  else
    let record := s.chain.record.filter (fun r => r.valid)
    let s := { s with chain := { s.chain with record := record }, host := { s.host with nsChain := record.map (fun (r : ChainRec) => r.nsid) } }
    let (how, s) := match record with
      | none => (0, s)
      | some r =>
        let s := { s with chain := { s.chain with offers := s.chain.offers + 1 } }
        let others : Byte := f.present &&& BitVec.ofNat 8 (2 ^ r.n - 1) &&& ~~~ bitOf r.pos.toNat
        if others = 0 then (3, s)
        else if f.running then
          let (k, s) := s.draw
          (1, s.beginJoin others f.masterTime ((Config.joinIn k).setWidth 64) true)
        else (2, s.beginJoin others f.masterTime 12000000 false)
    let members := if how = 1 ∨ how = 2 then s.chain.present ||| bitOf s.ringPos.toNat else bitOf s.ringPos.toNat
    let s := s.stageDone 7 0 [BitVec.ofNat 8 how, s.ringPos.setWidth 8, members]
    { s with boot := { s.boot with phase := .stage 8 } })

/-- The blocks whose erase was stopped are erased again (R334): a write of each in its die's queue (log entry 180). -/
def State.eraseStopped (s : State) : State :=
  s.media.dies.foldl (fun (s : State) (d, x) =>
    if x.failed then s
    else (x.blocks.filter (fun (_, b) => b.stopped)).foldl (fun (s : State) (p, b) =>
      (s.updBlk d p (fun b => { b with erasing := true })).queueWrite d ⟨p, true, b.qlc, .again⟩) s) s

/-- READY (R208, R434, R442, R445, R452): S8. Jobs that the reset ended are counted ABORTED, and the steps start. -/
def execReady (s : State) : Out :=
  .next (if s.boot.phase ≠ .stage 8 then s
  else
    let s := s.boot.endedJobs.foldl (fun s c => s.updCounts c (fun k => { k with aborted := k.aborted + 1 })) s
    let s := s.allCtrls (fun k => { k with rdy := k.en })
    let svn := if s.sec.fusedSvn.toNat < s.sec.imageSvn.toNat then s.sec.imageSvn else s.sec.fusedSvn
    let p := s.liveOf 1
    let now := s.time.now
    let next := if s.chain.joining.isSome then s.set.nextSaddle else if p = 0 then none else some (now + p)
    let s := { s with
      sec := { s.sec with fusedSvn := svn }, ftl := { s.ftl with clean := false },
      boot := { s.boot with phase := .ready, endedJobs := [], flushedSince := false },
      set := { s.set with began := now, event := p == 0, nextSaddle := next } }
    let ms := (now - s.boot.zero).toNat / 1000000
    s.eraseStopped.stageDone 8 (if s.link.pcieRate = 0 then 1 else 0) ([s.link.pcieRate, s.link.pcieLanes, 0, 0] ++ leBytes 4 ms))

end Sys2Proof.Machine
end

