-- ==== Sys2Proof/Machine/Branch.lean ====
section
/-! DEFINITION. The branch and control group (06 R143, R144; 05 R116, R125, R127). -/
namespace Sys2Proof.Machine

/-- NOP (R143): every field 0. -/
def execNop (ag : Agent) (w : IWord) (s : State) : Out :=
  .next (s.issue { major := 0x08, minor := 0x00, bare := true } ag w (fun s => .done s))

/-- J (R143): relative jump; a target outside the text traps when it is fetched. -/
def execJ (ag : Agent) (w : IWord) (s : State) : Out :=
  .next (s.issue { major := 0x08, minor := 0x01, imm := 0xFFFFFFFF } ag w (fun s => .jump s ((s.regs ag).pc + sext w.imm)))

/-- JR (R143): a target with bits above 12:0 takes FETCH_RANGE at the JR itself. -/
def execJr (ag : Agent) (w : IWord) (s : State) : Out :=
  .next (s.issue { major := 0x08, minor := 0x02, a := .s } ag w (fun s =>
    let x := (s.regs ag).rs w.srcA
    if x.extractLsb' 13 51 = 0 then .jump s x else .trap 2 x))

/-- JAL (R143): sd = index of the next word, then a relative jump. -/
def execJal (ag : Agent) (w : IWord) (s : State) : Out :=
  .next (s.issue { major := 0x08, minor := 0x03, dst := .s, imm := 0xFFFFFFFF } ag w (fun s =>
    let pc := (s.regs ag).pc
    .jump (s.updRegs ag (fun r => r.ws w.dst (pc + 1))) (pc + sext w.imm)))

/-- Whether an issued instruction of a core has still to complete (R144). -/
def State.outstanding (s : State) (t c : Nat) : Bool :=
  (s.tile t).queue.any (fun e => e.core == c && some e.job == (s.core t c).r.job) ||
  s.host.recs.any (fun r => r.tile == t && r.core == c) ||
  s.host.xfers.any (fun x => x.tile == t && x.core == c && !x.cut)

/-- END (R144): the core stops once its issued instructions have completed; a context returns to the free pool. -/
def endAct (ag : Agent) (s : State) : Act :=
  match ag with
  | .ctx e k => .stopped (s.setCtx e.val k.val { s.ctx e.val k.val with r := { s.regs ag with run := .idle, job := none } })
  | .core t c =>
    if s.outstanding t.val c.val then .hold
    else .stopped (s.updRegs ag (fun r => { r with run := .ended }))

/-- END (R144). What waited for the context alone goes on: a round of its walk may end (R264). -/
def execEndProg (ag : Agent) (w : IWord) (s : State) : Out :=
  let job := (s.regs ag).job
  let s' := s.issue { major := 0x08, minor := 0x04 } ag w (endAct ag)
  .next (match ag, job with
    | .core _ _, some n => if (s'.regs ag).run == .ended && (s.regs ag).run == .running then s'.programEnds n else s'
    | .ctx e _, some n => if (s'.regs ag).run == .idle && (s.regs ag).run == .running then s'.advance e.val n else s'
    | _, _ => s')

/-- The job whose flags an agent names (R116). -/
def State.jobKey (s : State) (ag : Agent) : Nat := (s.regs ag).job.getD 0

/-- The flag that IMM 3:0 names. -/
def flagOf (w : IWord) : BitVec 4 := w.imm.setWidth 4

/-- FSET (R116, R143): sets the flag; waiting cores go on. -/
def execFset (ag : Agent) (w : IWord) (s : State) : Out :=
  .next (s.issue { major := 0x09, minor := 0x00, imm := 0xF, accept := .core } ag w (fun s =>
    match ag with
    | .core t _ => .done (s.setFlag t (s.jobKey ag) (flagOf w))
    | .ctx _ _ => .hold))

/-- FCLR (R116, R143). -/
def execFclr (ag : Agent) (w : IWord) (s : State) : Out :=
  .next (s.issue { major := 0x09, minor := 0x01, imm := 0xF, accept := .core } ag w (fun s =>
    match ag with
    | .core t _ => .done (s.setFlags t (s.jobKey ag) (s.flags t (s.jobKey ag) &&& ~~~ (1#16 <<< (flagOf w).toNat)))
    | .ctx _ _ => .hold))

/-- FWAIT (R116, R143). -/
def execFwait (ag : Agent) (w : IWord) (s : State) : Out :=
  .next (s.issue { major := 0x09, minor := 0x02, imm := 0xF, accept := .core } ag w (fun s =>
    match ag with
    | .core t _ => if (s.flags t (s.jobKey ag)).getLsbD (flagOf w).toNat then .done s else .park s (.flag (flagOf w) false)
    | .ctx _ _ => .hold))

/-- FWAITC (R116, R143): as FWAIT; clears the flag in the same action. -/
def execFwaitc (ag : Agent) (w : IWord) (s : State) : Out :=
  .next (s.issue { major := 0x09, minor := 0x03, imm := 0xF, accept := .core } ag w (fun s =>
    match ag with
    | .core t _ =>
      if (s.flags t (s.jobKey ag)).getLsbD (flagOf w).toNat then
        .done (s.setFlags t (s.jobKey ag) (s.flags t (s.jobKey ag) &&& ~~~ (1#16 <<< (flagOf w).toNat)))
      else .park s (.flag (flagOf w) true)
    | .ctx _ _ => .hold))

/-- Cores of tile `t` that wait at a barrier of job `n` with the given mask. -/
def State.atBarrier (s : State) (t : Fin 256) (n : Option Nat) (mask : BitVec 4) : List (Fin 4) :=
  coreIds.filter (fun c =>
    let r := s.regs (.core t c)
    r.job == n && (match r.run with
      | .waiting (.barrier m) _ => m == mask
      | _ => false))

/-- BAR (R116, R143): refused when the mask names a core not running the program; mask 0 completes at once;
the last core of the mask to arrive releases all that wait with the same mask. -/
def execBar (ag : Agent) (w : IWord) (s : State) : Out :=
  .next (s.issue { major := 0x09, minor := 0x04, imm := 0xF, refusable := true, accept := .core } ag w (fun s =>
    match ag with
    | .core t c =>
      let mask := flagOf w
      let job := (s.regs ag).job
      let named := coreIds.filter (fun c => mask.getLsbD c.val)
      if named.any (fun c => (s.regs (.core t c)).job != job) then .refuse stInvalidOperand
      else if mask = 0 then .done s
      else
        let there := s.atBarrier t job mask
        if named.all (fun x => x == c || there.contains x) then .done (s.wakeAll t there)
        else .park s (.barrier mask)
    | .ctx _ _ => .hold))

/-- BRK (R125, R143): BREAK, TVAL = IMM. -/
def execBrk (ag : Agent) (w : IWord) (s : State) : Out :=
  .next (s.issue { major := 0x09, minor := 0x05, imm := 0xFFFFFFFF } ag w (fun _ => .trap 7 (w.imm.setWidth 64)))

/-- TRAP (R125, R143): SOFTWARE, TVAL = IMM. -/
def execTrap (ag : Agent) (w : IWord) (s : State) : Out :=
  .next (s.issue { major := 0x09, minor := 0x06, imm := 0xFFFFFFFF } ag w (fun _ => .trap 9 (w.imm.setWidth 64)))

/-- How TRET is encoded. -/
def opTret : Op := { major := 0x09, minor := 0x07 }
/-- TRET (R127, R143): ILLEGAL_INSTR while INH is 0. -/
def execTret (ag : Agent) (w : IWord) (s : State) : Out :=
  .next (s.issue opTret ag w (fun s =>
    if (s.regs ag).inh then .jump (s.updRegs ag Regs.trapReturn) (s.regs ag).tpc
    else .trap 0 (w.word0 opTret)))

end Sys2Proof.Machine
end

