-- ==== Sys2Proof/Machine/Convert.lean ====
section
/-! DEFINITION. The convert group (06 R149 to R151; 02 R41 to R50; 03 R71 to R73). -/
namespace Sys2Proof.Machine

/-- The IMM fields of a convert (R150). -/
def cvtCnt (w : IWord) : Nat := w.imm.toNat % 128
def cvtSr (w : IWord) : Bool := w.imm.getLsbD 8
def cvtExtEn (w : IWord) : Bool := w.imm.getLsbD 9
def cvtExt (w : IWord) : Nat := w.imm.toNat / 1024 % 4

/-- The metadata word of group `g` in sb (R149). -/
def cvtMeta (sb : W64) (g : Nat) : W32 := if g = 0 then lo32 sb else hi32 sb

/-- The draws of an SR convert of `n` elements, none each otherwise (R73). -/
def cvtDraws (k : Core) (sr : Bool) (n : Nat) : List (Option Nat) :=
  (List.range n).map (fun i =>
    if sr then some (srDraw (k.srstate.extractLsb' 64 64) (k.srstate.extractLsb' 0 64 + BitVec.ofNat 64 i)) else none)

/-- FP32 to a code format (R151): the packed destination lanes and the counts. -/
def narrowCodes (c : Code) (xs : List W32) (sb : W64) (us : List (Option Nat)) : Nat × Counts :=
  let part (g : Nat) : Nat × Nat × Counts :=
    let grp := (xs.drop (32 * g)).take 32
    if grp.length = 0 then (0, 0, {}) else
    let (cs, e8, ct) := toGroup c grp (cvtMeta sb g) ((us.drop (32 * g)).take 32)
    (packCodes c.width cs, e8, ct)
  let (a, ea, ca) := part 0
  let (b, eb, cb) := part 1
  (a + b * 2 ^ (32 * c.width) + (ea + 256 * eb) * 2 ^ 256, ca.add cb)

/-- FP32 to a float format of `f.width` bits (R42, R44, R151). -/
def narrowFloat (f : Fmt) (ftz : Bool) (xs : List W32) (us : List (Option Nat)) : Nat × Counts :=
  let rs := (xs.zip us).map (fun (x, u) =>
    match u with
    | none => f.encode ftz (f32 x)
    | some d => toBf16Sr x d ftz)
  (packCodes f.width (rs.map Prod.fst), countEvs (rs.map Prod.snd))

/-- A float format to FP32 (R43, R151). -/
def widenFloat (f : Fmt) (ftz : Bool) (src n : Nat) : List W32 × Counts :=
  let rs := (List.range n).map (fun i => fmtF32.encode ftz (f.decode (unpackCode f.width src i)))
  (rs.map (fun r => BitVec.ofNat 32 r.1), countEvs (rs.map Prod.snd))

/-- A code format to FP32 (R32, R34, R35, R36, R151). -/
def widenCodes (c : Code) (ftz : Bool) (src : Nat) (sb : W64) (n : Nat) : List W32 × Counts :=
  let rs := (List.range n).map (fun i =>
    fromCode c (cvtMeta sb (i / 32)) (src / 2 ^ (256 + 8 * (i / 32)) % 256) (unpackCode c.width src i) ftz)
  (rs.map (fun r => r.1), (countEvs (rs.map (fun r => r.2.1))).bump .inv (rs.countP (fun r => r.2.2)))

/-- Writes the results of a convert (R47, R49, R73, R151): destination lanes, CREC, the program's counter
block, the extreme register and the SR counter. -/
def cvtDone (t : Fin 256) (c : Fin 4) (w : IWord) (out : Nat) (seen : List W32) (ct : Counts) (s : State) : Act :=
  let k := s.core t.val c.val
  let k := k.wvs w.dst ((lanesOf out).zipIdx.map (fun (x, l) => (l, x)))
  let k := { k with crec := crecOf ct }
  let k := if cvtExtEn w then k.wext (cvtExt w) (extObserveAll (k.rext (cvtExt w)) seen) else k
  let k := if cvtSr w then
    { k with srstate := setHalf k.srstate 0 (k.srstate.extractLsb' 0 64 + BitVec.ofNat 64 (cvtCnt w)) } else k
  .done ((s.setCore t.val c.val k).count k.r.job ct.stop20)

/-- A narrowing convert of CNT elements (R150, R151); it waits for the core's queued matrix instructions, which still have to write
CREC (R110). -/
def cvtNarrow (f : Core → List W32 → W64 → List (Option Nat) → Nat × Counts) (ag : Agent) (w : IWord) (s : State) : Act :=
  match ag with
  | .ctx _ _ => .hold
  | .core t c =>
    let k := s.core t.val c.val
    let n := cvtCnt w
    if 64 < n then .refuse stInvalidOperand
    else if s.crecPending ag then .await s [16]
    else
      let xs := (List.range n).map (k.rv w.srcA)
      let (out, ct) := f k xs (k.r.rs w.srcB) (cvtDraws k (cvtSr w) n)
      cvtDone t c w out xs ct s

/-- A widening convert of CNT elements (R110, R150, R151). -/
def cvtWiden (f : Core → Nat → W64 → Nat → List W32 × Counts) (ag : Agent) (w : IWord) (s : State) : Act :=
  match ag with
  | .ctx _ _ => .hold
  | .core t c =>
    let k := s.core t.val c.val
    let n := cvtCnt w
    if 64 < n then .refuse stInvalidOperand
    else if s.crecPending ag then .await s [16]
    else
      let src := packLanes (lanes64.map (k.rv w.srcA))
      let (rs, ct) := f k src (k.r.rs w.srcB) n
      cvtDone t c w (packLanes rs) rs ct s

/-- How a convert is encoded (R149, R150): minor, whether sb holds metadata, whether ROUND may be 1. -/
def opCvt (minor : Nat) (hasMeta sr : Bool) : Op :=
  { major := 0x18, minor := minor, dst := .v, a := .v, b := if hasMeta then .s else .unused,
    imm := if sr then 0xF7F else 0xE7F, refusable := true, accept := .core }

/-- CVT.F32.BF16 (R149). -/
def execCvtF32Bf16 (ag : Agent) (w : IWord) (s : State) : Out :=
  .next (s.issue (opCvt 0x00 false true) ag w (cvtNarrow (fun k xs _ us => narrowFloat fmtBf16 k.ftz xs us) ag w))

/-- CVT.F32.F16 (R149). -/
def execCvtF32F16 (ag : Agent) (w : IWord) (s : State) : Out :=
  .next (s.issue (opCvt 0x01 false false) ag w (cvtNarrow (fun k xs _ us => narrowFloat fmtF16 k.ftz xs us) ag w))

/-- CVT.F32.E5M2 (R149). -/
def execCvtF32E5m2 (ag : Agent) (w : IWord) (s : State) : Out :=
  .next (s.issue (opCvt 0x02 false false) ag w (cvtNarrow (fun k xs _ us => narrowFloat fmtE5m2 k.ftz xs us) ag w))

/-- CVT.F32.Q8A (R149). -/
def execCvtF32Q8a (ag : Agent) (w : IWord) (s : State) : Out :=
  .next (s.issue (opCvt 0x03 true false) ag w (cvtNarrow (fun _ xs sb us => narrowCodes .q8a xs sb us) ag w))

/-- CVT.F32.Q4A (R149). -/
def execCvtF32Q4a (ag : Agent) (w : IWord) (s : State) : Out :=
  .next (s.issue (opCvt 0x04 true true) ag w (cvtNarrow (fun _ xs sb us => narrowCodes .q4a xs sb us) ag w))

/-- CVT.F32.Q2A (R149). -/
def execCvtF32Q2a (ag : Agent) (w : IWord) (s : State) : Out :=
  .next (s.issue (opCvt 0x05 true true) ag w (cvtNarrow (fun _ xs sb us => narrowCodes .q2a xs sb us) ag w))

/-- CVT.F32.TERN (R149). -/
def execCvtF32Tern (ag : Agent) (w : IWord) (s : State) : Out :=
  .next (s.issue (opCvt 0x06 true false) ag w (cvtNarrow (fun _ xs sb us => narrowCodes .tern xs sb us) ag w))

/-- CVT.F32.L4 (R149). -/
def execCvtF32L4 (ag : Agent) (w : IWord) (s : State) : Out :=
  .next (s.issue (opCvt 0x07 true true) ag w (cvtNarrow (fun _ xs sb us => narrowCodes .l4 xs sb us) ag w))

/-- CVT.F32.MXFP4 (R149). -/
def execCvtF32Mxfp4 (ag : Agent) (w : IWord) (s : State) : Out :=
  .next (s.issue (opCvt 0x08 false false) ag w (cvtNarrow (fun _ xs sb us => narrowCodes .mxfp4 xs sb us) ag w))

/-- CVT.BF16.F32 (R149). -/
def execCvtBf16F32 (ag : Agent) (w : IWord) (s : State) : Out :=
  .next (s.issue (opCvt 0x10 false false) ag w (cvtWiden (fun k x _ n => widenFloat fmtBf16 k.ftz x n) ag w))

/-- CVT.F16.F32 (R149). -/
def execCvtF16F32 (ag : Agent) (w : IWord) (s : State) : Out :=
  .next (s.issue (opCvt 0x11 false false) ag w (cvtWiden (fun k x _ n => widenFloat fmtF16 k.ftz x n) ag w))

/-- CVT.E5M2.F32 (R149). -/
def execCvtE5m2F32 (ag : Agent) (w : IWord) (s : State) : Out :=
  .next (s.issue (opCvt 0x12 false false) ag w (cvtWiden (fun k x _ n => widenFloat fmtE5m2 k.ftz x n) ag w))

/-- CVT.Q8A.F32 (R149). -/
def execCvtQ8aF32 (ag : Agent) (w : IWord) (s : State) : Out :=
  .next (s.issue (opCvt 0x13 true false) ag w (cvtWiden (fun k x sb n => widenCodes .q8a k.ftz x sb n) ag w))

/-- CVT.Q4A.F32 (R149). -/
def execCvtQ4aF32 (ag : Agent) (w : IWord) (s : State) : Out :=
  .next (s.issue (opCvt 0x14 true false) ag w (cvtWiden (fun k x sb n => widenCodes .q4a k.ftz x sb n) ag w))

/-- CVT.Q2A.F32 (R149). -/
def execCvtQ2aF32 (ag : Agent) (w : IWord) (s : State) : Out :=
  .next (s.issue (opCvt 0x15 true false) ag w (cvtWiden (fun k x sb n => widenCodes .q2a k.ftz x sb n) ag w))

/-- CVT.TERN.F32 (R149). -/
def execCvtTernF32 (ag : Agent) (w : IWord) (s : State) : Out :=
  .next (s.issue (opCvt 0x16 true false) ag w (cvtWiden (fun k x sb n => widenCodes .tern k.ftz x sb n) ag w))

/-- CVT.L4.F32 (R149). -/
def execCvtL4F32 (ag : Agent) (w : IWord) (s : State) : Out :=
  .next (s.issue (opCvt 0x17 true false) ag w (cvtWiden (fun k x sb n => widenCodes .l4 k.ftz x sb n) ag w))

/-- CVT.MXFP4.F32 (R149). -/
def execCvtMxfp4F32 (ag : Agent) (w : IWord) (s : State) : Out :=
  .next (s.issue (opCvt 0x18 false false) ag w (cvtWiden (fun k x sb n => widenCodes .mxfp4 k.ftz x sb n) ag w))

end Sys2Proof.Machine
end

