-- ==== Sys2Proof/Machine/Resets.lean ====
section
/-! DEFINITION. Loss of power, shutdown, resets of the drive, of functions and of groups, and recovery (12 R371, R373; 13 R389;
15 R442, R456, R457, R466 to R473; 16 R481). -/
namespace Sys2Proof.Machine

/-! ## Loss of power (R371, R473) -/

/-- The flush, unless it has run already or a clean shutdown left nothing to save (R371, R373). -/
def State.flushIfNeeded (s : State) : State :=
  if s.ftl.flushed.isSome || (s.ftl.clean && s.ftl.buf.isEmpty) then s.settleDies else s.powerFlush

/-- What is lost when the rails go off (R473), beyond what a drive reset loses: map memory with the cairn log and the job counts, drive time,
the counters and the links. The management domain keeps its reports and the error log until power good. -/
def State.coldLoss (s : State) : State :=
  let s := s.loseVolatile
  let t := s.time
  let set := { s.set with pend := [], pendGroups := [], pendBindings := [], pendReplaces := [], pendQuotas := [], pendPower := none }
  let media := { s.media with chans := [], extents := s.media.extents.map (fun (h, e) => (h, { e with held := [], writers := [] })) }
  let obj := { s.obj with halts := [], retired := [], retiredUnits := [] }
  let host := { s.host with counts := [], deferred := [], defWritten := 0, defLost := 0 }
  let ftl := { s.ftl with buf := [], map := if s.ftl.clean then s.ftl.map else [], slots := 16384, unsafe_ := false }
  { s with tiles := s.tiles.map (fun (t, x) => (t, { x with acycFrom := 0 })), time := { epoch := t.epoch, epochSaved := t.epochSaved, hostStamp := t.hostStamp, errors := t.errors, errHead := t.errHead },
           set := set, media := media, obj := obj, host := host, ftl := ftl, ecc := {}, link := {}, pwr := {}, reg := {}, rcv := {},
           sec := { s.sec with debugNext := false, noBind := false },
           boot := { s.boot with endedJobs := [], again := none, idle := [] } }

/-- POWER_LOSS (R371, R457): 12 V is lost; the flush runs, and the rails go off. -/
def execPowerLoss (s : State) : Out :=
  .next (
    let t := if s.boot.phase = .off ∨ s.boot.phase = .shutDown then { s with pwr := {} } else s.flushIfNeeded.coldLoss
    { t with boot := { t.boot with phase := .off } })

/-- The sensors with their throttle and shutdown points, °C, in the order of R481. -/
def State.sensors (s : State) : List (Int × Int × Int) :=
  [(s.pwr.ctrl.toInt, 95, 110), (s.pwr.dram.toInt, 90, 100), (s.pwr.flash.toInt, 75, 85), (s.pwr.bank.toInt, 65, 75)]

/-- THERMAL_SHUTDOWN (R457, R481): a sensor at its shutdown point; the flush runs and the rails go off until 12 V is removed and applied
again. -/
def execThermalShutdown (s : State) : Out :=
  .next (if s.boot.phase = .off ∨ s.boot.phase = .shutDown ∨ s.sensors.all (fun x => decide (x.1 < x.2.2)) then s
  else
    let t := s.flushIfNeeded.coldLoss
    { t with boot := { t.boot with phase := .shutDown } })

/-- SHUTDOWN_NOTIFICATION (R181, R373): it waits until the buffer has been programmed, down to less than a word line, which the drive programs itself; then the
held units of extents, the map and the records are saved, and the clean marker is written. -/
def execShutdownNotification (ctrl : Fin 33) (s : State) : Out :=
  .next (if !s.ready || !(s.ctrl ctrl).rdy then s
    else ({ s with ftl := { s.ftl with closing := if s.ftl.closing.contains ctrl then s.ftl.closing else s.ftl.closing ++ [ctrl] } }).endShutdowns)

/-! ## Drive resets (R466) -/

/-- PERST (R466, R486): TEST_N is read again. -/
def execPerst (testN : Bool) (s : State) : Out :=
  .next (({ s with boot := { s.boot with testN := testN } }).driveReset 1)

/-- HOT_RESET (R432, R466): a firmware fault takes another kind of reset. -/
def execHotReset (s : State) : Out := .next (if s.boot.phase = .faulted then s else s.driveReset 2)

/-- NVM_SUBSYSTEM_RESET (R466). -/
def execNvmSubsystemReset (s : State) : Out := .next (s.driveReset 3)

/-- The management block answers (R442, R476): from the first S0 on, and after a loss of 12 V too, from 3.3Vaux alone. -/
def State.answers (s : State) : Bool := s.boot.phase != .off || s.boot.mgmt

/-- An NVMe-MI response leaves. -/
def State.respond (s : State) (bytes : List Byte) : State := { s with host := { s.host with mi := s.host.mi ++ [bytes] } }

/-- NVMe-MI statuses Success and Invalid Parameter (R488; log entry 57). -/
def miOk : Byte := 0
def miInvalid : Byte := 4

/-- MANAGEMENT_RESET (R457, R466, R488): the status leaves, and the drive reset follows. -/
def execManagementReset (s : State) : Out := .next (if s.answers then (s.respond [miOk]).driveReset 4 else s)

/-! ## Function resets (R389, R442, R466, R473) -/

/-- CONTROLLER_ENABLE (R442, R456): CSTS.RDY follows once the drive is at S8. In recovery there is no VF. -/
def execControllerEnable (ctrl : Fin 33) (s : State) : Out :=
  .next (
    let k := s.ctrl ctrl
    if k.en || k.disabling || k.cfs || s.boot.phase == .off || s.boot.phase == .shutDown || (s.boot.phase == .recovery && ctrl != 0) then s
    else
      let s := if s.ready then { s with ftl := { s.ftl with clean := false } } else s
      ({ s with ftl := { s.ftl with closing := s.ftl.closing.filter (fun c => c != ctrl) } }).setCtrl ctrl { k with en := true, rdy := s.ready, shst := false })

/-- CONTROLLER_DISABLE (R389, R466): the controller's jobs end without completions, and CSTS.RDY clears after the last has stopped. On the PF
it is a PF reset, on a VF a VF reset. -/
def execControllerDisable (ctrl : Fin 33) (s : State) : Out :=
  .next (
    let k := s.ctrl ctrl
    if !k.en || k.cfs then s
    else if !s.ready then
      let s := s.setCtrl ctrl k.afterReset
      if !s.coresRun then s else if ctrl = 0 then s.pfReset (fun _ => false) else s.discardStaged
    else
      let s := ((s.setCtrl ctrl { k with en := false, disabling := true }).dropWaiting (fun c => c.ctrl == ctrl)).silenceJobs (fun j => j.ctrl == ctrl)
      let s := if ctrl = 0 then s.pfReset (fun c => c == 0) else s.discardStaged
      s.settleQueues)

/-- Whether the drive serves nothing but what R457 lists: after a firmware fault (R432), or where a stage has halted (R443). -/
def State.wedged (s : State) : Bool :=
  match s.boot.phase with
  | .faulted => true
  | .halted _ => true
  | _ => false

/-- PF_FLR (R466, R473): every controller is back at its default, and no job completes. -/
def execPfFlr (s : State) : Out :=
  .next (if s.wedged then s
  else
    let t := ({ s with host := { s.host with ctrls := [], held := [] } }).dropWaiting (fun _ => true)
    if s.coresRun then t.pfReset (fun _ => true) else t)

/-- VF_FLR (R466, R471, R473): that controller alone. -/
def execVfFlr (vf : Fin 32) (s : State) : Out :=
  .next (if s.wedged then s
  else
    let c : Fin 33 := vf.succ
    let s := { s with host := { s.host with held := s.host.held.filter (fun o => o.ctrl != c) } }
    let s := s.setCtrl c { (s.ctrl c).afterReset with d3 := false }
    ((s.dropWaiting (fun k => k.ctrl == c)).silenceJobs (fun j => j.ctrl == c)).discardStaged)

/-! ## Group reset (R467, R468) -/

/-- A write of GRPRST (R467, R468), which BAR2 takes from S2 on: it takes its effect at once, so BUSY never reads 1 (log entry 58). -/
def State.writeGrprst (s : State) (value : W64) : State :=
  let gid : W16 := value.setWidth 16
  if !value.getLsbD 16 || s.reg.busy || !s.coresRun then s
  else
    let bad (s : State) : State := { s with reg := { s.reg with resetStatus := stInvalidGroup } }
    let i := gidIndex gid
    if gidLevel gid = 3 ∨ (gidLevel gid = 2 ∧ i < 8 ∧ i ≠ s.ownPos.toNat) then bad s
    else match s.unit? gid with
      | none => bad s
      | some u =>
        let s := s.groupReset gid u.tiles
        { s with reg := { s.reg with resetStatus := stOk } }

/-- GRPRST (R467, R468). -/
def execGrprst (value : W64) (s : State) : Out := .next (s.writeGrprst value)

/-! ## Recovery (R456) -/

/-- Whether a path may write the recovery registers: in recovery, once a path owns the session, only that one. -/
def State.mayRecover (s : State) (p : MgmtPath) : Bool :=
  match s.rcv.owner with
  | some o => s.boot.phase != .recovery || o == p
  | none => true

/-- IMGLEN and CHUNK are written (R456); the first write in recovery claims the session. -/
def State.writeImglen (s : State) (p : MgmtPath) (value : W64) : State :=
  if !s.answers || !s.mayRecover p then s
  else
    let owner := if s.boot.phase = .recovery then some p else s.rcv.owner
    { s with rcv := { s.rcv with imgLen := hi32 value, chunk := value.extractLsb' 16 16, owner := owner } }

/-- IMGLEN_WRITE (R456). -/
def execImglenWrite (path : MgmtPath) (value : W64) (s : State) : Out := .next (s.writeImglen path value)

/-- RCVDATA is written (R456): the last 8 bytes complete the chunk. -/
def State.writeRcvdata (s : State) (p : MgmtPath) (offset : Nat) (value : W64) : State :=
  if s.boot.phase ≠ .recovery ∨ !s.mayRecover p then s
  else
    let off := offset % 4096 / 8 * 8
    let r := s.rcv
    let buf := Mem.wrBytes r.buffer off (leBytes 8 value.toNat)
    if off ≠ 0xFF8 then { s with rcv := { r with buffer := buf } }
    else
      let n := r.chunk.toNat
      let staged := Mem.wrBytes r.staged (4096 * n) (Mem.rdBytes buf 0 4096)
      let got := if r.received.contains n then r.received else r.received ++ [n]
      { s with rcv := { r with buffer := buf, staged := staged, received := got, chunks := r.chunks + 1, chunk := r.chunk + 1, state := 1 } }

/-- RCVDATA (R456). -/
def execRcvdata (path : MgmtPath) (offset : BitVec 12) (value : W64) (s : State) : Out := .next (s.writeRcvdata path offset.toNat value)

/-- RCVSTAT.ERROR of a COMMIT (R456): 0 when the staged image checks. -/
def State.recoveryError (s : State) (m : Manifest) : Nat :=
  let len := s.rcv.imgLen.toNat
  if len = 0 ∨ len % 4096 ≠ 0 ∨ imageMax < len then 1
  else if !(List.range (len / 4096)).all (fun i => s.rcv.received.contains i) then 2
  else s.imageError m

/-- COMMIT_RECOVERY_IMAGE (R434, R456): the slot is written with the staged image when that checks (STATE 3, and 4 when the
writing ends); else it stays, and the session may go on. -/
def execCommitRecoveryImage (path : MgmtPath) (man : Manifest) (s : State) : Out :=
  .next (if s.boot.phase ≠ .recovery ∨ !s.mayRecover path ∨ s.sec.slotWrite.isSome then s
  else
    let e := s.recoveryError man
    if e ≠ 0 then { s with rcv := { s.rcv with error := BitVec.ofNat 4 e, state := 5 } }
    else
      { s.writeSlot man s.rcv.staged none with rcv := { s.rcv with state := 3, error := 0 } })

/-- RCVCTL.RESET (R456, R466). -/
def State.rcvReset (s : State) (p : MgmtPath) : State := if s.mayRecover p then s.driveReset 5 else s

/-- RECOVERY_RESET (R456). -/
def execRecoveryReset (path : MgmtPath) (s : State) : Out := .next (s.rcvReset path)

/-- ENTER (R456): a drive reset into recovery. -/
def execEnter (s : State) : Out := .next (s.driveReset 6)

/-- A write of RCVCTL as a whole (R456): ENTER and RESET reset the drive; a COMMIT is checked by the COMMIT_RECOVERY_IMAGE that follows, which
brings what the staged manifest says. -/
def State.writeRcvctl (s : State) (p : MgmtPath) (value : W64) : State :=
  if value.getLsbD 0 then s.driveReset 6
  else if value.getLsbD 2 then s.rcvReset p
  else
    let t := s.writeImglen p value
    if value.getLsbD 1 && s.boot.phase == .recovery && s.mayRecover p then { t with rcv := { t.rcv with state := 2 } } else t

end Sys2Proof.Machine
end

