-- ==== Sys2Proof/Machine/Registers.lean ====
section
/-! DEFINITION. The BAR2 registers (00 R8 to R12; 04 R101, R102; 07 R184, R189, R197, R199; 08 R242; 11 R327, R341, R343; 12 R382; 14 R422,
R430, R440; 15 R446, R456, R467; 16 R482) and the management path (16 R487, R488). Reads are given for the aligned 64-bit words. -/
namespace Sys2Proof.Machine

/-- A field of a register: `v` modulo 2^n at bit `lo`. -/
def fieldAt (lo n v : Nat) : Nat := v % 2 ^ n * 2 ^ lo
/-- A one-bit field. -/
def bitAt (lo : Nat) (b : Bool) : Nat := if b then 2 ^ lo else 0
/-- A register of fields that do not overlap. -/
def regOf (fields : List Nat) : W64 := BitVec.ofNat 64 (fields.foldl (· + ·) 0)
/-- 64 bits of a byte list at an offset; bytes beyond it read 0. -/
def wordOf (bytes : List Byte) (off : Nat) : W64 := BitVec.ofNat 64 (leNat ((bytes.drop off).take 8))
/-- The half of a 128-bit entry that an offset names. -/
def halfOf (x : W128) (off : Nat) : W64 := if off % 16 = 0 then x.setWidth 64 else x.extractLsb' 64 64

/-! ## BAR0, Identify and configuration space (R384 to R386, R390, R408, R442, R454)

No row of the table reads them: these definitions say what they hold, in NVMe's layout (log entry 209). -/

/-- CAP (R385, R386): MQES, CQR, TO, DSTRD, NSSRS, CSS, MPSMIN and MPSMAX. -/
def capBits : W64 := regOf [fieldAt 0 16 0x3FFF, bitAt 16 true, fieldAt 24 8 120, fieldAt 32 4 0, bitAt 36 true, bitAt 43 true, fieldAt 48 4 0, fieldAt 52 4 4]

/-- A 32-bit word of a function's BAR0 (R385, R386): CAP, VS of NVM Express 2.1, CC.EN, CSTS; what else is implemented and written by the host is
free, and the rest reads 0. -/
def State.readBar0 (s : State) (c : Fin 33) (off : Nat) : W32 :=
  let k := s.ctrl c
  let table := if c = 0 then 0x4000 else 0x2000
  let pba := if c = 0 then 0x5000 else 0x3000
  let vectors := s.vectorsOf c
  if off = 0 then lo32 capBits else if off = 4 then hi32 capBits
  else if off = 8 then 0x00020100
  else if off = 0x1C then lo32 (regOf [bitAt 0 k.rdy, bitAt 1 k.cfs, fieldAt 2 2 (if k.shst then 2 else 0)])
  else if off = 0x14 then (Config.bar0Word s.freeCtr c.val off &&& 0xFFFFFFFE) ||| (if k.en then 1 else 0)
  else if (0xC ≤ off ∧ off < 0x14) ∨ (0x24 ≤ off ∧ off < 0x38) ∨ (table ≤ off ∧ off < table + 16 * vectors) ∨
      (pba ≤ off ∧ off < pba + 8 * ceilDiv vectors 64) then Config.bar0Word s.freeCtr c.val off
  else 0

/-- Fields of the Identify Controller data that the spec gives (R386, R408, R454, R481). -/
structure IdentifyFields where
  mdts : Nat
  vwc : Nat
  nn : Nat
  acl : Nat
  frmw : Nat
  fwug : Nat
  wctemp : Nat
  cctemp : Nat
  deriving DecidableEq, Repr

/-- Identify Controller: 2 MiB transfers at 4 KiB pages, no volatile write cache, 260 namespaces, four abort commands, one firmware slot, 4 KiB
of update granularity, and the warning and critical composite temperatures in kelvins. -/
def identifyFields : IdentifyFields := { mdts := 9, vwc := 0, nn := 260, acl := 3, frmw := 0x02, fwug := 0x01, wctemp := 348, cctemp := 358 }

/-- The NSIDs of the compute, memory and chain namespaces, which the I/O command set specific Identify data reports (R390). -/
def State.reportedNsids (s : State) : List W32 := [s.host.nsCompute, s.host.nsMemory] ++ s.host.nsChain.toList

/-- What the PCI Express port supports (R384). -/
structure PcieFeatures where
  functions : Nat
  payloads : List Nat
  readRequests : List Nat
  tags : Nat
  outstanding : Nat
  /-- rates in the coding of S8's report (R445), and widths -/
  rates : List Nat
  widths : List Nat
  ari : Bool
  aer : Bool
  ecrc : Bool
  /-- D0 and D3hot, ASPM L1 and the L1 PM substates; PMCSR.No_Soft_Reset (R472) -/
  d3hot : Bool
  aspmL1 : Bool
  l1Substates : Bool
  noSoftReset : Bool
  /-- L0s, L0p, ATS, PASID, PRI, TPH and resizable BARs: none is supported -/
  others : List String
  deriving DecidableEq, Repr

/-- One PF and 32 VFs; payloads of 128 to 512 bytes and read requests of 128 to 4,096; 14-bit tags with at most 4,096 requests outstanding. -/
def pcieFeatures : PcieFeatures :=
  { functions := 33, payloads := [128, 256, 512], readRequests := [128, 256, 512, 1024, 2048, 4096], tags := 16384, outstanding := 4096,
    rates := [1, 2, 3, 4, 5, 6], widths := [8, 16], ari := true, aer := true, ecrc := true, d3hot := true, aspmL1 := true, l1Substates := true,
    noSoftReset := true, others := [] }

/-- A byte of a function's configuration space; none is Configuration Request Retry Status, or no answer before S1 (R442), or a function that is not there:
recovery has no VF (R456). PMCSR says No_Soft_Reset and the power state, D0 or D3hot (R472; its bits are PCI Express's, log entry 209). -/
def State.configRead (s : State) (fn : Fin 33) (off : Nat) : Option Byte :=
  let of (image : BitVec 512) : Byte :=
    let b := Config.configByte image fn.val off
    if off = Config.pmcsr image fn.val then (b &&& 0xF4) ||| 8 ||| (if (s.ctrl fn).d3 then 3 else 0) else b
  match s.boot.phase with
  | .off => none
  | .awaiting => none
  | .stage 0 => none
  | .stage 1 => none
  | .recovery => if fn = 0 then some (of 0) else none
  | _ => some (of s.sec.imageDigest)

/-! ## Power (R478, R482) -/

/-- Limits in the order of PWRSRC.SOURCE: POWER_CAP, power state, sense pins, thermal, PWRBRK_N (R417, R477, R478). The pins limit from power good on,
which reads them (R482). -/
def State.limits (s : State) : List Nat :=
  [(s.liveOf 4).toNat, ([300, 200, 120, 45, 12][s.pwr.ps]?).getD 300,
   if s.boot.phase == .off || s.pwr.sense0 || s.pwr.sense1 then 300 else 200, s.pwr.therm] ++ (if s.pwr.pwrbrk then [150] else [])
/-- The effective limit, W. -/
def State.limit (s : State) : Nat := s.limits.foldl Nat.min 300
/-- The lowest-numbered source that sets it. -/
def State.limitSource (s : State) : Nat := (s.limits.findIdx? (fun x => x == s.limit)).getD 0

/-! ## Regions -/

/-- The global region. -/
def State.readGlobal (s : State) (off : Nat) : W64 :=
  let st := s.set
  let p := s.pwr
  if off = 0x100 then s.islandTime srcPcie
  else if off = 0x108 then s.time.epoch.setWidth 64
  else if off = 0x110 then s.time.choff
  else if off = 0x200 then regOf [fieldAt 32 32 (s.liveOf 2).toNat, fieldAt 0 32 (s.liveOf 1).toNat]
  else if off = 0x208 then st.step
  else if off = 0x210 then regOf [fieldAt 48 16 st.refnum.toNat, fieldAt 32 16 s.pendingCount, fieldAt 8 24 st.lastDur.toNat, bitAt 2 st.refused,
    bitAt 1 s.chainSync, bitAt 0 st.event]
  else if off = 0x308 then regOf [fieldAt 32 32 s.reg.resets.toNat, fieldAt 16 16 s.reg.resetStatus.toNat, bitAt 0 s.reg.busy]
  else if off = 0x400 then regOf [fieldAt 48 16 s.limit, fieldAt 32 16 p.therm, fieldAt 0 32 p.input.toNat]
  else if off = 0x408 then regOf [bitAt 7 p.pwrbrk, bitAt 6 p.aux12, bitAt 5 p.sense1, bitAt 4 p.sense0, fieldAt 0 3 s.limitSource]
  else if off = 0x410 then regOf [fieldAt 32 16 p.th.toNat, fieldAt 16 16 p.cap.toNat, fieldAt 0 16 s.slotsUsable]
  else if off = 0x418 then regOf [fieldAt 40 8 p.outlet.toNat, fieldAt 32 8 p.inlet.toNat, fieldAt 24 8 p.bank.toNat, fieldAt 16 8 p.flash.toNat,
    fieldAt 8 8 p.dram.toNat, fieldAt 0 8 p.ctrl.toNat]
  else 0

/-- A die's one-time-programmable row (R341): the bytes that the spec fixes, those of manufacture, the key share among them, and their CRC. -/
def otpRow (d : Nat) : List Byte :=
  let b := (List.range 92).map (fun i =>
    if 68 ≤ i then 0 else if i = 27 then 1 else if i = 26 then 120 else if i = 25 then 0x10 else if i = 24 then 0
    else if i = 23 then BitVec.ofNat 8 (d % 16) else Config.otpByte d i)
  b ++ leBytes 4 (crc32c b).toNat

/-- The bitwise majority of three bytes (R341). -/
def majority (a b c : Byte) : Byte := (a &&& b) ||| (a &&& c) ||| (b &&& c)

/-- Whether a die's row checks (R342): CRC, VERSION, CAPBLK and SPAREBLK. -/
def otpChecks (row : List Byte) : Bool :=
  leNat (row.drop 92) == (crc32c (row.take 92)).toNat && row[27]? == some 1 && leNat ((row.drop 24).take 2) == 4096 && row[26]? == some 120

/-- A die's row as the drive reads it (R341, R342): the majority of its three copies. One that checks is the row of manufacture; what the copies of another hold
is free (log entry 55). -/
def State.otpRead (s : State) (d : Nat) : List Byte :=
  let copy (k : Nat) : List Byte := if (s.die d).otpBad then (List.range 96).map (Config.otpRead d k) else otpRow d
  (copy 0).zipWith (fun a bc => majority a bc.1 bc.2) ((copy 1).zip (copy 2))

/-- Byte `i` of a die's row as the window shows it (R327, R341): the key share reads 0. -/
def State.otpShown (s : State) (d i : Nat) : Byte := if 28 ≤ i ∧ i < 68 then 0 else ((s.otpRead d)[i]?).getD 0

/-- A die's 16-byte entry of its package's calibration row (R343). -/
def calEntry (d : Nat) : List Byte := (List.range 16).map (fun i => if 12 ≤ i then 0 else Config.calByte d i)

/-- The calibration row of a package (R343): a header with MAGIC, VERSION and the CRC of the entries, then an entry per die in POS order. -/
def calRow (ch : Nat) : List Byte :=
  let es := (List.range 16).flatMap (fun i => calEntry (16 * ch + i))
  leBytes 4 0x4C435A55 ++ [1, 0, 0, 0] ++ leBytes 4 (crc32c es).toNat ++ leBytes 4 0 ++ es

/-- Whether a copy of a calibration row checks (R343): its header, and the CRC of its entries. -/
def calChecks (row : List Byte) : Bool :=
  row.take 8 == leBytes 4 0x4C435A55 ++ [1, 0, 0, 0] && leNat ((row.drop 8).take 4) == (crc32c (row.drop 16)).toNat && (row.drop 12).take 4 == leBytes 4 0

/-- The primary and the mirror copy of a package's row (R343), of which one checks: the primary, unless it is spoiled (log entry 55). -/
def calCopies (ch : Nat) : List (List Byte) := [if Config.calSpoiled ch then (List.range 272).map (Config.calPrimary ch) else calRow ch, calRow ch]

/-- The first copy of a package's row whose header and CRC check (R343). -/
def calLoad (copies : List (List Byte)) : Option (List Byte) := copies.find? calChecks

/-- Byte `i` of a die's calibration entry as the window shows it (R343). -/
def calShown (d i : Nat) : Byte := ((calRow (d / 16))[16 + 16 * (d % 16) + i]?).getD 0

/-- The program and erase trims on which a die runs (R343, R344): those of its entry in the first copy that checks, none where the package runs on the default
trims of its base die. -/
def State.trims (s : State) (d : Nat) : Option (List Byte) :=
  if (s.die d).calDef then none else (calLoad (calCopies (d / 16))).map (fun row => (row.drop (16 + 16 * (d % 16))).take 6)

/-- The hottest of a list of temperatures; 0 for none. -/
def hottest : List Byte → Byte
  | [] => 0
  | [x] => x
  | x :: y :: xs => let m := hottest (y :: xs); if m.toInt < x.toInt then x else m

/-- The flash region (R327, R382). -/
def State.readFlash (s : State) (off : Nat) : W64 :=
  let ch := s.media.chsel.toNat
  let d := 16 * ch + s.media.diesel.toNat
  let c : Chan := getD {} s.media.chans ch
  let x := s.die d
  let dies := (List.range 16).map (fun i => s.die (16 * ch + i))
  if off = 0 then regOf [fieldAt 8 4 s.media.diesel.toNat, fieldAt 0 5 ch]
  else if off = 0x100 then
    let ok := dies.zipIdx.foldl (fun n (y, i) => n + bitAt i (c.trained && !y.failed)) 0
    let queued := dies.foldl (fun n y => n + y.reads.length + y.writes.length) 0
    regOf [fieldAt 48 16 ok, fieldAt 40 8 (hottest ((dies.filter (fun y => y.tempRead)).map (fun y => y.temp))).toNat, fieldAt 32 8 (Nat.min 255 queued),
           bitAt 1 (dies.any (fun y => y.failed)), bitAt 0 c.trained]
  else if off = 0x110 then c.reads else if off = 0x118 then c.progs else if off = 0x120 then c.erases
  else if off = 0x128 then c.suspends else if off = 0x130 then c.retries else if off = 0x138 then c.uncorr
  else if off = 0x140 then c.rdmax.setWidth 64
  else if off = 0x200 then regOf [fieldAt 48 16 x.retired, fieldAt 40 8 x.temp.toNat, fieldAt 32 8 x.spares, bitAt 2 x.calDef, bitAt 1 x.otpBad,
    bitAt 0 x.failed]
  else if off = 0x208 then 
    let (top, sum, n) := s.wears d
    regOf [fieldAt 32 32 top, fieldAt 0 32 (sum / n)]
  else if 0x240 ≤ off ∧ off < 0x2A0 then wordOf ((List.range 96).map (s.otpShown d)) (off - 0x240)
  else if 0x2A0 ≤ off ∧ off < 0x2B0 then wordOf ((List.range 16).map (calShown d)) (off - 0x2A0)
  else if off = 0x300 then regOf [fieldAt 32 16 s.spareFree, fieldAt 8 24 s.freeBlocks, bitAt 2 s.ftl.readOnly, bitAt 1 s.ftl.unsafe_, bitAt 0 s.ftl.mapLive]
  else if off = 0x308 then s.ftl.hostUnits else if off = 0x310 then s.ftl.mediaUnits
  else 0

/-- The DRAM-stack region (R242). -/
def State.readStack (s : State) (off : Nat) : W64 :=
  let k := s.reg.stksel.toNat
  if off = 0 then s.reg.stksel.setWidth 64
  else if off = 0x100 then
    regOf [fieldAt 48 16 (getD 0 s.obj.retired k).toNat, fieldAt 40 8 (getD 0 s.obj.temp k).toNat, fieldAt 24 16 (getD 0 s.obj.halts k).toNat,
      bitAt 16 (s.obj.trained.getLsbD k), (List.range 16).foldl (fun n c => n + bitAt c (s.obj.halted.contains (k, c))) 0]
  else 0

/-- The tile that TILESEL names (R101): none for an index that is out of range. -/
def State.shownTile (s : State) : Option Tile :=
  let n := s.reg.tilesel.toNat
  if s.reg.tilephys then
    if 272 ≤ n then none else some (((allTiles.find? (fun t => s.physOf t == n)).map s.tile).getD (getD {} s.boot.idle n))
  else if 256 ≤ n then none else some (s.tile n)

/-- The tile region (R102). ACYC counts 1.5 GHz cycles from the tile's reset. -/
def State.readTile (s : State) (off : Nat) : W64 :=
  if off = 0 then regOf [bitAt 15 s.reg.tilephys, fieldAt 0 9 s.reg.tilesel.toNat]
  else match s.shownTile with
  | none => 0
  | some x =>
    let from_ := Nat.max x.acycFrom.toNat s.boot.zero.toNat
    if off = 0x200 then BitVec.ofNat 64 ((s.time.now.toNat - from_) * 3 / 2)
    else if off = 0x208 then x.amac
    else if off = 0x210 then
      let form := match x.form with
        | .standard => 0
        | .wide => 1
        | .deep => 2
      regOf [fieldAt 34 2 form, bitAt 33 x.spurOn, fieldAt 0 32 x.reforms.toNat]
    else if off = 0x218 then x.abwait
    else 0

/-- The Penla region (R430). -/
def State.readPort (s : State) (off : Nat) : W64 :=
  let x := s.port s.reg.portsel.toNat
  if off = 0 then s.reg.portsel.setWidth 64
  else if off = 0x100 then regOf [fieldAt 32 32 x.corr.toNat, fieldAt 0 32 x.uncorr.toNat]
  else if off = 0x108 then regOf [fieldAt 32 32 x.replays.toNat, fieldAt 16 16 x.retrains.toNat, fieldAt 0 8 x.lanes.toNat]
  else 0

/-- The ECC region (R422). -/
def State.readEcc (s : State) (off : Nat) : W64 :=
  let k := s.ecc.memsel.toNat
  let x := s.eccKind k
  if off = 0 then s.ecc.memsel.setWidth 64
  else if 6 ≤ k then 0
  else if off = 0x100 then regOf [fieldAt 32 32 x.ce.toNat, fieldAt 0 32 x.ue.toNat]
  else if off = 0x110 then regOf [fieldAt 32 32 x.written.toNat, fieldAt 0 4 (x.written.toNat % 16)]
  else if off = 0x118 then x.pos
  else if off = 0x120 then x.passes
  else if 0x200 ≤ off ∧ off < 0x300 then halfOf (getD 0 x.table ((off - 0x200) / 16)) off
  else 0

/-- The entry number that the cairn-log ring holds at an index (R189); none when nothing has been written there. -/
def State.ringEntry (s : State) (i : Nat) : Option Nat :=
  let w := s.time.written.toNat
  if w % logCap ≤ i then (if w < logCap then none else some (w - w % logCap - logCap + i)) else some (w - w % logCap + i)

/-- The cairn-log region (R189), CLDATA apart. -/
def State.readLog (s : State) (off : Nat) : W64 :=
  if off = 0 then s.time.written else if off = 8 then s.time.lost else if off = 0x10 then s.time.readAt.setWidth 64 else 0

/-- The management region (R440, R446, R456). RCVDATA reads 0. -/
def State.readMgmt (s : State) (off : Nat) : W64 :=
  let c := s.sec
  let r := s.rcv
  if off = 0 then regOf [fieldAt 56 8 c.fusedSvn.toNat, fieldAt 48 8 c.imageSvn.toNat, fieldAt 44 4 c.revoked.toNat, fieldAt 42 2 c.keySlot.val,
    bitAt 3 c.debug, bitAt 2 (s.boot.phase == .recovery), bitAt 1 c.mbk, bitAt 0 c.prod]
  else if off = 0x100 then regOf [fieldAt 32 32 r.imgLen.toNat, fieldAt 16 16 r.chunk.toNat]
  else if off = 0x108 then regOf [fieldAt 32 16 r.chunks.toNat, fieldAt 12 4 r.cause.toNat, fieldAt 8 4 r.error.toNat, fieldAt 0 3 r.state.toNat]
  else if off = 0x110 then s.time.errHead
  else if 0x2000 ≤ off ∧ off < 0x3000 then wordOf s.bootReport (off - 0x2000)
  else if 0x3000 ≤ off ∧ off < 0x4000 then wordOf s.boot.previous (off - 0x3000)
  else if 0x4000 ≤ off ∧ off < 0x5000 then
    let i := (off - 0x4000) / 16
    let w := s.time.errHead.toNat
    let back := (w + 255 - i) % 256
    halfOf ((s.time.errors[back]?).getD 0) off
  else 0

/-- What a read of the 64-bit word at an offset of BAR2 returns (R11, R12): CLDATA apart, reading changes nothing. -/
def State.readBar2 (s : State) (off : Nat) : W64 :=
  let low := off % 0x100000
  match off / 0x100000 with
  | 0 => s.readGlobal low
  | 1 => s.readFlash low
  | 2 => s.readStack low
  | 3 => s.readTile low
  | 4 => s.readPort low
  | 5 => s.readEcc low
  | 6 => s.readLog low
  | 7 => s.readMgmt low
  | _ => 0

/-! ## Registers with an effect of their own -/

/-- Whether the PF presents BAR2 (R442, R443, R456): not before S1 has ended, nor while a fault or a halt leaves only the management region. -/
def State.presents (s : State) : Bool :=
  match s.boot.phase with
  | .stage n => decide (2 ≤ n.val)
  | .ready => true
  | .recovery => true
  | _ => false

/-- CLDATA_READ (R189): a read of the high half returns it, marks the entry read and advances INDEX. What a place holds that nothing has written
is free (log entry 56). -/
def execCldataRead (high : Bool) (s : State) : Out :=
  .next (if !s.presents then s
  else
    let w := s.time.written.toNat
    let (x, s) := match s.ringEntry s.time.readAt.toNat with
      | none => let (k, s) := s.draw
                (Config.logCell k, s)
      | some i =>
        let e : W128 := s.logEntry i
        let seen := if high then s.time.log.zipIdx.map (fun (x : LogEntry × Nat) => if x.2 + 1 + i = w then { x.1 with seen := true } else x.1) else s.time.log
        (halfOf e (if high then 8 else 0), { s with time := { s.time with log := seen } })
    { s with reg := { s.reg with read := some x }, time := { s.time with readAt := if high then s.time.readAt + 1 else s.time.readAt } })

/-- A write of CHCLR (R327). -/
def State.writeChclr (s : State) (value : W64) : State :=
  if !value.getLsbD 0 then s
  else
    let c : Chan := getD {} s.media.chans s.media.chsel.toNat
    { s with media := { s.media with chans := put s.media.chsel.toNat { trained := c.trained } s.media.chans } }

/-- CHCLR (R327). -/
def execChclr (value : W64) (s : State) : Out := .next (if s.presents then s.writeChclr value else s)

/-- A write of ECCCLR (R422). -/
def State.writeEccclr (s : State) (value : W64) : State :=
  let k := s.ecc.memsel.toNat
  if !value.getLsbD 0 || decide (6 ≤ k) then s else s.setEccKind k { s.eccKind k with ce := 0, ue := 0 }

/-- ECCCLR (R422). -/
def execEccclr (value : W64) (s : State) : Out := .next (if s.presents then s.writeEccclr value else s)

/-- A refused WS write (R199): REFUSED, REFNUM and STAGE_REFUSED. -/
def State.refuseStage (s : State) (num : Nat) : State :=
  ({ s with set := { s.set with refused := true, refnum := BitVec.ofNat 16 num } }).stamp (srcControl 0) 0x1B (BitVec.ofNat 28 num)

/-- A write of STEPCTL's fields (R197, R199): the low field is STEP_PERIOD, the high one STEP_LIMIT; both are one change. -/
def State.writeStepctl (s : State) (value : W64) (lo hi : Bool) : State :=
  let first : Except W16 (W64 × State) := if lo then s.stageChange 1 0 ((lo32 value).setWidth 64) [] else .ok (0, s)
  match first with
  | .error _ => s.refuseStage 1
  | .ok (_, t) =>
    if !hi then t
    else match t.stageChange 2 0 ((hi32 value).setWidth 64) [] with
      | .error _ => s.refuseStage 2
      | .ok (_, u) => u

/-- STEPCTL_WRITE (R197, R199). -/
def execStepctlWrite (value : W64) (lo hi : Bool) (s : State) : Out := .next (if s.presents then s.writeStepctl value lo hi else s)

/-! ## Writes and the management path -/

/-- The management region's registers that a path writes (R456, R488). -/
def State.writeMgmt (s : State) (p : MgmtPath) (off : Nat) (value : W64) : State :=
  if off = 0x100 then s.writeRcvctl p value
  else if 0x1000 ≤ off ∧ off < 0x2000 then s.writeRcvdata p (off - 0x1000) value
  else s

/-- A write of the 64-bit word at an offset of BAR2 (R11, R12): selects take effect at once, SADSTAT.REFUSED clears by a 1, and read-only
registers and offsets that hold none ignore it. A write to the tile region past TILESEL has no register to change. -/
def State.writeBar2 (s : State) (off : Nat) (value : W64) : State :=
  if off = 0x000200 then s.writeStepctl value true true
  else if off = 0x000210 then (if value.getLsbD 2 then { s with set := { s.set with refused := false } } else s)
  else if off = 0x000300 then s.writeGrprst value
  else if off = 0x100000 then { s with media := { s.media with chsel := value.setWidth 5, diesel := value.extractLsb' 8 4 } }
  else if off = 0x100180 then s.writeChclr value
  else if off = 0x200000 then { s with reg := { s.reg with stksel := value.setWidth 1 } }
  else if off = 0x300000 then { s with reg := { s.reg with tilesel := value.setWidth 9, tilephys := value.getLsbD 15 } }
  else if off = 0x400000 then { s with reg := { s.reg with portsel := value.setWidth 1 } }
  else if off = 0x500000 then { s with ecc := { s.ecc with memsel := value.setWidth 3 } }
  else if off = 0x500108 then s.writeEccclr value
  else if off = 0x600010 then { s with time := { s.time with readAt := value.setWidth 22 } }
  else if off / 0x100000 = 7 then s.writeMgmt .bar2 (off % 0x100000) value
  else s

/-- REGISTER_WRITE (R11): through BAR2. When the drive halts or has faulted, the management region alone is served (R443, R457). -/
def execRegisterWrite (offset : W32) (value : W64) (s : State) : Out :=
  let off := offset.toNat
  .next (if s.presents || (s.answers && off / 0x100000 == 7) then s.writeBar2 off value else s)

/-- The offsets of REGISTER READ over NVMe-MI (R488). -/
def miReadable (off : Nat) : Bool := decide (off % 8 = 0) && decide (0x700000 ≤ off) && decide (off ≤ 0x704FF8)

/-- REGISTER_READ (R488): 8 bytes, or Invalid Parameter. -/
def execRegisterRead (offset : W32) (s : State) : Out :=
  let off := offset.toNat
  .next (if !s.answers then s
  else if !miReadable off then s.respond [miInvalid]
  else
    let v := s.readBar2 off
    ({ s with reg := { s.reg with read := some v } }).respond (miOk :: leBytes 8 v.toNat))

/-- MI_REGISTER_WRITE (R488): RCVCTL and RCVDATA alone. -/
def execMiRegisterWrite (offset : W32) (value : W64) (s : State) : Out :=
  let off := offset.toNat
  .next (if !s.answers then s
  else if off % 8 ≠ 0 ∨ !(off = 0x700100 ∨ (0x701000 ≤ off ∧ off < 0x702000)) then s.respond [miInvalid]
  else (s.respond [miOk]).writeMgmt .mi (off - 0x700000) value)

/-- What the management block answers to beside its own commands (R487): the addresses of its buses, and the Admin commands that may be tunnelled. -/
structure MiFeatures where
  mctp : Nat
  vpd : Nat
  arp : Bool
  i3c : Nat
  holdOffMs : Nat
  tunnelled : List Nat
  deriving DecidableEq, Repr

/-- The MCTP endpoint at 0x1D, FRU and VPD memory at 0x53, and Identify, Get Log Page and Get Features alone. -/
def miFeatures : MiFeatures := { mctp := 0x1D, vpd := 0x53, arp := true, i3c := 0x1D, holdOffMs := 25, tunnelled := [0x06, 0x02, 0x0A] }

/-- BASIC_MANAGEMENT_COMMAND (R487): the management block answers; what is in the answer is not the spec's (log entry 57). -/
def execBasicManagementCommand (s : State) : Out :=
  .next (if !s.answers then s
  else
    let (k, s) := s.draw
    s.respond ((List.range 32).map (Config.basicByte k)))

end Sys2Proof.Machine
end

