-- ==== Sys2Proof/Machine/Power.lean ====
section
/-! DEFINITION. Power, sensors, power states, the debug port and the PCIe link (13 R384, R417, R418; 15 R472; 16 R478 to R482, R489). -/
namespace Sys2Proof.Machine

/-- Whether the card runs at all: it has passed power good. -/
def State.powered (s : State) : Bool := s.boot.phase != .off && s.boot.phase != .shutDown

/-- PWRBRK_N (R478, R482). -/
def execPwrbrkN (asserted : Bool) (s : State) : Out :=
  .next (if s.powered then { s with pwr := { s.pwr with pwrbrk := asserted } } else s)

/-- POWER_MEASUREMENT (R478, R482): the average of the last 1 ms, in mW. The drive stays within the limit by slowing work: only latency
changes. -/
def execPowerMeasurement (milliwatts : W32) (s : State) : Out :=
  .next (if s.powered then { s with pwr := { s.pwr with input := milliwatts } } else s)

/-- SENSOR_READ (R481): a sensor that cannot be read keeps its field: a die before its channel has trained or once it has failed, a stack that
has not trained. -/
def execSensorRead (r : Readings) (s : State) : Out :=
  .next (if !s.powered then s
  else
    let live := r.dies.filter (fun (d, _) => (s.chanOf d.val).trained && !(s.die d.val).failed)
    let s1 := live.foldl (fun (s : State) (d, t) => s.updDie d.val (fun x => { x with temp := t, tempRead := true })) s
    let drams := [(0, r.dram0), (1, r.dram1)].filter (fun (k, _) => s.obj.trained.getLsbD k)
    let temp := drams.foldl (fun m (k, t) => put k t m) s.obj.temp
    let pwr := { s.pwr with
      ctrl := r.ctrl, bank := r.bank, inlet := r.inlet, outlet := r.outlet,
      dram := if drams.isEmpty then s.pwr.dram else hottest (drams.map Prod.snd),
      flash := if live.isEmpty then s.pwr.flash else hottest (live.map Prod.snd) }
    { s1 with pwr := pwr, obj := { s1.obj with temp := temp } })

/-- THERMAL (R478, R481, R483): 25 W less while a sensor is at or above its throttle point, 25 W more once every sensor is 5 °C below. Each
lowering is stamped, with the first sensor that calls for it. -/
def execThermal (s : State) : Out :=
  .next (if !s.powered then s
  else match s.sensors.findIdx? (fun x => decide (x.2.1 ≤ x.1)) with
  | some i =>
    if s.pwr.therm ≤ 100 then s
    else
      let w := s.pwr.therm - 25
      ({ s with pwr := { s.pwr with therm := w } }).stamp (srcControl 0) 0x76 (BitVec.ofNat 12 w ++ BitVec.ofNat 3 i ++ (0 : BitVec 13))
  | none =>
    if s.sensors.all (fun x => decide (x.1 + 5 ≤ x.2.1)) && decide (s.pwr.therm < 300) then
      { s with pwr := { s.pwr with therm := s.pwr.therm + 25 } }
    else s)

/-- T_h in units of 0.1 ms, to the nearest, of a bank of `c` µF (R479): ½ × C × (35² − 14²) / 180 W. -/
def holdupTime (c : Nat) : Nat := (c * 1029 + 18000) / 36000
/-- Write-buffer slots usable with it (R479). -/
def holdupSlots (c : Nat) : Nat := if 9000000 ≤ c * 1029 then 16384 else if 4320000 ≤ c * 1029 then 4096 else 256

/-- HOLDUP (R479, R482, R483): a measurement of C ends and sets the slots, and is stamped when it changes them. -/
def execHoldup (microfarads : W16) (s : State) : Out :=
  .next (if !s.powered then s
  else
    let c := microfarads.toNat
    let slots := holdupSlots c
    let t := { s with pwr := { s.pwr with cap := microfarads, th := BitVec.ofNat 16 (holdupTime c), measuring := false }, ftl := { s.ftl with slots := slots } }
    if slots = s.ftl.slots then t
    else t.stamp (srcControl 0) 0x77 (BitVec.ofNat 12 (holdupTime c) ++ BitVec.ofNat 16 slots))

/-! ## Power states (R417, R418, R473) -/

/-- POWER_STATE_ENTRY (R418): once no job runs, no command is outstanding and the buffer is empty. PS4 loses Tier S and the instruction stores,
so S4 and S5 run again after it. -/
def execPowerStateEntry (s : State) : Out :=
  .next (match s.pwr.entering with
  | none => s
  | some p =>
    if !s.ready || !s.host.jobs.isEmpty || !s.ioDone then s
    else
      let t := { s with pwr := { s.pwr with ps := p, entering := none } }
      if p ≠ 4 then t
      else
        let u := (t.wipeUnits.dropUnitErrors).loseTiers false
        let dir := u.obj.dir.map (fun e => (e.1, { e.2 with ps4 := e.2.wantS.isSome }))
        { u with obj := { u.obj with dir := dir }, boot := { u.boot with again := some 4 } })

/-- AUTONOMOUS_POWER_STATE_TRANSITION (R418): PS3 and PS4 alone, from an operational state; the selection commits at the next saddle. -/
def execAutonomousPowerStateTransition (ps : Fin 5) (s : State) : Out :=
  .next (if !s.ready || decide (ps.val < 3) || decide (3 ≤ s.pwr.ps) || s.pwr.entering.isSome || !s.host.jobs.isEmpty then s
  else { s with set := { s.set with pendPower := some ps.val } })

/-- POWER_STATE_EXIT (R418): the drive is back in its last operational state and the exit latency has elapsed, so what waited is sent. -/
def execPowerStateExit (s : State) : Out :=
  .next (if !s.pwr.exiting && decide (s.pwr.ps < 3) then s
  else
    let t := { s with pwr := { s.pwr with ps := if s.pwr.ps < 3 then s.pwr.ps else s.pwr.lastOp, entering := none, exiting := false } }
    ({ t with boot := { t.boot with started := if t.boot.again.isSome then t.time.now else t.boot.started } }).flushHeld)

/-- D3HOT (R472). -/
def execD3hot (fn : Fin 33) (s : State) : Out := .next (if s.powered then s.updCtrl fn (fun k => { k with d3 := true }) else s)

/-- RETURN_TO_D0 (R472). -/
def execReturnToD0 (fn : Fin 33) (s : State) : Out :=
  .next (if s.powered then (s.updCtrl fn (fun k => { k with d3 := false })).flushHeld else s)

/-! ## Debug port and PCIe -/

/-- DEBUG_UNLOCK (R489): a valid answer by an unrevoked key, on a card whose PROD fuse is set, counts at the next drive reset. -/
def execDebugUnlock (slot : Fin 4) (valid : Bool) (s : State) : Out :=
  .next (if s.powered && s.sec.prod && valid && !s.sec.revoked.getLsbD slot.val then { s with sec := { s.sec with debugNext := true } } else s)

/-- PCIE_TRAINING_DONE (R384, R442, R445): an x16 or x8 link at its rate, or none. Training starts with S1. -/
def execPcieTrainingDone (rate : Fin 7) (lanes : Byte) (s : State) : Out :=
  .next (
    let starts : Bool := match s.boot.phase with
      | .stage n => decide (1 ≤ n.val)
      | .off => false
      | .awaiting => false
      | .shutDown => false
      | _ => true
    if !starts then s
    else if rate.val = 0 ∨ (lanes ≠ 16 ∧ lanes ≠ 8) then { s with link := { s.link with pcieRate := 0, pcieLanes := 0 } }
    else { s with link := { s.link with pcieRate := BitVec.ofNat 8 rate.val, pcieLanes := lanes } })

end Sys2Proof.Machine
end

