-- ==== Sys2Proof/Machine/Predicate.lean ====
section
/-! DEFINITION. The predicate group (06 R145). -/
namespace Sys2Proof.Machine

/-- pd = all ones when the compare holds, all zeros when it does not (R121, R145). -/
def cmpAct (f : W64 → W64 → Bool) (ag : Agent) (w : IWord) (s : State) : Act :=
  .done (s.updRegs ag (fun r => r.wp w.dst (if f (r.rs w.srcA) (r.rs w.srcB) then BitVec.allOnes 64 else 0)))
/-- pd = f pa pb. -/
def predAct (f : W64 → W64 → W64) (ag : Agent) (w : IWord) (s : State) : Act :=
  .done (s.updRegs ag (fun r => r.wp w.dst (f (r.rp w.srcA) (r.rp w.srcB))))
/-- sd = f pa. -/
def predToScalar (f : W64 → W64) (ag : Agent) (w : IWord) (s : State) : Act :=
  .done (s.updRegs ag (fun r => r.ws w.dst (f (r.rp w.srcA))))
/-- The number of 1 bits. -/
def popCount (x : W64) : Nat := (activeLanes x).length
/-- The index of the lowest 1 bit, 64 when there is none. -/
def firstSet (x : W64) : Nat := ((activeLanes x)[0]?).getD 64

/-- CMP.EQ (R145). -/
def execCmpEq (ag : Agent) (w : IWord) (s : State) : Out :=
  .next (s.issue { major := 0x0C, minor := 0x00, dst := .p, a := .s, b := .s } ag w (cmpAct (fun a b => a == b) ag w))

/-- CMP.NE (R145). -/
def execCmpNe (ag : Agent) (w : IWord) (s : State) : Out :=
  .next (s.issue { major := 0x0C, minor := 0x01, dst := .p, a := .s, b := .s } ag w (cmpAct (fun a b => a != b) ag w))

/-- CMP.LT (R145). -/
def execCmpLt (ag : Agent) (w : IWord) (s : State) : Out :=
  .next (s.issue { major := 0x0C, minor := 0x02, dst := .p, a := .s, b := .s } ag w (cmpAct (fun a b => a.slt b) ag w))

/-- CMP.LTU (R145). -/
def execCmpLtu (ag : Agent) (w : IWord) (s : State) : Out :=
  .next (s.issue { major := 0x0C, minor := 0x03, dst := .p, a := .s, b := .s } ag w (cmpAct (fun a b => a.ult b) ag w))

/-- CMP.LE (R145). -/
def execCmpLe (ag : Agent) (w : IWord) (s : State) : Out :=
  .next (s.issue { major := 0x0C, minor := 0x04, dst := .p, a := .s, b := .s } ag w (cmpAct (fun a b => a.sle b) ag w))

/-- CMP.LEU (R145). -/
def execCmpLeu (ag : Agent) (w : IWord) (s : State) : Out :=
  .next (s.issue { major := 0x0C, minor := 0x05, dst := .p, a := .s, b := .s } ag w (cmpAct (fun a b => a.ule b) ag w))

/-- PAND (R145). -/
def execPand (ag : Agent) (w : IWord) (s : State) : Out :=
  .next (s.issue { major := 0x0C, minor := 0x08, dst := .p, a := .p, b := .p } ag w (predAct (fun a b => a &&& b) ag w))

/-- POR (R145). -/
def execPor (ag : Agent) (w : IWord) (s : State) : Out :=
  .next (s.issue { major := 0x0C, minor := 0x09, dst := .p, a := .p, b := .p } ag w (predAct (fun a b => a ||| b) ag w))

/-- PXOR (R145). -/
def execPxor (ag : Agent) (w : IWord) (s : State) : Out :=
  .next (s.issue { major := 0x0C, minor := 0x0A, dst := .p, a := .p, b := .p } ag w (predAct (fun a b => a ^^^ b) ag w))

/-- PANDN (R145). -/
def execPandn (ag : Agent) (w : IWord) (s : State) : Out :=
  .next (s.issue { major := 0x0C, minor := 0x0B, dst := .p, a := .p, b := .p } ag w (predAct (fun a b => a &&& ~~~ b) ag w))

/-- PNOT (R145). -/
def execPnot (ag : Agent) (w : IWord) (s : State) : Out :=
  .next (s.issue { major := 0x0C, minor := 0x0C, dst := .p, a := .p } ag w (predAct (fun a _ => ~~~ a) ag w))

/-- PMOV (R145). -/
def execPmov (ag : Agent) (w : IWord) (s : State) : Out :=
  .next (s.issue { major := 0x0C, minor := 0x0D, dst := .p, a := .s } ag w (fun s => .done (s.updRegs ag (fun r => r.wp w.dst (r.rs w.srcA)))))

/-- PRD (R145). -/
def execPrd (ag : Agent) (w : IWord) (s : State) : Out :=
  .next (s.issue { major := 0x0C, minor := 0x0E, dst := .s, a := .p } ag w (predToScalar id ag w))

/-- PCNT (R145). -/
def execPcnt (ag : Agent) (w : IWord) (s : State) : Out :=
  .next (s.issue { major := 0x0C, minor := 0x0F, dst := .s, a := .p } ag w (predToScalar (fun x => BitVec.ofNat 64 (popCount x)) ag w))

/-- PFIRST (R145). -/
def execPfirst (ag : Agent) (w : IWord) (s : State) : Out :=
  .next (s.issue { major := 0x0C, minor := 0x10, dst := .s, a := .p } ag w (predToScalar (fun x => BitVec.ofNat 64 (firstSet x)) ag w))

end Sys2Proof.Machine
end

