-- ==== Sys2Proof/Machine/Scalar.lean ====
section
/-! DEFINITION. The scalar group (06 R141, R142). Each meaning names its operands and effect once and is issued
by State.issue. -/
namespace Sys2Proof.Machine

/-- sd = f sa sb. -/
def alu2 (f : W64 → W64 → W64) (ag : Agent) (w : IWord) (s : State) : Act :=
  .done (s.updRegs ag (fun r => r.ws w.dst (f (r.rs w.srcA) (r.rs w.srcB))))
/-- sd = f sa IMM, IMM sign-extended. -/
def aluImm (f : W64 → W64 → W64) (ag : Agent) (w : IWord) (s : State) : Act :=
  .done (s.updRegs ag (fun r => r.ws w.dst (f (r.rs w.srcA) (sext w.imm))))
/-- sd = f sa (IMM 5:0). -/
def shiftImm (f : W64 → Nat → W64) (ag : Agent) (w : IWord) (s : State) : Act :=
  .done (s.updRegs ag (fun r => r.ws w.dst (f (r.rs w.srcA) (w.imm.toNat % 64))))
/-- A load of `n` bytes, zero-extended or sign-extended (R141). -/
def loadAct (n : Nat) (signed : Bool) (ag : Agent) (w : IWord) (m : EccHit) (s : State) : Act :=
  match ag with
  | .ctx _ _ => .trap 0 0
  | .core t c =>
    let a := (s.regs ag).rs w.srcA + sext w.imm
    readSram t c a n m s (fun s =>
      let x := s.sramNat t.val a.toNat n
      let v : W64 := if signed then (BitVec.ofNat (8 * n) x).signExtend 64 else BitVec.ofNat 64 x
      .done (s.updRegs ag (fun r => r.ws w.dst v)))
/-- A store of the low `n` bytes of sb (R141); a store into part of a word that holds an uncorrectable error
is discarded and raises DATA_ECC, and a store of the whole word removes the error (R423). -/
def storeAct (n : Nat) (ag : Agent) (w : IWord) (m : EccHit) (s : State) : Act :=
  match ag with
  | .ctx _ _ => .trap 0 0
  | .core t c =>
    let a := (s.regs ag).rs w.srcA + sext w.imm
    let put (s : State) : Act := .done (s.sramWrite t.val a.toNat (leBytes n ((s.regs ag).rs w.srcB).toNat))
    if n = 8 then
      match accessTrap a n with
      | some v => .trap v a
      | none => if s.streamClash t.val c.val a.toNat n then s.awaitStreams t c a.toNat n else put s
    else readSram t c a n m s put

/-- ADD (R141). -/
def execAdd (ag : Agent) (w : IWord) (s : State) : Out :=
  .next (s.issue { major := 0x00, minor := 0x00, dst := .s, a := .s, b := .s } ag w (alu2 (fun a b => a + b) ag w))

/-- SUB (R141). -/
def execSub (ag : Agent) (w : IWord) (s : State) : Out :=
  .next (s.issue { major := 0x00, minor := 0x01, dst := .s, a := .s, b := .s } ag w (alu2 (fun a b => a - b) ag w))

/-- AND (R141). -/
def execAnd (ag : Agent) (w : IWord) (s : State) : Out :=
  .next (s.issue { major := 0x00, minor := 0x02, dst := .s, a := .s, b := .s } ag w (alu2 (fun a b => a &&& b) ag w))

/-- OR (R141). -/
def execOr (ag : Agent) (w : IWord) (s : State) : Out :=
  .next (s.issue { major := 0x00, minor := 0x03, dst := .s, a := .s, b := .s } ag w (alu2 (fun a b => a ||| b) ag w))

/-- XOR (R141). -/
def execXor (ag : Agent) (w : IWord) (s : State) : Out :=
  .next (s.issue { major := 0x00, minor := 0x04, dst := .s, a := .s, b := .s } ag w (alu2 (fun a b => a ^^^ b) ag w))

/-- SHL (R141). -/
def execShl (ag : Agent) (w : IWord) (s : State) : Out :=
  .next (s.issue { major := 0x00, minor := 0x05, dst := .s, a := .s, b := .s } ag w (alu2 (fun a b => a <<< (b.toNat % 64)) ag w))

/-- SHR (R141). -/
def execShr (ag : Agent) (w : IWord) (s : State) : Out :=
  .next (s.issue { major := 0x00, minor := 0x06, dst := .s, a := .s, b := .s } ag w (alu2 (fun a b => a >>> (b.toNat % 64)) ag w))

/-- SRA (R141). -/
def execSra (ag : Agent) (w : IWord) (s : State) : Out :=
  .next (s.issue { major := 0x00, minor := 0x07, dst := .s, a := .s, b := .s } ag w (alu2 (fun a b => a.sshiftRight (b.toNat % 64)) ag w))

/-- MUL (R141). -/
def execMul (ag : Agent) (w : IWord) (s : State) : Out :=
  .next (s.issue { major := 0x00, minor := 0x08, dst := .s, a := .s, b := .s } ag w (alu2 (fun a b => a * b) ag w))

/-- MULHU (R141). -/
def execMulhu (ag : Agent) (w : IWord) (s : State) : Out :=
  .next (s.issue { major := 0x00, minor := 0x09, dst := .s, a := .s, b := .s } ag w (alu2 (fun a b => BitVec.ofNat 64 (a.toNat * b.toNat / 2 ^ 64)) ag w))

/-- MIN (R141). -/
def execMin (ag : Agent) (w : IWord) (s : State) : Out :=
  .next (s.issue { major := 0x00, minor := 0x0A, dst := .s, a := .s, b := .s } ag w (alu2 (fun a b => if a.sle b then a else b) ag w))

/-- MAX (R141). -/
def execMax (ag : Agent) (w : IWord) (s : State) : Out :=
  .next (s.issue { major := 0x00, minor := 0x0B, dst := .s, a := .s, b := .s } ag w (alu2 (fun a b => if a.sle b then b else a) ag w))

/-- MINU (R141). -/
def execMinu (ag : Agent) (w : IWord) (s : State) : Out :=
  .next (s.issue { major := 0x00, minor := 0x0C, dst := .s, a := .s, b := .s } ag w (alu2 (fun a b => if a ≤ b then a else b) ag w))

/-- MAXU (R141). -/
def execMaxu (ag : Agent) (w : IWord) (s : State) : Out :=
  .next (s.issue { major := 0x00, minor := 0x0D, dst := .s, a := .s, b := .s } ag w (alu2 (fun a b => if a ≤ b then b else a) ag w))

/-- ADDI (R141). -/
def execAddi (ag : Agent) (w : IWord) (s : State) : Out :=
  .next (s.issue { major := 0x01, minor := 0x00, dst := .s, a := .s, imm := 0xFFFFFFFF } ag w (aluImm (fun a b => a + b) ag w))

/-- ANDI (R141). -/
def execAndi (ag : Agent) (w : IWord) (s : State) : Out :=
  .next (s.issue { major := 0x01, minor := 0x01, dst := .s, a := .s, imm := 0xFFFFFFFF } ag w (aluImm (fun a b => a &&& b) ag w))

/-- ORI (R141). -/
def execOri (ag : Agent) (w : IWord) (s : State) : Out :=
  .next (s.issue { major := 0x01, minor := 0x02, dst := .s, a := .s, imm := 0xFFFFFFFF } ag w (aluImm (fun a b => a ||| b) ag w))

/-- XORI (R141). -/
def execXori (ag : Agent) (w : IWord) (s : State) : Out :=
  .next (s.issue { major := 0x01, minor := 0x03, dst := .s, a := .s, imm := 0xFFFFFFFF } ag w (aluImm (fun a b => a ^^^ b) ag w))

/-- SHLI (R141): IMM 31:6 must be 0. -/
def execShli (ag : Agent) (w : IWord) (s : State) : Out :=
  .next (s.issue { major := 0x01, minor := 0x04, dst := .s, a := .s, imm := 0x3F } ag w (shiftImm (fun a k => a <<< k) ag w))

/-- SHRI (R141): IMM 31:6 must be 0. -/
def execShri (ag : Agent) (w : IWord) (s : State) : Out :=
  .next (s.issue { major := 0x01, minor := 0x05, dst := .s, a := .s, imm := 0x3F } ag w (shiftImm (fun a k => a >>> k) ag w))

/-- SRAI (R141): IMM 31:6 must be 0. -/
def execSrai (ag : Agent) (w : IWord) (s : State) : Out :=
  .next (s.issue { major := 0x01, minor := 0x06, dst := .s, a := .s, imm := 0x3F } ag w (shiftImm (fun a k => a.sshiftRight k) ag w))

/-- LI (R141). -/
def execLi (ag : Agent) (w : IWord) (s : State) : Out :=
  .next (s.issue { major := 0x01, minor := 0x07, dst := .s, imm := 0xFFFFFFFF } ag w (fun s => .done (s.updRegs ag (fun r => r.ws w.dst (sext w.imm)))))

/-- LIH (R141): bits 63:32 = IMM, bits 31:0 kept. -/
def execLih (ag : Agent) (w : IWord) (s : State) : Out :=
  .next (s.issue { major := 0x01, minor := 0x08, dst := .s, imm := 0xFFFFFFFF } ag w (fun s =>
    .done (s.updRegs ag (fun r => r.ws w.dst (w.imm ++ lo32 (r.rs w.dst))))))

/-- The second word of a long form (R119). -/
def word1Of (w : IWord) : W64 :=
  match w.form with
  | .short => 0
  | .long _ _ x => x
  | .reserved _ => 0

/-- LI64 (R119, R141): long form only. -/
def execLi64 (ag : Agent) (w : IWord) (s : State) : Out :=
  .next (s.issue { major := 0x01, minor := 0x09, dst := .s, long := true } ag w (fun s =>
    .done (s.updRegs ag (fun r => r.ws w.dst (word1Of w)))))

/-- LD.B (R141). -/
def execLdB (ag : Agent) (w : IWord) (m : EccHit) (s : State) : Out :=
  .next (s.issue { major := 0x02, minor := 0x00, dst := .s, a := .s, imm := 0xFFFFFFFF, accept := .core } ag w (loadAct 1 false ag w m))

/-- LD.H (R141). -/
def execLdH (ag : Agent) (w : IWord) (m : EccHit) (s : State) : Out :=
  .next (s.issue { major := 0x02, minor := 0x01, dst := .s, a := .s, imm := 0xFFFFFFFF, accept := .core } ag w (loadAct 2 false ag w m))

/-- LD.W (R141). -/
def execLdW (ag : Agent) (w : IWord) (m : EccHit) (s : State) : Out :=
  .next (s.issue { major := 0x02, minor := 0x02, dst := .s, a := .s, imm := 0xFFFFFFFF, accept := .core } ag w (loadAct 4 false ag w m))

/-- LD.D (R141). -/
def execLdD (ag : Agent) (w : IWord) (m : EccHit) (s : State) : Out :=
  .next (s.issue { major := 0x02, minor := 0x03, dst := .s, a := .s, imm := 0xFFFFFFFF, accept := .core } ag w (loadAct 8 false ag w m))

/-- LD.BS (R141). -/
def execLdBs (ag : Agent) (w : IWord) (m : EccHit) (s : State) : Out :=
  .next (s.issue { major := 0x02, minor := 0x04, dst := .s, a := .s, imm := 0xFFFFFFFF, accept := .core } ag w (loadAct 1 true ag w m))

/-- LD.HS (R141). -/
def execLdHs (ag : Agent) (w : IWord) (m : EccHit) (s : State) : Out :=
  .next (s.issue { major := 0x02, minor := 0x05, dst := .s, a := .s, imm := 0xFFFFFFFF, accept := .core } ag w (loadAct 2 true ag w m))

/-- LD.WS (R141). -/
def execLdWs (ag : Agent) (w : IWord) (m : EccHit) (s : State) : Out :=
  .next (s.issue { major := 0x02, minor := 0x06, dst := .s, a := .s, imm := 0xFFFFFFFF, accept := .core } ag w (loadAct 4 true ag w m))

/-- ST.B (R141, R423). -/
def execStB (ag : Agent) (w : IWord) (m : EccHit) (s : State) : Out :=
  .next (s.issue { major := 0x02, minor := 0x08, a := .s, b := .s, imm := 0xFFFFFFFF, accept := .core } ag w (storeAct 1 ag w m))

/-- ST.H (R141, R423). -/
def execStH (ag : Agent) (w : IWord) (m : EccHit) (s : State) : Out :=
  .next (s.issue { major := 0x02, minor := 0x09, a := .s, b := .s, imm := 0xFFFFFFFF, accept := .core } ag w (storeAct 2 ag w m))

/-- ST.W (R141, R423). -/
def execStW (ag : Agent) (w : IWord) (m : EccHit) (s : State) : Out :=
  .next (s.issue { major := 0x02, minor := 0x0A, a := .s, b := .s, imm := 0xFFFFFFFF, accept := .core } ag w (storeAct 4 ag w m))

/-- ST.D (R141, R423). -/
def execStD (ag : Agent) (w : IWord) (s : State) : Out :=
  .next (s.issue { major := 0x02, minor := 0x0B, a := .s, b := .s, imm := 0xFFFFFFFF, accept := .core } ag w (storeAct 8 ag w .clean))

/-- SRD (R107, R108, R141): a number not listed for the agent takes ILLEGAL_INSTR. -/
def opSrd : Op := { major := 0x03, minor := 0x00, dst := .s, imm := 0xFFFFFFFF }
/-- SRD (R110): a read of CREC waits for the core's queued matrix instructions, which still have to write it. -/
def execSrd (ag : Agent) (w : IWord) (s : State) : Out :=
  .next (s.issue opSrd ag w (fun s =>
    match s.readSpecial ag w.imm.toNat with
    | some v => if (w.imm.toNat = 2 ∨ w.imm.toNat = 3) ∧ s.crecPending ag then .await s [16] else .done (s.updRegs ag (fun r => r.ws w.dst v))
    | none => .trap 0 (w.word0 opSrd)))

/-- SWR (R107, R108, R142). -/
def opSwr : Op := { major := 0x03, minor := 0x01, a := .s, imm := 0xFFFFFFFF }
/-- SWR. -/
def execSwr (ag : Agent) (w : IWord) (s : State) : Out :=
  .next (s.issue opSwr ag w (fun s =>
    match s.writeSpecial ag w.imm.toNat ((s.regs ag).rs w.srcA) with
    | some s' => .done s'
    | none => .trap 0 (w.word0 opSwr)))

end Sys2Proof.Machine
end

