-- ==== Sys2Proof/Machine/Vector.lean ====
section
/-! DEFINITION. The vector group (06 R146 to R148; 04 R93). Lanes act by their predicate bits (R121); results
count into the program's counter block and never into CREC (R148). -/
namespace Sys2Proof.Machine

/-- Lane results into vd with their counts. -/
def laneAct (f : Core → Nat → W32 × Ev) (ag : Agent) (w : IWord) (s : State) : Act :=
  match ag with
  | .ctx _ _ => .hold
  | .core t c =>
    let k := s.core t.val c.val
    let rs := (activeLanes (k.r.active w)).map (fun l => (l, f k l))
    let s := s.setCore t.val c.val (k.wvs w.dst (rs.map (fun (l, x) => (l, x.1))))
    .done (s.count k.r.job (countEvs (rs.map (fun (_, x) => x.2))))

/-- vd = f va vb on FP32 lanes under FTZ. -/
def fp2 (f : Bool → W32 → W32 → W32 × Ev) (ag : Agent) (w : IWord) (s : State) : Act :=
  laneAct (fun k l => f k.ftz (k.rv w.srcA l) (k.rv w.srcB l)) ag w s
/-- vd = f va on FP32 lanes under FTZ. -/
def fp1 (f : Bool → W32 → W32 × Ev) (ag : Agent) (w : IWord) (s : State) : Act :=
  laneAct (fun k l => f k.ftz (k.rv w.srcA l)) ag w s
/-- vd = f va vb on 32-bit integer lanes; integer lanes count nothing (R148). -/
def int2 (f : W32 → W32 → W32) (ag : Agent) (w : IWord) (s : State) : Act :=
  laneAct (fun k l => (f (k.rv w.srcA l) (k.rv w.srcB l), .none)) ag w s
/-- The sign-bit operations (R146): a NaN keeps its bits and is counted NANP (R148; DEDUCED, log entry 10). -/
def signLane (f : W32 → W32) (ftz : Bool) (x : W32) : W32 × Ev :=
  if isNan x then (x, .nanp) else plainOut ftz (f x)

/-- VADD (R146). -/
def execVadd (ag : Agent) (w : IWord) (s : State) : Out :=
  .next (s.issue { major := 0x10, minor := 0x00, dst := .v, a := .v, b := .v, lanes := true, accept := .core } ag w (fp2 fAdd ag w))

/-- VSUB (R146). -/
def execVsub (ag : Agent) (w : IWord) (s : State) : Out :=
  .next (s.issue { major := 0x10, minor := 0x01, dst := .v, a := .v, b := .v, lanes := true, accept := .core } ag w (fp2 fSub ag w))

/-- VMUL (R146). -/
def execVmul (ag : Agent) (w : IWord) (s : State) : Out :=
  .next (s.issue { major := 0x10, minor := 0x02, dst := .v, a := .v, b := .v, lanes := true, accept := .core } ag w (fp2 fMul ag w))

/-- VFMA (R146): vd = va × vb + vd, one rounding. -/
def execVfma (ag : Agent) (w : IWord) (s : State) : Out :=
  .next (s.issue { major := 0x10, minor := 0x03, dst := .v, a := .v, b := .v, lanes := true, accept := .core } ag w
    (laneAct (fun k l => fFma k.ftz (k.rv w.srcA l) (k.rv w.srcB l) (k.rv w.dst l)) ag w))

/-- VMAX (R146). -/
def execVmax (ag : Agent) (w : IWord) (s : State) : Out :=
  .next (s.issue { major := 0x10, minor := 0x04, dst := .v, a := .v, b := .v, lanes := true, accept := .core } ag w (fp2 (fun z a b => plainOut z (fMax a b)) ag w))

/-- VMIN (R146). -/
def execVmin (ag : Agent) (w : IWord) (s : State) : Out :=
  .next (s.issue { major := 0x10, minor := 0x05, dst := .v, a := .v, b := .v, lanes := true, accept := .core } ag w (fp2 (fun z a b => plainOut z (fMin a b)) ag w))

/-- VABS (R146). -/
def execVabs (ag : Agent) (w : IWord) (s : State) : Out :=
  .next (s.issue { major := 0x10, minor := 0x06, dst := .v, a := .v, lanes := true, accept := .core } ag w (fp1 (signLane (fun x => x &&& 0x7FFFFFFF)) ag w))

/-- VNEG (R146). -/
def execVneg (ag : Agent) (w : IWord) (s : State) : Out :=
  .next (s.issue { major := 0x10, minor := 0x07, dst := .v, a := .v, lanes := true, accept := .core } ag w (fp1 (signLane (fun x => x ^^^ 0x80000000)) ag w))

/-- VDIV (R146, R148). -/
def execVdiv (ag : Agent) (w : IWord) (s : State) : Out :=
  .next (s.issue { major := 0x10, minor := 0x08, dst := .v, a := .v, b := .v, lanes := true, accept := .core } ag w (fp2 fDiv ag w))

/-- VSQRT (R146). -/
def execVsqrt (ag : Agent) (w : IWord) (s : State) : Out :=
  .next (s.issue { major := 0x10, minor := 0x09, dst := .v, a := .v, lanes := true, accept := .core } ag w (fp1 fSqrt ag w))

/-- VIADD (R146). -/
def execViadd (ag : Agent) (w : IWord) (s : State) : Out :=
  .next (s.issue { major := 0x10, minor := 0x10, dst := .v, a := .v, b := .v, lanes := true, accept := .core } ag w (int2 (fun a b => a + b) ag w))

/-- VISUB (R146). -/
def execVisub (ag : Agent) (w : IWord) (s : State) : Out :=
  .next (s.issue { major := 0x10, minor := 0x11, dst := .v, a := .v, b := .v, lanes := true, accept := .core } ag w (int2 (fun a b => a - b) ag w))

/-- VAND (R146). -/
def execVand (ag : Agent) (w : IWord) (s : State) : Out :=
  .next (s.issue { major := 0x10, minor := 0x12, dst := .v, a := .v, b := .v, lanes := true, accept := .core } ag w (int2 (fun a b => a &&& b) ag w))

/-- VOR (R146). -/
def execVor (ag : Agent) (w : IWord) (s : State) : Out :=
  .next (s.issue { major := 0x10, minor := 0x13, dst := .v, a := .v, b := .v, lanes := true, accept := .core } ag w (int2 (fun a b => a ||| b) ag w))

/-- VXOR (R146). -/
def execVxor (ag : Agent) (w : IWord) (s : State) : Out :=
  .next (s.issue { major := 0x10, minor := 0x14, dst := .v, a := .v, b := .v, lanes := true, accept := .core } ag w (int2 (fun a b => a ^^^ b) ag w))

/-- VSHL (R146). -/
def execVshl (ag : Agent) (w : IWord) (s : State) : Out :=
  .next (s.issue { major := 0x10, minor := 0x15, dst := .v, a := .v, b := .v, lanes := true, accept := .core } ag w (int2 (fun a b => a <<< (b.toNat % 32)) ag w))

/-- VLD (R146): 256 bytes, lane l at byte 4l; the address is 256-byte aligned. -/
def execVld (ag : Agent) (w : IWord) (m : EccHit) (s : State) : Out :=
  .next (s.issue { major := 0x11, minor := 0x00, dst := .v, a := .s, imm := 0xFFFFFFFF, lanes := true, accept := .core } ag w (fun s =>
    match ag with
    | .ctx _ _ => .hold
    | .core t c =>
      let a := (s.regs ag).rs w.srcA + sext w.imm
      readSram t c a 256 m s (fun s =>
        let k := s.core t.val c.val
        let xs := (activeLanes (k.r.active w)).map (fun l => (l, BitVec.ofNat 32 (s.sramNat t.val (a.toNat + 4 * l) 4)))
        .done (s.setCore t.val c.val (k.wvs w.dst xs)))))

/-- Writes the active lanes of vb to SRAM (R146). -/
def State.storeLanes (s : State) (t : Nat) (k : Core) (n : BitVec 5) (a : Nat) : List Nat → State
  | [] => s
  | l :: ls => (s.sramWrite t (a + 4 * l) (leBytes 4 (k.rv n l).toNat)).storeLanes t k n a ls

/-- Whether both lanes of the word of lane `l` are active. -/
def wholeWord (m : W64) (l : Nat) : Bool := m.getLsbD (l / 2 * 2) && m.getLsbD (l / 2 * 2 + 1)

/-- The words of a VST that it covers whole lose their error (R423). -/
def State.clearLanes (s : State) (unit a : Nat) (m : W64) : State :=
  (lanes64.filter (fun l => l % 2 = 0 && wholeWord m l)).foldl (fun s l => s.eccWritten 0 unit (a + 4 * l) 8) s

/-- What a VST of the active lanes `m` to 256 bytes at `a` meets (R423): an uncorrectable word that it does not cover whole, among those on record or
as reported, or a correctable error. -/
def State.vstEcc (s : State) (unit a : Nat) (m : W64) (hit : EccHit) : EccHit :=
  let part (x : Nat) : Bool := !wholeWord m ((x - a) / 4)
  match s.ecc.bad.find? (fun w => w.kind == 0 && w.unit == unit && decide (w.addr < a + 256) && decide (a < w.addr + 8) && part w.addr) with
  | some w => .uncorrectable (BitVec.ofNat 40 w.addr)
  | none => match hit with
    | .uncorrectable addr => if part addr.toNat then hit else .clean
    | _ => hit

/-- VST (R146): the active lanes of vb; inactive lanes leave their bytes. A word with an uncorrectable error
and an inactive lane inside discards the store and raises DATA_ECC (R423). -/
def execVst (ag : Agent) (w : IWord) (m : EccHit) (s : State) : Out :=
  .next (s.issue { major := 0x11, minor := 0x01, a := .s, b := .v, imm := 0xFFFFFFFF, lanes := true, accept := .core } ag w (fun s =>
    match ag with
    | .ctx _ _ => .hold
    | .core t c =>
      let a := (s.regs ag).rs w.srcA + sext w.imm
      let act := (s.regs ag).active w
      let put (s : State) : Act :=
        .done ((s.storeLanes t.val (s.core t.val c.val) w.srcB a.toNat (activeLanes act)).clearLanes (s.physOf t.val) a.toNat act)
      match accessTrap a 256 with
      | some v => .trap v a
      | none =>
        if s.streamClash t.val c.val a.toNat 256 then s.awaitStreams t c a.toNat 256
        else match s.vstEcc (s.physOf t.val) a.toNat act m with
        | .uncorrectable addr => .trapIn (s.noteUe (s.srcTile t.val) 0 (s.physOf t.val) 0 addr) 3 a
        | .correctable b addr => put (s.noteCe 0 (s.physOf t.val) 0 b addr)
        | .clean => put s))

/-- VMOV (R146): a copy; counts nothing (DEDUCED, log entry 10). -/
def execVmov (ag : Agent) (w : IWord) (s : State) : Out :=
  .next (s.issue { major := 0x11, minor := 0x02, dst := .v, a := .v, lanes := true, accept := .core } ag w (laneAct (fun k l => (k.rv w.srcA l, .none)) ag w))

/-- VBCAST (R146). -/
def execVbcast (ag : Agent) (w : IWord) (s : State) : Out :=
  .next (s.issue { major := 0x11, minor := 0x03, dst := .v, a := .s, lanes := true, accept := .core } ag w (laneAct (fun k _ => (lo32 (k.r.rs w.srcA), .none)) ag w))

/-- The element offset that IMM 1:0 names. -/
def accPart (w : IWord) : Nat := 64 * (w.imm.toNat % 4)

/-- VACC.RD (R93, R146): waits while the bank is busy; an uncorrectable error on the way raises DATA_ECC (R423). -/
def execVaccRd (ag : Agent) (w : IWord) (m : EccHit) (s : State) : Out :=
  .next (s.issue { major := 0x11, minor := 0x04, dst := .v, a := .acc, imm := 3, accept := .core } ag w (fun s =>
    match ag with
    | .ctx _ _ => .hold
    | .core t c =>
      let k := s.core t.val c.val
      let go (s : State) : Act :=
        .done (s.setCore t.val c.val (k.wvs w.dst (lanes64.map (fun l => (l, k.racc w.srcA.toNat (accPart w + l))))))
      if k.busy.contains w.srcA.toNat then .await s [16]
      else match m with
      | .uncorrectable addr => .trapIn (s.noteUe (s.srcTile t.val) 0 (s.physOf t.val) 0 addr) 3 (addr.setWidth 64)
      | .correctable b addr => go (s.noteCe 0 (s.physOf t.val) 0 b addr)
      | .clean => go s))

/-- VACC.WR (R93, R146). -/
def execVaccWr (ag : Agent) (w : IWord) (m : EccHit) (s : State) : Out :=
  .next (s.issue { major := 0x11, minor := 0x05, dst := .acc, a := .v, imm := 3, accept := .core } ag w (fun s =>
    match ag with
    | .ctx _ _ => .hold
    | .core t c =>
      let k := s.core t.val c.val
      let go (s : State) : Act :=
        .done (s.setCore t.val c.val (k.waccs w.dst.toNat (lanes64.map (fun l => (accPart w + l, k.rv w.srcA l)))))
      if k.busy.contains w.dst.toNat then .await s [16]
      else match m with
      | .uncorrectable addr => .trapIn (s.noteUe (s.srcTile t.val) 0 (s.physOf t.val) 0 addr) 3 (addr.setWidth 64)
      | .correctable b addr => go (s.noteCe 0 (s.physOf t.val) 0 b addr)
      | .clean => go s))

/-- VGET (R146). -/
def execVget (ag : Agent) (w : IWord) (s : State) : Out :=
  .next (s.issue { major := 0x11, minor := 0x06, dst := .s, a := .v, imm := 0x3F, accept := .core } ag w (fun s =>
    match ag with
    | .ctx _ _ => .hold
    | .core t c => .done (s.updRegs ag (fun r => r.ws w.dst (((s.core t.val c.val).rv w.srcA (w.imm.toNat % 64)).setWidth 64)))))

/-- VPUT (R146). -/
def execVput (ag : Agent) (w : IWord) (s : State) : Out :=
  .next (s.issue { major := 0x11, minor := 0x07, dst := .v, a := .s, imm := 0x3F, accept := .core } ag w (fun s =>
    match ag with
    | .ctx _ _ => .hold
    | .core t c =>
      let k := s.core t.val c.val
      .done (s.setCore t.val c.val (k.wv w.dst (w.imm.toNat % 64) (lo32 (k.r.rs w.srcA))))))

/-- A compare per active lane; inactive lanes keep their bits of pd (R121, R146). -/
def vcmpAct (f : W32 → W32 → Bool) (ag : Agent) (w : IWord) (s : State) : Act :=
  match ag with
  | .ctx _ _ => .hold
  | .core t c =>
    let k := s.core t.val c.val
    let act := k.r.active w
    let hits := maskOf (fun l => act.getLsbD l && f (k.rv w.srcA l) (k.rv w.srcB l))
    .done (s.updRegs ag (fun r => r.wp w.dst ((r.rp w.dst &&& ~~~ act) ||| hits)))

/-- VCMP.EQ (R146). -/
def execVcmpEq (ag : Agent) (w : IWord) (s : State) : Out :=
  .next (s.issue { major := 0x12, minor := 0x00, dst := .p, a := .v, b := .v, lanes := true, accept := .core } ag w (vcmpAct fEq ag w))

/-- VCMP.LT (R146). -/
def execVcmpLt (ag : Agent) (w : IWord) (s : State) : Out :=
  .next (s.issue { major := 0x12, minor := 0x01, dst := .p, a := .v, b := .v, lanes := true, accept := .core } ag w (vcmpAct fLt ag w))

/-- VCMP.LE (R146). -/
def execVcmpLe (ag : Agent) (w : IWord) (s : State) : Out :=
  .next (s.issue { major := 0x12, minor := 0x02, dst := .p, a := .v, b := .v, lanes := true, accept := .core } ag w (vcmpAct fLe ag w))

/-- A reduction over the active lanes in ascending index into sd bits 31:0 (R147). -/
def vredAct (f : Bool → List W32 → W32 × Ev) (ag : Agent) (w : IWord) (s : State) : Act :=
  match ag with
  | .ctx _ _ => .hold
  | .core t c =>
    let k := s.core t.val c.val
    let (x, e) := f k.ftz ((activeLanes (k.r.active w)).map (fun l => k.rv w.srcA l))
    .done ((s.updRegs ag (fun r => r.ws w.dst (x.setWidth 64))).count k.r.job (countEvs [e]))

/-- The sum of R147 with its count: an infinity from finite lanes counts OVF. -/
def redSum (ftz : Bool) (xs : List W32) : W32 × Ev :=
  let r := treeSum xs
  let (x, e) := plainOut ftz r
  (x, if nonFinite r && !isNan r && xs.all (fun x => !nonFinite x) then .ovf else e)

/-- The maximum or minimum of R147; no active lane gives the given infinity. -/
def redExt (f : W32 → W32 → W32) (none : W32) (ftz : Bool) (xs : List W32) : W32 × Ev :=
  match xs with
  | [] => (none, .none)
  | x :: xs => plainOut ftz (xs.foldl f (f x x))

/-- VRED.SUM (R147). -/
def execVredSum (ag : Agent) (w : IWord) (s : State) : Out :=
  .next (s.issue { major := 0x12, minor := 0x03, dst := .s, a := .v, lanes := true, accept := .core } ag w (vredAct redSum ag w))

/-- VRED.MAX (R147). -/
def execVredMax (ag : Agent) (w : IWord) (s : State) : Out :=
  .next (s.issue { major := 0x12, minor := 0x04, dst := .s, a := .v, lanes := true, accept := .core } ag w (vredAct (redExt fMax 0xFF800000) ag w))

/-- VRED.MIN (R147). -/
def execVredMin (ag : Agent) (w : IWord) (s : State) : Out :=
  .next (s.issue { major := 0x12, minor := 0x05, dst := .s, a := .v, lanes := true, accept := .core } ag w (vredAct (redExt fMin 0x7F800000) ag w))

end Sys2Proof.Machine
end

