-- ==== Sys2Proof/Machine/Dispatch.lean ====
section
/-! DEFINITION. The dispatch: one arm per command. -/
namespace Sys2Proof.Machine

/-- The effect of a command on everything but the queue. -/
def exec (i : Instr) (s : State) : Host.Outcome State Fault Refusal :=
  match i with
  | .add a w => Sys2Proof.Machine.execAdd a w s
  | .sub a w => Sys2Proof.Machine.execSub a w s
  | .and a w => Sys2Proof.Machine.execAnd a w s
  | .or a w => Sys2Proof.Machine.execOr a w s
  | .xor a w => Sys2Proof.Machine.execXor a w s
  | .shl a w => Sys2Proof.Machine.execShl a w s
  | .shr a w => Sys2Proof.Machine.execShr a w s
  | .sra a w => Sys2Proof.Machine.execSra a w s
  | .mul a w => Sys2Proof.Machine.execMul a w s
  | .mulhu a w => Sys2Proof.Machine.execMulhu a w s
  | .min a w => Sys2Proof.Machine.execMin a w s
  | .max a w => Sys2Proof.Machine.execMax a w s
  | .minu a w => Sys2Proof.Machine.execMinu a w s
  | .maxu a w => Sys2Proof.Machine.execMaxu a w s
  | .addi a w => Sys2Proof.Machine.execAddi a w s
  | .andi a w => Sys2Proof.Machine.execAndi a w s
  | .ori a w => Sys2Proof.Machine.execOri a w s
  | .xori a w => Sys2Proof.Machine.execXori a w s
  | .shli a w => Sys2Proof.Machine.execShli a w s
  | .shri a w => Sys2Proof.Machine.execShri a w s
  | .srai a w => Sys2Proof.Machine.execSrai a w s
  | .li a w => Sys2Proof.Machine.execLi a w s
  | .lih a w => Sys2Proof.Machine.execLih a w s
  | .li64 a w => Sys2Proof.Machine.execLi64 a w s
  | .ldB a w m => Sys2Proof.Machine.execLdB a w m s
  | .ldH a w m => Sys2Proof.Machine.execLdH a w m s
  | .ldW a w m => Sys2Proof.Machine.execLdW a w m s
  | .ldD a w m => Sys2Proof.Machine.execLdD a w m s
  | .ldBs a w m => Sys2Proof.Machine.execLdBs a w m s
  | .ldHs a w m => Sys2Proof.Machine.execLdHs a w m s
  | .ldWs a w m => Sys2Proof.Machine.execLdWs a w m s
  | .stB a w m => Sys2Proof.Machine.execStB a w m s
  | .stH a w m => Sys2Proof.Machine.execStH a w m s
  | .stW a w m => Sys2Proof.Machine.execStW a w m s
  | .stD a w => Sys2Proof.Machine.execStD a w s
  | .srd a w => Sys2Proof.Machine.execSrd a w s
  | .swr a w => Sys2Proof.Machine.execSwr a w s
  | .nop a w => Sys2Proof.Machine.execNop a w s
  | .j a w => Sys2Proof.Machine.execJ a w s
  | .jr a w => Sys2Proof.Machine.execJr a w s
  | .jal a w => Sys2Proof.Machine.execJal a w s
  | .endProg a w => Sys2Proof.Machine.execEndProg a w s
  | .fset a w => Sys2Proof.Machine.execFset a w s
  | .fclr a w => Sys2Proof.Machine.execFclr a w s
  | .fwait a w => Sys2Proof.Machine.execFwait a w s
  | .fwaitc a w => Sys2Proof.Machine.execFwaitc a w s
  | .bar a w => Sys2Proof.Machine.execBar a w s
  | .brk a w => Sys2Proof.Machine.execBrk a w s
  | .trap a w => Sys2Proof.Machine.execTrap a w s
  | .tret a w => Sys2Proof.Machine.execTret a w s
  | .cmpEq a w => Sys2Proof.Machine.execCmpEq a w s
  | .cmpNe a w => Sys2Proof.Machine.execCmpNe a w s
  | .cmpLt a w => Sys2Proof.Machine.execCmpLt a w s
  | .cmpLtu a w => Sys2Proof.Machine.execCmpLtu a w s
  | .cmpLe a w => Sys2Proof.Machine.execCmpLe a w s
  | .cmpLeu a w => Sys2Proof.Machine.execCmpLeu a w s
  | .pand a w => Sys2Proof.Machine.execPand a w s
  | .por a w => Sys2Proof.Machine.execPor a w s
  | .pxor a w => Sys2Proof.Machine.execPxor a w s
  | .pandn a w => Sys2Proof.Machine.execPandn a w s
  | .pnot a w => Sys2Proof.Machine.execPnot a w s
  | .pmov a w => Sys2Proof.Machine.execPmov a w s
  | .prd a w => Sys2Proof.Machine.execPrd a w s
  | .pcnt a w => Sys2Proof.Machine.execPcnt a w s
  | .pfirst a w => Sys2Proof.Machine.execPfirst a w s
  | .vadd a w => Sys2Proof.Machine.execVadd a w s
  | .vsub a w => Sys2Proof.Machine.execVsub a w s
  | .vmul a w => Sys2Proof.Machine.execVmul a w s
  | .vfma a w => Sys2Proof.Machine.execVfma a w s
  | .vmax a w => Sys2Proof.Machine.execVmax a w s
  | .vmin a w => Sys2Proof.Machine.execVmin a w s
  | .vabs a w => Sys2Proof.Machine.execVabs a w s
  | .vneg a w => Sys2Proof.Machine.execVneg a w s
  | .vdiv a w => Sys2Proof.Machine.execVdiv a w s
  | .vsqrt a w => Sys2Proof.Machine.execVsqrt a w s
  | .viadd a w => Sys2Proof.Machine.execViadd a w s
  | .visub a w => Sys2Proof.Machine.execVisub a w s
  | .vand a w => Sys2Proof.Machine.execVand a w s
  | .vor a w => Sys2Proof.Machine.execVor a w s
  | .vxor a w => Sys2Proof.Machine.execVxor a w s
  | .vshl a w => Sys2Proof.Machine.execVshl a w s
  | .vld a w m => Sys2Proof.Machine.execVld a w m s
  | .vst a w m => Sys2Proof.Machine.execVst a w m s
  | .vmov a w => Sys2Proof.Machine.execVmov a w s
  | .vbcast a w => Sys2Proof.Machine.execVbcast a w s
  | .vaccRd a w m => Sys2Proof.Machine.execVaccRd a w m s
  | .vaccWr a w m => Sys2Proof.Machine.execVaccWr a w m s
  | .vget a w => Sys2Proof.Machine.execVget a w s
  | .vput a w => Sys2Proof.Machine.execVput a w s
  | .vcmpEq a w => Sys2Proof.Machine.execVcmpEq a w s
  | .vcmpLt a w => Sys2Proof.Machine.execVcmpLt a w s
  | .vcmpLe a w => Sys2Proof.Machine.execVcmpLe a w s
  | .vredSum a w => Sys2Proof.Machine.execVredSum a w s
  | .vredMax a w => Sys2Proof.Machine.execVredMax a w s
  | .vredMin a w => Sys2Proof.Machine.execVredMin a w s
  | .cvtF32Bf16 a w => Sys2Proof.Machine.execCvtF32Bf16 a w s
  | .cvtF32F16 a w => Sys2Proof.Machine.execCvtF32F16 a w s
  | .cvtF32E5m2 a w => Sys2Proof.Machine.execCvtF32E5m2 a w s
  | .cvtF32Q8a a w => Sys2Proof.Machine.execCvtF32Q8a a w s
  | .cvtF32Q4a a w => Sys2Proof.Machine.execCvtF32Q4a a w s
  | .cvtF32Q2a a w => Sys2Proof.Machine.execCvtF32Q2a a w s
  | .cvtF32Tern a w => Sys2Proof.Machine.execCvtF32Tern a w s
  | .cvtF32L4 a w => Sys2Proof.Machine.execCvtF32L4 a w s
  | .cvtF32Mxfp4 a w => Sys2Proof.Machine.execCvtF32Mxfp4 a w s
  | .cvtBf16F32 a w => Sys2Proof.Machine.execCvtBf16F32 a w s
  | .cvtF16F32 a w => Sys2Proof.Machine.execCvtF16F32 a w s
  | .cvtE5m2F32 a w => Sys2Proof.Machine.execCvtE5m2F32 a w s
  | .cvtQ8aF32 a w => Sys2Proof.Machine.execCvtQ8aF32 a w s
  | .cvtQ4aF32 a w => Sys2Proof.Machine.execCvtQ4aF32 a w s
  | .cvtQ2aF32 a w => Sys2Proof.Machine.execCvtQ2aF32 a w s
  | .cvtTernF32 a w => Sys2Proof.Machine.execCvtTernF32 a w s
  | .cvtL4F32 a w => Sys2Proof.Machine.execCvtL4F32 a w s
  | .cvtMxfp4F32 a w => Sys2Proof.Machine.execCvtMxfp4F32 a w s
  | .mmaQ4a a w => Sys2Proof.Machine.execMmaQ4a a w s
  | .mmaQ2a a w => Sys2Proof.Machine.execMmaQ2a a w s
  | .mmaTern a w => Sys2Proof.Machine.execMmaTern a w s
  | .mmaMxfp4 a w => Sys2Proof.Machine.execMmaMxfp4 a w s
  | .mmaSpur a w => Sys2Proof.Machine.execMmaSpur a w s
  | .arrayInstructionStart tile m => Sys2Proof.Machine.execArrayInstructionStart tile m s
  | .matrixOutputWritten tile => Sys2Proof.Machine.execMatrixOutputWritten tile s
  | .strmGo a w => Sys2Proof.Machine.execStrmGo a w s
  | .strmWait a w => Sys2Proof.Machine.execStrmWait a w s
  | .dscWr a w => Sys2Proof.Machine.execDscWr a w s
  | .dscRd a w => Sys2Proof.Machine.execDscRd a w s
  | .dscClr a w => Sys2Proof.Machine.execDscClr a w s
  | .streamTransferComplete tile core dsc media => Sys2Proof.Machine.execStreamTransferComplete tile core dsc media s
  | .objInfo a w => Sys2Proof.Machine.execObjInfo a w s
  | .objNew a w => Sys2Proof.Machine.execObjNew a w s
  | .objDrop a w => Sys2Proof.Machine.execObjDrop a w s
  | .objPin a w => Sys2Proof.Machine.execObjPin a w s
  | .objUnpin a w => Sys2Proof.Machine.execObjUnpin a w s
  | .objSeal a w => Sys2Proof.Machine.execObjSeal a w s
  | .objStage a w => Sys2Proof.Machine.execObjStage a w s
  | .recordInstructionComplete tile core n answered => Sys2Proof.Machine.execRecordInstructionComplete tile core n answered s
  | .fread a w => Sys2Proof.Machine.execFread a w s
  | .fprog a w => Sys2Proof.Machine.execFprog a w s
  | .ferase a w => Sys2Proof.Machine.execFerase a w s
  | .fsync a w => Sys2Proof.Machine.execFsync a w s
  | .fstat a w => Sys2Proof.Machine.execFstat a w s
  | .mediaCheck ext block => Sys2Proof.Machine.execMediaCheck ext block s
  | .trvLaunch a w => Sys2Proof.Machine.execTrvLaunch a w s
  | .trvNode a w m => Sys2Proof.Machine.execTrvNode a w m s
  | .trvDrd a w => Sys2Proof.Machine.execTrvDrd a w s
  | .trvScore a w => Sys2Proof.Machine.execTrvScore a w s
  | .trvVisit a w => Sys2Proof.Machine.execTrvVisit a w s
  | .trvTomb a w => Sys2Proof.Machine.execTrvTomb a w s
  | .trvPush a w => Sys2Proof.Machine.execTrvPush a w s
  | .trvPop a w => Sys2Proof.Machine.execTrvPop a w s
  | .trvBound a w => Sys2Proof.Machine.execTrvBound a w s
  | .trvEmit a w => Sys2Proof.Machine.execTrvEmit a w s
  | .contextDataArrived cluster ctx good => Sys2Proof.Machine.execContextDataArrived cluster ctx good s
  | .forwardArrival src dst job => Sys2Proof.Machine.execForwardArrival src dst job s
  | .grpNew a w => Sys2Proof.Machine.execGrpNew a w s
  | .grpFree a w => Sys2Proof.Machine.execGrpFree a w s
  | .grpInfo a w => Sys2Proof.Machine.execGrpInfo a w s
  | .gtopk a w => Sys2Proof.Machine.execGtopk a w s
  | .gsum a w => Sys2Proof.Machine.execGsum a w s
  | .gbcast a w => Sys2Proof.Machine.execGbcast a w s
  | .gbar a w => Sys2Proof.Machine.execGbar a w s
  | .timeRd a w => Sys2Proof.Machine.execTimeRd a w s
  | .timeCairn a w => Sys2Proof.Machine.execTimeCairn a w s
  | .stepEnd a w => Sys2Proof.Machine.execStepEnd a w s
  | .stepInfo a w => Sys2Proof.Machine.execStepInfo a w s
  | .stageWr a w => Sys2Proof.Machine.execStageWr a w s
  | .stageRd a w => Sys2Proof.Machine.execStageRd a w s
  | .asyncRefusedTrap a => Sys2Proof.Machine.execAsyncRefusedTrap a s
  | .doorbell ctrl offset value => Sys2Proof.Machine.execDoorbell ctrl offset value s
  | .search c => Sys2Proof.Machine.execSearch c s
  | .filter c => Sys2Proof.Machine.execFilter c s
  | .embed c => Sys2Proof.Machine.execEmbed c s
  | .readAnswer c => Sys2Proof.Machine.execReadAnswer c s
  | .run c => Sys2Proof.Machine.execRun c s
  | .queryEmbedded job tile vec => Sys2Proof.Machine.execQueryEmbedded job tile vec s
  | .tablesReady job tile => Sys2Proof.Machine.execTablesReady job tile s
  | .walkDone job => Sys2Proof.Machine.execWalkDone job s
  | .moraineDone job tile => Sys2Proof.Machine.execMoraineDone job tile s
  | .mergeDone job tile => Sys2Proof.Machine.execMergeDone job tile s
  | .rerankDone job tile => Sys2Proof.Machine.execRerankDone job tile s
  | .prefillLoaded job => Sys2Proof.Machine.execPrefillLoaded job s
  | .readDone job tile spans => Sys2Proof.Machine.execReadDone job tile spans s
  | .scanDone job unread => Sys2Proof.Machine.execScanDone job unread s
  | .embedDone job vecs bodies => Sys2Proof.Machine.execEmbedDone job vecs bodies s
  | .resultWritten job => Sys2Proof.Machine.execResultWritten job s
  | .completionPosted job => Sys2Proof.Machine.execCompletionPosted job s
  | .chainMemberAnswer job member agrees entries => Sys2Proof.Machine.execChainMemberAnswer job member agrees entries s
  | .chainMemberTimeout job => Sys2Proof.Machine.execChainMemberTimeout job s
  | .abortQuery c => Sys2Proof.Machine.execAbortQuery c s
  | .nvmeAbort c => Sys2Proof.Machine.execNvmeAbort c s
  | .tagExpiry ctrl sqid cid => Sys2Proof.Machine.execTagExpiry ctrl sqid cid s
  | .stageSettings c => Sys2Proof.Machine.execStageSettings c s
  | .stageSettingsRead c => Sys2Proof.Machine.execStageSettingsRead c s
  | .queueResume c => Sys2Proof.Machine.execQueueResume c s
  | .ledgerExport c => Sys2Proof.Machine.execLedgerExport c s
  | .ledgerImport c => Sys2Proof.Machine.execLedgerImport c s
  | .objectSeal c => Sys2Proof.Machine.execObjectSeal c s
  | .pinS c => Sys2Proof.Machine.execPinS c s
  | .pinD c => Sys2Proof.Machine.execPinD c s
  | .unpinS c => Sys2Proof.Machine.execUnpinS c s
  | .unpinD c => Sys2Proof.Machine.execUnpinD c s
  | .map c => Sys2Proof.Machine.execMap c s
  | .unmap c => Sys2Proof.Machine.execUnmap c s
  | .objectDrop c => Sys2Proof.Machine.execObjectDrop c s
  | .objectInfo c => Sys2Proof.Machine.execObjectInfo c s
  | .extentAllocate c => Sys2Proof.Machine.execExtentAllocate c s
  | .extentFree c => Sys2Proof.Machine.execExtentFree c s
  | .attest c => Sys2Proof.Machine.execAttest c s
  | .attestCertificate c => Sys2Proof.Machine.execAttestCertificate c s
  | .form c => Sys2Proof.Machine.execForm c s
  | .leave c => Sys2Proof.Machine.execLeave c s
  | .dissolve c => Sys2Proof.Machine.execDissolve c s
  | .firmware c answers => Sys2Proof.Machine.execFirmware c answers s
  | .status c => Sys2Proof.Machine.execStatus c s
  | .probeReturn ring => Sys2Proof.Machine.execProbeReturn ring s
  | .joinOffer => Sys2Proof.Machine.execJoinOffer s
  | .masterChange present masterTime => Sys2Proof.Machine.execMasterChange present masterTime s
  | .read c => Sys2Proof.Machine.execRead c s
  | .write c => Sys2Proof.Machine.execWrite c s
  | .flush c => Sys2Proof.Machine.execFlush c s
  | .verify c => Sys2Proof.Machine.execVerify c s
  | .writeZeroes c => Sys2Proof.Machine.execWriteZeroes c s
  | .datasetManagement c => Sys2Proof.Machine.execDatasetManagement c s
  | .loadProgram c => Sys2Proof.Machine.execLoadProgram c s
  | .programActivationManagement c => Sys2Proof.Machine.execProgramActivationManagement c s
  | .executeProgram c => Sys2Proof.Machine.execExecuteProgram c s
  | .memoryRead c => Sys2Proof.Machine.execMemoryRead c s
  | .memoryWrite c => Sys2Proof.Machine.execMemoryWrite c s
  | .createIoSubmissionQueue c => Sys2Proof.Machine.execCreateIoSubmissionQueue c s
  | .createIoCompletionQueue c => Sys2Proof.Machine.execCreateIoCompletionQueue c s
  | .deleteIoSubmissionQueue c => Sys2Proof.Machine.execDeleteIoSubmissionQueue c s
  | .queueClient c => Sys2Proof.Machine.execQueueClient c s
  | .powerManagement c => Sys2Proof.Machine.execPowerManagement c s
  | .timestamp c => Sys2Proof.Machine.execTimestamp c s
  | .namespaceManagement c => Sys2Proof.Machine.execNamespaceManagement c s
  | .formatNvm c => Sys2Proof.Machine.execFormatNvm c s
  | .sanitizeCryptoErase c => Sys2Proof.Machine.execSanitizeCryptoErase c s
  | .firmwareImageDownload c => Sys2Proof.Machine.execFirmwareImageDownload c s
  | .firmwareCommit c man => Sys2Proof.Machine.execFirmwareCommit c man s
  | .getLogPage c => Sys2Proof.Machine.execGetLogPage c s
  | .virtualizationManagement c => Sys2Proof.Machine.execVirtualizationManagement c s
  | .deviceSelfTest c => Sys2Proof.Machine.execDeviceSelfTest c s
  | .shutdownNotification ctrl => Sys2Proof.Machine.execShutdownNotification ctrl s
  | .controllerDisable ctrl => Sys2Proof.Machine.execControllerDisable ctrl s
  | .controllerEnable ctrl => Sys2Proof.Machine.execControllerEnable ctrl s
  | .saddle dur => Sys2Proof.Machine.execSaddle dur s
  | .stepOverrun => Sys2Proof.Machine.execStepOverrun s
  | .saddleFlitSend => Sys2Proof.Machine.execSaddleFlitSend s
  | .saddleFlitArrival step changes => Sys2Proof.Machine.execSaddleFlitArrival step changes s
  | .chainLeft => Sys2Proof.Machine.execChainLeft s
  | .timeSync drift => Sys2Proof.Machine.execTimeSync drift s
  | .epochMinute => Sys2Proof.Machine.execEpochMinute s
  | .epochSave => Sys2Proof.Machine.execEpochSave s
  | .colTransfer src dst payload => Sys2Proof.Machine.execColTransfer src dst payload s
  | .dieReadArrival die r => Sys2Proof.Machine.execDieReadArrival die r s
  | .dieSuspend die => Sys2Proof.Machine.execDieSuspend die s
  | .dieResume die => Sys2Proof.Machine.execDieResume die s
  | .dieReadDone die out => Sys2Proof.Machine.execDieReadDone die out s
  | .dieProgramDone die pass => Sys2Proof.Machine.execDieProgramDone die pass s
  | .dieEraseDone die pass => Sys2Proof.Machine.execDieEraseDone die pass s
  | .objResealed h => Sys2Proof.Machine.execObjResealed h s
  | .dieFailed die => Sys2Proof.Machine.execDieFailed die s
  | .qlcWordLineProgram ext block line => Sys2Proof.Machine.execQlcWordLineProgram ext block line s
  | .bufferProgram slots die pos fails => Sys2Proof.Machine.execBufferProgram slots die pos fails s
  | .subUnitMerge slot readable => Sys2Proof.Machine.execSubUnitMerge slot readable s
  | .garbageCollection die pos toDie toPos bad programFails eraseFails => Sys2Proof.Machine.execGarbageCollection die pos toDie toPos bad programFails eraseFails s
  | .patrol die pos depth => Sys2Proof.Machine.execPatrol die pos depth s
  | .windowMove programFails => Sys2Proof.Machine.execWindowMove programFails s
  | .moraineSegment index => Sys2Proof.Machine.execMoraineSegment index s
  | .blockMove h units => Sys2Proof.Machine.execBlockMove h units s
  | .pinnedReload h tierS => Sys2Proof.Machine.execPinnedReload h tierS s
  | .dmaChannelRestart stack ch persists => Sys2Proof.Machine.execDmaChannelRestart stack ch persists s
  | .tileSramReload tile persists => Sys2Proof.Machine.execTileSramReload tile persists s
  | .eccCe kind => Sys2Proof.Machine.execEccCe kind s
  | .mapEntryRebuilt => Sys2Proof.Machine.execMapEntryRebuilt s
  | .scrubLine kind m => Sys2Proof.Machine.execScrubLine kind m s
  | .tileFailure tile answers => Sys2Proof.Machine.execTileFailure tile answers s
  | .watchdogExpiry core => Sys2Proof.Machine.execWatchdogExpiry core s
  | .controlCoreException core => Sys2Proof.Machine.execControlCoreException core s
  | .laneFailure port lane => Sys2Proof.Machine.execLaneFailure port lane s
  | .portRetrain port => Sys2Proof.Machine.execPortRetrain port s
  | .meshLinkFailure link => Sys2Proof.Machine.execMeshLinkFailure link s
  | .ringWrap port => Sys2Proof.Machine.execRingWrap port s
  | .flitForward port dest payload => Sys2Proof.Machine.execFlitForward port dest payload s
  | .coldPowerOn pins => Sys2Proof.Machine.execColdPowerOn pins s
  | .aux12vPresent => Sys2Proof.Machine.execAux12vPresent s
  | .firmwareCheck found => Sys2Proof.Machine.execFirmwareCheck found s
  | .controlCoreStart started => Sys2Proof.Machine.execControlCoreStart started s
  | .parallelTraining t => Sys2Proof.Machine.execParallelTraining t s
  | .tileSelfTest failed => Sys2Proof.Machine.execTileSelfTest failed s
  | .firmwareBroadcast b => Sys2Proof.Machine.execFirmwareBroadcast b s
  | .mapRebuilt r => Sys2Proof.Machine.execMapRebuilt r s
  | .chainFormation f => Sys2Proof.Machine.execChainFormation f s
  | .ready => Sys2Proof.Machine.execReady s
  | .powerLoss => Sys2Proof.Machine.execPowerLoss s
  | .perst testN => Sys2Proof.Machine.execPerst testN s
  | .hotReset => Sys2Proof.Machine.execHotReset s
  | .nvmSubsystemReset => Sys2Proof.Machine.execNvmSubsystemReset s
  | .pfFlr => Sys2Proof.Machine.execPfFlr s
  | .vfFlr vf => Sys2Proof.Machine.execVfFlr vf s
  | .grprst value => Sys2Proof.Machine.execGrprst value s
  | .enter => Sys2Proof.Machine.execEnter s
  | .commitRecoveryImage path man => Sys2Proof.Machine.execCommitRecoveryImage path man s
  | .recoveryReset path => Sys2Proof.Machine.execRecoveryReset path s
  | .rcvdata path offset value => Sys2Proof.Machine.execRcvdata path offset value s
  | .imglenWrite path value => Sys2Proof.Machine.execImglenWrite path value s
  | .cldataRead high => Sys2Proof.Machine.execCldataRead high s
  | .chclr value => Sys2Proof.Machine.execChclr value s
  | .eccclr value => Sys2Proof.Machine.execEccclr value s
  | .stepctlWrite value lo hi => Sys2Proof.Machine.execStepctlWrite value lo hi s
  | .registerWrite offset value => Sys2Proof.Machine.execRegisterWrite offset value s
  | .registerRead offset => Sys2Proof.Machine.execRegisterRead offset s
  | .miRegisterWrite offset value => Sys2Proof.Machine.execMiRegisterWrite offset value s
  | .managementReset => Sys2Proof.Machine.execManagementReset s
  | .basicManagementCommand => Sys2Proof.Machine.execBasicManagementCommand s
  | .debugUnlock slot valid => Sys2Proof.Machine.execDebugUnlock slot valid s
  | .pwrbrkN asserted => Sys2Proof.Machine.execPwrbrkN asserted s
  | .powerMeasurement milliwatts => Sys2Proof.Machine.execPowerMeasurement milliwatts s
  | .sensorRead r => Sys2Proof.Machine.execSensorRead r s
  | .thermal => Sys2Proof.Machine.execThermal s
  | .thermalShutdown => Sys2Proof.Machine.execThermalShutdown s
  | .holdup microfarads => Sys2Proof.Machine.execHoldup microfarads s
  | .powerStateEntry => Sys2Proof.Machine.execPowerStateEntry s
  | .autonomousPowerStateTransition ps => Sys2Proof.Machine.execAutonomousPowerStateTransition ps s
  | .powerStateExit => Sys2Proof.Machine.execPowerStateExit s
  | .d3hot fn => Sys2Proof.Machine.execD3hot fn s
  | .fanOut q => Sys2Proof.Machine.execFanOut q s
  | .commitFlit => Sys2Proof.Machine.execCommitFlit s
  | .probeFlitTimeout => Sys2Proof.Machine.execProbeFlitTimeout s
  | .forwardedChange member change => Sys2Proof.Machine.execForwardedChange member change s
  | .offerReceived port chainId pos digest => Sys2Proof.Machine.execOfferReceived port chainId pos digest s
  | .nack member reset tiles => Sys2Proof.Machine.execNack member reset tiles s
  | .pcieTrainingDone rate lanes => Sys2Proof.Machine.execPcieTrainingDone rate lanes s
  | .lostLinkTrains port => Sys2Proof.Machine.execLostLinkTrains port s
  | .selfTestOperationEnd ctrl => Sys2Proof.Machine.execSelfTestOperationEnd ctrl s
  | .returnToD0 fn => Sys2Proof.Machine.execReturnToD0 fn s

end Sys2Proof.Machine
end

