-- ==== Sys2Proof/Machine/Abasel.lean ====
section
/-! DEFINITION. The Abasel instruction set as words (05 R118 to R120; the opcode tables of 06): how each instruction is
encoded, and the decoder of a program's words. -/
namespace Sys2Proof.Machine

/-- How each Abasel instruction is encoded and issued, with its agent and its word; none for the other commands. -/
def opOf : Instr → Option (Agent × IWord × Op)
  | .add a w => some (a, w, { major := 0x00, minor := 0x00, dst := .s, a := .s, b := .s })
  | .sub a w => some (a, w, { major := 0x00, minor := 0x01, dst := .s, a := .s, b := .s })
  | .and a w => some (a, w, { major := 0x00, minor := 0x02, dst := .s, a := .s, b := .s })
  | .or a w => some (a, w, { major := 0x00, minor := 0x03, dst := .s, a := .s, b := .s })
  | .xor a w => some (a, w, { major := 0x00, minor := 0x04, dst := .s, a := .s, b := .s })
  | .shl a w => some (a, w, { major := 0x00, minor := 0x05, dst := .s, a := .s, b := .s })
  | .shr a w => some (a, w, { major := 0x00, minor := 0x06, dst := .s, a := .s, b := .s })
  | .sra a w => some (a, w, { major := 0x00, minor := 0x07, dst := .s, a := .s, b := .s })
  | .mul a w => some (a, w, { major := 0x00, minor := 0x08, dst := .s, a := .s, b := .s })
  | .mulhu a w => some (a, w, { major := 0x00, minor := 0x09, dst := .s, a := .s, b := .s })
  | .min a w => some (a, w, { major := 0x00, minor := 0x0A, dst := .s, a := .s, b := .s })
  | .max a w => some (a, w, { major := 0x00, minor := 0x0B, dst := .s, a := .s, b := .s })
  | .minu a w => some (a, w, { major := 0x00, minor := 0x0C, dst := .s, a := .s, b := .s })
  | .maxu a w => some (a, w, { major := 0x00, minor := 0x0D, dst := .s, a := .s, b := .s })
  | .addi a w => some (a, w, { major := 0x01, minor := 0x00, dst := .s, a := .s, imm := 0xFFFFFFFF })
  | .andi a w => some (a, w, { major := 0x01, minor := 0x01, dst := .s, a := .s, imm := 0xFFFFFFFF })
  | .ori a w => some (a, w, { major := 0x01, minor := 0x02, dst := .s, a := .s, imm := 0xFFFFFFFF })
  | .xori a w => some (a, w, { major := 0x01, minor := 0x03, dst := .s, a := .s, imm := 0xFFFFFFFF })
  | .shli a w => some (a, w, { major := 0x01, minor := 0x04, dst := .s, a := .s, imm := 0x3F })
  | .shri a w => some (a, w, { major := 0x01, minor := 0x05, dst := .s, a := .s, imm := 0x3F })
  | .srai a w => some (a, w, { major := 0x01, minor := 0x06, dst := .s, a := .s, imm := 0x3F })
  | .li a w => some (a, w, { major := 0x01, minor := 0x07, dst := .s, imm := 0xFFFFFFFF })
  | .lih a w => some (a, w, { major := 0x01, minor := 0x08, dst := .s, imm := 0xFFFFFFFF })
  | .li64 a w => some (a, w, { major := 0x01, minor := 0x09, dst := .s, long := true })
  | .ldB a w _ => some (a, w, { major := 0x02, minor := 0x00, dst := .s, a := .s, imm := 0xFFFFFFFF, accept := .core })
  | .ldH a w _ => some (a, w, { major := 0x02, minor := 0x01, dst := .s, a := .s, imm := 0xFFFFFFFF, accept := .core })
  | .ldW a w _ => some (a, w, { major := 0x02, minor := 0x02, dst := .s, a := .s, imm := 0xFFFFFFFF, accept := .core })
  | .ldD a w _ => some (a, w, { major := 0x02, minor := 0x03, dst := .s, a := .s, imm := 0xFFFFFFFF, accept := .core })
  | .ldBs a w _ => some (a, w, { major := 0x02, minor := 0x04, dst := .s, a := .s, imm := 0xFFFFFFFF, accept := .core })
  | .ldHs a w _ => some (a, w, { major := 0x02, minor := 0x05, dst := .s, a := .s, imm := 0xFFFFFFFF, accept := .core })
  | .ldWs a w _ => some (a, w, { major := 0x02, minor := 0x06, dst := .s, a := .s, imm := 0xFFFFFFFF, accept := .core })
  | .stB a w _ => some (a, w, { major := 0x02, minor := 0x08, a := .s, b := .s, imm := 0xFFFFFFFF, accept := .core })
  | .stH a w _ => some (a, w, { major := 0x02, minor := 0x09, a := .s, b := .s, imm := 0xFFFFFFFF, accept := .core })
  | .stW a w _ => some (a, w, { major := 0x02, minor := 0x0A, a := .s, b := .s, imm := 0xFFFFFFFF, accept := .core })
  | .stD a w => some (a, w, { major := 0x02, minor := 0x0B, a := .s, b := .s, imm := 0xFFFFFFFF, accept := .core })
  | .srd a w => some (a, w, opSrd)
  | .swr a w => some (a, w, opSwr)
  | .nop a w => some (a, w, { major := 0x08, minor := 0x00, bare := true })
  | .j a w => some (a, w, { major := 0x08, minor := 0x01, imm := 0xFFFFFFFF })
  | .jr a w => some (a, w, { major := 0x08, minor := 0x02, a := .s })
  | .jal a w => some (a, w, { major := 0x08, minor := 0x03, dst := .s, imm := 0xFFFFFFFF })
  | .endProg a w => some (a, w, { major := 0x08, minor := 0x04 })
  | .fset a w => some (a, w, { major := 0x09, minor := 0x00, imm := 0xF, accept := .core })
  | .fclr a w => some (a, w, { major := 0x09, minor := 0x01, imm := 0xF, accept := .core })
  | .fwait a w => some (a, w, { major := 0x09, minor := 0x02, imm := 0xF, accept := .core })
  | .fwaitc a w => some (a, w, { major := 0x09, minor := 0x03, imm := 0xF, accept := .core })
  | .bar a w => some (a, w, { major := 0x09, minor := 0x04, imm := 0xF, refusable := true, accept := .core })
  | .brk a w => some (a, w, { major := 0x09, minor := 0x05, imm := 0xFFFFFFFF })
  | .trap a w => some (a, w, { major := 0x09, minor := 0x06, imm := 0xFFFFFFFF })
  | .tret a w => some (a, w, opTret)
  | .cmpEq a w => some (a, w, { major := 0x0C, minor := 0x00, dst := .p, a := .s, b := .s })
  | .cmpNe a w => some (a, w, { major := 0x0C, minor := 0x01, dst := .p, a := .s, b := .s })
  | .cmpLt a w => some (a, w, { major := 0x0C, minor := 0x02, dst := .p, a := .s, b := .s })
  | .cmpLtu a w => some (a, w, { major := 0x0C, minor := 0x03, dst := .p, a := .s, b := .s })
  | .cmpLe a w => some (a, w, { major := 0x0C, minor := 0x04, dst := .p, a := .s, b := .s })
  | .cmpLeu a w => some (a, w, { major := 0x0C, minor := 0x05, dst := .p, a := .s, b := .s })
  | .pand a w => some (a, w, { major := 0x0C, minor := 0x08, dst := .p, a := .p, b := .p })
  | .por a w => some (a, w, { major := 0x0C, minor := 0x09, dst := .p, a := .p, b := .p })
  | .pxor a w => some (a, w, { major := 0x0C, minor := 0x0A, dst := .p, a := .p, b := .p })
  | .pandn a w => some (a, w, { major := 0x0C, minor := 0x0B, dst := .p, a := .p, b := .p })
  | .pnot a w => some (a, w, { major := 0x0C, minor := 0x0C, dst := .p, a := .p })
  | .pmov a w => some (a, w, { major := 0x0C, minor := 0x0D, dst := .p, a := .s })
  | .prd a w => some (a, w, { major := 0x0C, minor := 0x0E, dst := .s, a := .p })
  | .pcnt a w => some (a, w, { major := 0x0C, minor := 0x0F, dst := .s, a := .p })
  | .pfirst a w => some (a, w, { major := 0x0C, minor := 0x10, dst := .s, a := .p })
  | .vadd a w => some (a, w, { major := 0x10, minor := 0x00, dst := .v, a := .v, b := .v, lanes := true, accept := .core })
  | .vsub a w => some (a, w, { major := 0x10, minor := 0x01, dst := .v, a := .v, b := .v, lanes := true, accept := .core })
  | .vmul a w => some (a, w, { major := 0x10, minor := 0x02, dst := .v, a := .v, b := .v, lanes := true, accept := .core })
  | .vfma a w => some (a, w, { major := 0x10, minor := 0x03, dst := .v, a := .v, b := .v, lanes := true, accept := .core })
  | .vmax a w => some (a, w, { major := 0x10, minor := 0x04, dst := .v, a := .v, b := .v, lanes := true, accept := .core })
  | .vmin a w => some (a, w, { major := 0x10, minor := 0x05, dst := .v, a := .v, b := .v, lanes := true, accept := .core })
  | .vabs a w => some (a, w, { major := 0x10, minor := 0x06, dst := .v, a := .v, lanes := true, accept := .core })
  | .vneg a w => some (a, w, { major := 0x10, minor := 0x07, dst := .v, a := .v, lanes := true, accept := .core })
  | .vdiv a w => some (a, w, { major := 0x10, minor := 0x08, dst := .v, a := .v, b := .v, lanes := true, accept := .core })
  | .vsqrt a w => some (a, w, { major := 0x10, minor := 0x09, dst := .v, a := .v, lanes := true, accept := .core })
  | .viadd a w => some (a, w, { major := 0x10, minor := 0x10, dst := .v, a := .v, b := .v, lanes := true, accept := .core })
  | .visub a w => some (a, w, { major := 0x10, minor := 0x11, dst := .v, a := .v, b := .v, lanes := true, accept := .core })
  | .vand a w => some (a, w, { major := 0x10, minor := 0x12, dst := .v, a := .v, b := .v, lanes := true, accept := .core })
  | .vor a w => some (a, w, { major := 0x10, minor := 0x13, dst := .v, a := .v, b := .v, lanes := true, accept := .core })
  | .vxor a w => some (a, w, { major := 0x10, minor := 0x14, dst := .v, a := .v, b := .v, lanes := true, accept := .core })
  | .vshl a w => some (a, w, { major := 0x10, minor := 0x15, dst := .v, a := .v, b := .v, lanes := true, accept := .core })
  | .vld a w _ => some (a, w, { major := 0x11, minor := 0x00, dst := .v, a := .s, imm := 0xFFFFFFFF, lanes := true, accept := .core })
  | .vst a w _ => some (a, w, { major := 0x11, minor := 0x01, a := .s, b := .v, imm := 0xFFFFFFFF, lanes := true, accept := .core })
  | .vmov a w => some (a, w, { major := 0x11, minor := 0x02, dst := .v, a := .v, lanes := true, accept := .core })
  | .vbcast a w => some (a, w, { major := 0x11, minor := 0x03, dst := .v, a := .s, lanes := true, accept := .core })
  | .vaccRd a w _ => some (a, w, { major := 0x11, minor := 0x04, dst := .v, a := .acc, imm := 3, accept := .core })
  | .vaccWr a w _ => some (a, w, { major := 0x11, minor := 0x05, dst := .acc, a := .v, imm := 3, accept := .core })
  | .vget a w => some (a, w, { major := 0x11, minor := 0x06, dst := .s, a := .v, imm := 0x3F, accept := .core })
  | .vput a w => some (a, w, { major := 0x11, minor := 0x07, dst := .v, a := .s, imm := 0x3F, accept := .core })
  | .vcmpEq a w => some (a, w, { major := 0x12, minor := 0x00, dst := .p, a := .v, b := .v, lanes := true, accept := .core })
  | .vcmpLt a w => some (a, w, { major := 0x12, minor := 0x01, dst := .p, a := .v, b := .v, lanes := true, accept := .core })
  | .vcmpLe a w => some (a, w, { major := 0x12, minor := 0x02, dst := .p, a := .v, b := .v, lanes := true, accept := .core })
  | .vredSum a w => some (a, w, { major := 0x12, minor := 0x03, dst := .s, a := .v, lanes := true, accept := .core })
  | .vredMax a w => some (a, w, { major := 0x12, minor := 0x04, dst := .s, a := .v, lanes := true, accept := .core })
  | .vredMin a w => some (a, w, { major := 0x12, minor := 0x05, dst := .s, a := .v, lanes := true, accept := .core })
  | .cvtF32Bf16 a w => some (a, w, (opCvt 0x00 false true))
  | .cvtF32F16 a w => some (a, w, (opCvt 0x01 false false))
  | .cvtF32E5m2 a w => some (a, w, (opCvt 0x02 false false))
  | .cvtF32Q8a a w => some (a, w, (opCvt 0x03 true false))
  | .cvtF32Q4a a w => some (a, w, (opCvt 0x04 true true))
  | .cvtF32Q2a a w => some (a, w, (opCvt 0x05 true true))
  | .cvtF32Tern a w => some (a, w, (opCvt 0x06 true false))
  | .cvtF32L4 a w => some (a, w, (opCvt 0x07 true true))
  | .cvtF32Mxfp4 a w => some (a, w, (opCvt 0x08 false false))
  | .cvtBf16F32 a w => some (a, w, (opCvt 0x10 false false))
  | .cvtF16F32 a w => some (a, w, (opCvt 0x11 false false))
  | .cvtE5m2F32 a w => some (a, w, (opCvt 0x12 false false))
  | .cvtQ8aF32 a w => some (a, w, (opCvt 0x13 true false))
  | .cvtQ4aF32 a w => some (a, w, (opCvt 0x14 true false))
  | .cvtQ2aF32 a w => some (a, w, (opCvt 0x15 true false))
  | .cvtTernF32 a w => some (a, w, (opCvt 0x16 true false))
  | .cvtL4F32 a w => some (a, w, (opCvt 0x17 true false))
  | .cvtMxfp4F32 a w => some (a, w, (opCvt 0x18 false false))
  | .mmaQ4a a w => some (a, w, if w.imm.toNat % 4 = 3 then { opMma 0x00 0x1FF with imm := 0x1FC } else opMma 0x00 0x1FF)
  | .mmaQ2a a w => some (a, w, (opMma 0x01 0x1FC))
  | .mmaTern a w => some (a, w, (opMma 0x02 0x1FC))
  | .mmaMxfp4 a w => some (a, w, (opMma 0x03 0x1FC))
  | .mmaSpur a w => some (a, w, { major := 0x1C, minor := 0x08, a := .s, refusable := true, accept := .core })
  | .strmGo a w => some (a, w, { major := 0x20, minor := 0x00, a := .d, refusable := true, accept := .core })
  | .strmWait a w => some (a, w, { major := 0x20, minor := 0x01, a := .d, accept := .core })
  | .dscWr a w => some (a, w, { major := 0x20, minor := 0x02, dst := .d, a := .s, imm := 0xF, refusable := true, accept := .core })
  | .dscRd a w => some (a, w, { major := 0x20, minor := 0x03, dst := .s, a := .d, imm := 0xF, refusable := true, accept := .core })
  | .dscClr a w => some (a, w, { major := 0x20, minor := 0x04, dst := .d, accept := .core })
  | .objInfo a w => some (a, w, (opObj 0x00 0))
  | .objNew a w => some (a, w, (opObj 0x01 3))
  | .objDrop a w => some (a, w, (opObj 0x02 0))
  | .objPin a w => some (a, w, (opObj 0x03 0))
  | .objUnpin a w => some (a, w, (opObj 0x04 0))
  | .objSeal a w => some (a, w, (opObj 0x05 1))
  | .objStage a w => some (a, w, (opObj 0x06 0))
  | .fread a w => some (a, w, (opMedia 0x00 0x7FF))
  | .fprog a w => some (a, w, (opMedia 0x01 0))
  | .ferase a w => some (a, w, (opMedia 0x02 0))
  | .fsync a w => some (a, w, (opMedia 0x03 0))
  | .fstat a w => some (a, w, (opMedia 0x04 0))
  | .trvLaunch a w => some (a, w, (opTrv 0x00 .s .s .unused 0xFFFFFFFF false))
  | .trvNode a w _ => some (a, w, (opTrv 0x01 .s .s .unused 0 true))
  | .trvDrd a w => some (a, w, (opTrv 0x02 .s .s .unused 0xF true))
  | .trvScore a w => some (a, w, (opTrv 0x03 .s .unused .unused 0 false))
  | .trvVisit a w => some (a, w, (opTrv 0x04 .p .s .unused 0 true))
  | .trvTomb a w => some (a, w, (opTrv 0x05 .p .s .unused 0 true))
  | .trvPush a w => some (a, w, (opTrv 0x06 .s .unused .unused 0 false))
  | .trvPop a w => some (a, w, opTrv 0x07 .p .unused .unused 0 false)
  | .trvBound a w => some (a, w, (opTrv 0x08 .p .s .unused 0 false))
  | .trvEmit a w => some (a, w, (opTrv 0x09 .unused .s .s 0 true))
  | .grpNew a w => some (a, w, (opGrp 0x30 0x00))
  | .grpFree a w => some (a, w, (opGrp 0x30 0x01))
  | .grpInfo a w => some (a, w, (opGrp 0x30 0x02))
  | .gtopk a w => some (a, w, (opGrp 0x31 0x00))
  | .gsum a w => some (a, w, (opGrp 0x31 0x01))
  | .gbcast a w => some (a, w, (opGrp 0x31 0x02))
  | .gbar a w => some (a, w, (opGrp 0x31 0x03))
  | .timeRd a w => some (a, w, { major := 0x34, minor := 0x00, dst := .s })
  | .timeCairn a w => some (a, w, { major := 0x34, minor := 0x01, a := .s, imm := 0xFF, refusable := true })
  | .stepEnd a w => some (a, w, { major := 0x36, minor := 0x00 })
  | .stepInfo a w => some (a, w, { major := 0x36, minor := 0x01, dst := .s, imm := 0xFFFFFFFF, refusable := true })
  | .stageWr a w => some (a, w, { major := 0x36, minor := 0x02, a := .s, b := .s, imm := 0xFFFF, refusable := true })
  | .stageRd a w => some (a, w, { major := 0x36, minor := 0x03, dst := .s, imm := 0x1FFFF, refusable := true })
  | _ => none

/-- What the access of an instruction to a memory finds. -/
def hitOf : Instr → EccHit
  | .ldB _ _ m => m
  | .ldH _ _ m => m
  | .ldW _ _ m => m
  | .ldD _ _ m => m
  | .ldBs _ _ m => m
  | .ldHs _ _ m => m
  | .ldWs _ _ m => m
  | .stB _ _ m => m
  | .stH _ _ m => m
  | .stW _ _ m => m
  | .vld _ _ m => m
  | .vst _ _ m => m
  | .vaccRd _ _ m => m
  | .vaccWr _ _ m => m
  | .trvNode _ _ m => m
  | _ => .clean

/-- A row of the opcode tables: opcode fields and the instruction they name. -/
structure OpRow where
  major : Nat
  minor : Nat
  make : Agent → IWord → EccHit → Instr

/-- Opcode 0x00 (06). -/
def rowsScalar2 : List OpRow :=
  [⟨0x00, 0x00, fun a w _ => .add a w⟩,
   ⟨0x00, 0x01, fun a w _ => .sub a w⟩,
   ⟨0x00, 0x02, fun a w _ => .and a w⟩,
   ⟨0x00, 0x03, fun a w _ => .or a w⟩,
   ⟨0x00, 0x04, fun a w _ => .xor a w⟩,
   ⟨0x00, 0x05, fun a w _ => .shl a w⟩,
   ⟨0x00, 0x06, fun a w _ => .shr a w⟩,
   ⟨0x00, 0x07, fun a w _ => .sra a w⟩,
   ⟨0x00, 0x08, fun a w _ => .mul a w⟩,
   ⟨0x00, 0x09, fun a w _ => .mulhu a w⟩,
   ⟨0x00, 0x0A, fun a w _ => .min a w⟩,
   ⟨0x00, 0x0B, fun a w _ => .max a w⟩,
   ⟨0x00, 0x0C, fun a w _ => .minu a w⟩,
   ⟨0x00, 0x0D, fun a w _ => .maxu a w⟩]

/-- Opcode 0x01 (06). -/
def rowsScalarImm : List OpRow :=
  [⟨0x01, 0x00, fun a w _ => .addi a w⟩,
   ⟨0x01, 0x01, fun a w _ => .andi a w⟩,
   ⟨0x01, 0x02, fun a w _ => .ori a w⟩,
   ⟨0x01, 0x03, fun a w _ => .xori a w⟩,
   ⟨0x01, 0x04, fun a w _ => .shli a w⟩,
   ⟨0x01, 0x05, fun a w _ => .shri a w⟩,
   ⟨0x01, 0x06, fun a w _ => .srai a w⟩,
   ⟨0x01, 0x07, fun a w _ => .li a w⟩,
   ⟨0x01, 0x08, fun a w _ => .lih a w⟩,
   ⟨0x01, 0x09, fun a w _ => .li64 a w⟩]

/-- Opcode 0x02 (06). -/
def rowsLoadStore : List OpRow :=
  [⟨0x02, 0x00, .ldB⟩,
   ⟨0x02, 0x01, .ldH⟩,
   ⟨0x02, 0x02, .ldW⟩,
   ⟨0x02, 0x03, .ldD⟩,
   ⟨0x02, 0x04, .ldBs⟩,
   ⟨0x02, 0x05, .ldHs⟩,
   ⟨0x02, 0x06, .ldWs⟩,
   ⟨0x02, 0x08, .stB⟩,
   ⟨0x02, 0x09, .stH⟩,
   ⟨0x02, 0x0A, .stW⟩,
   ⟨0x02, 0x0B, fun a w _ => .stD a w⟩]

/-- Opcode 0x03 (06). -/
def rowsSpecial : List OpRow :=
  [⟨0x03, 0x00, fun a w _ => .srd a w⟩,
   ⟨0x03, 0x01, fun a w _ => .swr a w⟩]

/-- Opcode 0x08 (06). -/
def rowsBranch : List OpRow :=
  [⟨0x08, 0x00, fun a w _ => .nop a w⟩,
   ⟨0x08, 0x01, fun a w _ => .j a w⟩,
   ⟨0x08, 0x02, fun a w _ => .jr a w⟩,
   ⟨0x08, 0x03, fun a w _ => .jal a w⟩,
   ⟨0x08, 0x04, fun a w _ => .endProg a w⟩]

/-- Opcode 0x09 (06). -/
def rowsEvent : List OpRow :=
  [⟨0x09, 0x00, fun a w _ => .fset a w⟩,
   ⟨0x09, 0x01, fun a w _ => .fclr a w⟩,
   ⟨0x09, 0x02, fun a w _ => .fwait a w⟩,
   ⟨0x09, 0x03, fun a w _ => .fwaitc a w⟩,
   ⟨0x09, 0x04, fun a w _ => .bar a w⟩,
   ⟨0x09, 0x05, fun a w _ => .brk a w⟩,
   ⟨0x09, 0x06, fun a w _ => .trap a w⟩,
   ⟨0x09, 0x07, fun a w _ => .tret a w⟩]

/-- Opcode 0x0C (06). -/
def rowsPredicate : List OpRow :=
  [⟨0x0C, 0x00, fun a w _ => .cmpEq a w⟩,
   ⟨0x0C, 0x01, fun a w _ => .cmpNe a w⟩,
   ⟨0x0C, 0x02, fun a w _ => .cmpLt a w⟩,
   ⟨0x0C, 0x03, fun a w _ => .cmpLtu a w⟩,
   ⟨0x0C, 0x04, fun a w _ => .cmpLe a w⟩,
   ⟨0x0C, 0x05, fun a w _ => .cmpLeu a w⟩,
   ⟨0x0C, 0x08, fun a w _ => .pand a w⟩,
   ⟨0x0C, 0x09, fun a w _ => .por a w⟩,
   ⟨0x0C, 0x0A, fun a w _ => .pxor a w⟩,
   ⟨0x0C, 0x0B, fun a w _ => .pandn a w⟩,
   ⟨0x0C, 0x0C, fun a w _ => .pnot a w⟩,
   ⟨0x0C, 0x0D, fun a w _ => .pmov a w⟩,
   ⟨0x0C, 0x0E, fun a w _ => .prd a w⟩,
   ⟨0x0C, 0x0F, fun a w _ => .pcnt a w⟩,
   ⟨0x0C, 0x10, fun a w _ => .pfirst a w⟩]

/-- Opcode 0x10 (06). -/
def rowsLane : List OpRow :=
  [⟨0x10, 0x00, fun a w _ => .vadd a w⟩,
   ⟨0x10, 0x01, fun a w _ => .vsub a w⟩,
   ⟨0x10, 0x02, fun a w _ => .vmul a w⟩,
   ⟨0x10, 0x03, fun a w _ => .vfma a w⟩,
   ⟨0x10, 0x04, fun a w _ => .vmax a w⟩,
   ⟨0x10, 0x05, fun a w _ => .vmin a w⟩,
   ⟨0x10, 0x06, fun a w _ => .vabs a w⟩,
   ⟨0x10, 0x07, fun a w _ => .vneg a w⟩,
   ⟨0x10, 0x08, fun a w _ => .vdiv a w⟩,
   ⟨0x10, 0x09, fun a w _ => .vsqrt a w⟩,
   ⟨0x10, 0x10, fun a w _ => .viadd a w⟩,
   ⟨0x10, 0x11, fun a w _ => .visub a w⟩,
   ⟨0x10, 0x12, fun a w _ => .vand a w⟩,
   ⟨0x10, 0x13, fun a w _ => .vor a w⟩,
   ⟨0x10, 0x14, fun a w _ => .vxor a w⟩,
   ⟨0x10, 0x15, fun a w _ => .vshl a w⟩]

/-- Opcode 0x11 (06). -/
def rowsVectorMove : List OpRow :=
  [⟨0x11, 0x00, .vld⟩,
   ⟨0x11, 0x01, .vst⟩,
   ⟨0x11, 0x02, fun a w _ => .vmov a w⟩,
   ⟨0x11, 0x03, fun a w _ => .vbcast a w⟩,
   ⟨0x11, 0x04, .vaccRd⟩,
   ⟨0x11, 0x05, .vaccWr⟩,
   ⟨0x11, 0x06, fun a w _ => .vget a w⟩,
   ⟨0x11, 0x07, fun a w _ => .vput a w⟩]

/-- Opcode 0x12 (06). -/
def rowsVectorCompare : List OpRow :=
  [⟨0x12, 0x00, fun a w _ => .vcmpEq a w⟩,
   ⟨0x12, 0x01, fun a w _ => .vcmpLt a w⟩,
   ⟨0x12, 0x02, fun a w _ => .vcmpLe a w⟩,
   ⟨0x12, 0x03, fun a w _ => .vredSum a w⟩,
   ⟨0x12, 0x04, fun a w _ => .vredMax a w⟩,
   ⟨0x12, 0x05, fun a w _ => .vredMin a w⟩]

/-- Opcode 0x18 (06). -/
def rowsConvert : List OpRow :=
  [⟨0x18, 0x00, fun a w _ => .cvtF32Bf16 a w⟩,
   ⟨0x18, 0x01, fun a w _ => .cvtF32F16 a w⟩,
   ⟨0x18, 0x02, fun a w _ => .cvtF32E5m2 a w⟩,
   ⟨0x18, 0x03, fun a w _ => .cvtF32Q8a a w⟩,
   ⟨0x18, 0x04, fun a w _ => .cvtF32Q4a a w⟩,
   ⟨0x18, 0x05, fun a w _ => .cvtF32Q2a a w⟩,
   ⟨0x18, 0x06, fun a w _ => .cvtF32Tern a w⟩,
   ⟨0x18, 0x07, fun a w _ => .cvtF32L4 a w⟩,
   ⟨0x18, 0x08, fun a w _ => .cvtF32Mxfp4 a w⟩,
   ⟨0x18, 0x10, fun a w _ => .cvtBf16F32 a w⟩,
   ⟨0x18, 0x11, fun a w _ => .cvtF16F32 a w⟩,
   ⟨0x18, 0x12, fun a w _ => .cvtE5m2F32 a w⟩,
   ⟨0x18, 0x13, fun a w _ => .cvtQ8aF32 a w⟩,
   ⟨0x18, 0x14, fun a w _ => .cvtQ4aF32 a w⟩,
   ⟨0x18, 0x15, fun a w _ => .cvtQ2aF32 a w⟩,
   ⟨0x18, 0x16, fun a w _ => .cvtTernF32 a w⟩,
   ⟨0x18, 0x17, fun a w _ => .cvtL4F32 a w⟩,
   ⟨0x18, 0x18, fun a w _ => .cvtMxfp4F32 a w⟩]

/-- Opcode 0x1C (06). -/
def rowsMatrix : List OpRow :=
  [⟨0x1C, 0x00, fun a w _ => .mmaQ4a a w⟩,
   ⟨0x1C, 0x01, fun a w _ => .mmaQ2a a w⟩,
   ⟨0x1C, 0x02, fun a w _ => .mmaTern a w⟩,
   ⟨0x1C, 0x03, fun a w _ => .mmaMxfp4 a w⟩,
   ⟨0x1C, 0x08, fun a w _ => .mmaSpur a w⟩]

/-- Opcode 0x20 (06). -/
def rowsStream : List OpRow :=
  [⟨0x20, 0x00, fun a w _ => .strmGo a w⟩,
   ⟨0x20, 0x01, fun a w _ => .strmWait a w⟩,
   ⟨0x20, 0x02, fun a w _ => .dscWr a w⟩,
   ⟨0x20, 0x03, fun a w _ => .dscRd a w⟩,
   ⟨0x20, 0x04, fun a w _ => .dscClr a w⟩]

/-- Opcode 0x24 (06). -/
def rowsObject : List OpRow :=
  [⟨0x24, 0x00, fun a w _ => .objInfo a w⟩,
   ⟨0x24, 0x01, fun a w _ => .objNew a w⟩,
   ⟨0x24, 0x02, fun a w _ => .objDrop a w⟩,
   ⟨0x24, 0x03, fun a w _ => .objPin a w⟩,
   ⟨0x24, 0x04, fun a w _ => .objUnpin a w⟩,
   ⟨0x24, 0x05, fun a w _ => .objSeal a w⟩,
   ⟨0x24, 0x06, fun a w _ => .objStage a w⟩]

/-- Opcode 0x28 (06). -/
def rowsMedia : List OpRow :=
  [⟨0x28, 0x00, fun a w _ => .fread a w⟩,
   ⟨0x28, 0x01, fun a w _ => .fprog a w⟩,
   ⟨0x28, 0x02, fun a w _ => .ferase a w⟩,
   ⟨0x28, 0x03, fun a w _ => .fsync a w⟩,
   ⟨0x28, 0x04, fun a w _ => .fstat a w⟩]

/-- Opcode 0x2C (06). -/
def rowsTraverse : List OpRow :=
  [⟨0x2C, 0x00, fun a w _ => .trvLaunch a w⟩,
   ⟨0x2C, 0x01, .trvNode⟩,
   ⟨0x2C, 0x02, fun a w _ => .trvDrd a w⟩,
   ⟨0x2C, 0x03, fun a w _ => .trvScore a w⟩,
   ⟨0x2C, 0x04, fun a w _ => .trvVisit a w⟩,
   ⟨0x2C, 0x05, fun a w _ => .trvTomb a w⟩,
   ⟨0x2C, 0x06, fun a w _ => .trvPush a w⟩,
   ⟨0x2C, 0x07, fun a w _ => .trvPop a w⟩,
   ⟨0x2C, 0x08, fun a w _ => .trvBound a w⟩,
   ⟨0x2C, 0x09, fun a w _ => .trvEmit a w⟩]

/-- Opcode 0x30 (06). -/
def rowsGroup : List OpRow :=
  [⟨0x30, 0x00, fun a w _ => .grpNew a w⟩,
   ⟨0x30, 0x01, fun a w _ => .grpFree a w⟩,
   ⟨0x30, 0x02, fun a w _ => .grpInfo a w⟩]

/-- Opcode 0x31 (06). -/
def rowsCollective : List OpRow :=
  [⟨0x31, 0x00, fun a w _ => .gtopk a w⟩,
   ⟨0x31, 0x01, fun a w _ => .gsum a w⟩,
   ⟨0x31, 0x02, fun a w _ => .gbcast a w⟩,
   ⟨0x31, 0x03, fun a w _ => .gbar a w⟩]

/-- Opcode 0x34 (06). -/
def rowsTime : List OpRow :=
  [⟨0x34, 0x00, fun a w _ => .timeRd a w⟩,
   ⟨0x34, 0x01, fun a w _ => .timeCairn a w⟩]

/-- Opcode 0x36 (06). -/
def rowsStep : List OpRow :=
  [⟨0x36, 0x00, fun a w _ => .stepEnd a w⟩,
   ⟨0x36, 0x01, fun a w _ => .stepInfo a w⟩,
   ⟨0x36, 0x02, fun a w _ => .stageWr a w⟩,
   ⟨0x36, 0x03, fun a w _ => .stageRd a w⟩]

/-- The opcode tables of 06. -/
def opcodeTable : List OpRow :=
  rowsScalar2 ++ rowsScalarImm ++ rowsLoadStore ++ rowsSpecial ++ rowsBranch ++ rowsEvent ++ rowsPredicate ++ rowsLane ++ rowsVectorMove ++ rowsVectorCompare ++ rowsConvert ++ rowsMatrix ++ rowsStream ++ rowsObject ++ rowsMedia ++ rowsTraverse ++ rowsGroup ++ rowsCollective ++ rowsTime ++ rowsStep

/-- The fields of an instruction (R118, R119): opcode, minor opcode and the rest of the word. -/
def fieldsOf (word0 word1 : W64) (fetch : EccHit) : Nat × Nat × IWord :=
  let w : IWord := {
    dst := word0.extractLsb' 47 5, srcA := word0.extractLsb' 42 5, srcB := word0.extractLsb' 37 5,
    pred := word0.extractLsb' 34 3, pneg := word0.getLsbD 33, stamp := word0.getLsbD 32,
    imm := word0.extractLsb' 0 32, form := .short, fetch := fetch }
  if word0.extractLsb' 58 6 = 0x3F then
    ((word0.extractLsb' 52 6).toNat, (word0.extractLsb' 26 6).toNat,
      { w with imm := 0, form := .long (word0.extractLsb' 21 5) (word0.extractLsb' 0 21) word1 })
  else ((word0.extractLsb' 58 6).toNat, (word0.extractLsb' 52 6).toNat, w)

/-- The instruction that an agent reads from its text: word 0, the word after it, what the fetch finds, and what the
instruction's access finds. A word whose opcode the tables do not give comes as a reserved word, which takes ILLEGAL_INSTR (R120). -/
def decodeAbasel (ag : Agent) (word0 word1 : W64) (fetch hit : EccHit) : Option Instr :=
  let f := fieldsOf word0 word1 fetch
  match opcodeTable.find? (fun r => r.major == f.1 && r.minor == f.2.1) with
  | some r => some (r.make ag f.2.2 hit)
  | none => some (.nop ag ⟨0, 0, 0, 0, false, false, 0, .reserved word0, fetch⟩)

end Sys2Proof.Machine
end

