-- ==== Sys2Proof/Safety.lean ====
section
/-! DEFINITION. What counts as a safe run, and the terms in which claims are stated: when an Abasel instruction may take
effect, and what its retirement adds to that effect. -/
namespace Sys2Proof.Machine

/-- A run of `k` steps is safe: it meets no fault and no refusal. -/
def Safe (k : Nat) (s : State) : Prop := ∃ t, core.run k s = .next t

/-- What the fetch of a word finds (R423 kind 1): the words at the agent's program counter. -/
def fetchHit (ag : Agent) (w : IWord) (s : State) : EccHit :=
  s.eccOf 1 (s.fetchUnit ag) (8 * (s.regs ag).pc.toNat) (8 * w.words.toNat) w.fetch

/-- The state after the fetch: a correctable error has been recorded (R420). -/
def fetched (ag : Agent) (w : IWord) (s : State) : State :=
  match fetchHit ag w s with
  | .correctable bit addr => s.noteCe 1 (s.fetchUnit ag) 5 bit addr
  | _ => s

/-- The agent offers an instruction: it runs, no REFUSED trap waits (R126), every word of the instruction lies inside the
text (R105, R125), and the fetch meets no uncorrectable error (R423). -/
def fetches (ag : Agent) (w : IWord) (s : State) : Bool :=
  s.issues ag && (s.regs ag).asyncRefused.isNone &&
  decide ((s.regs ag).pc.toNat + (if w.isLong then 1 else 0) < (s.textOf ag).length) &&
  (match fetchHit ag w s with
   | .uncorrectable _ => false
   | _ => true)

/-- No agent stalls: every time island is locked (R180), and the cairn log takes cairns at once (R188). -/
def calm (s : State) : Bool := s.time.logUp && islandIds.all (fun k => (getD {} s.time.islands k).locked)

/-- The instruction takes effect: it is fetched, it is legal (R103, R120), its predicate holds (R121), and no agent stalls (R180, R188). -/
def ready (i : Instr) (s : State) : Bool :=
  match opOf i with
  | none => false
  | some (ag, w, o) =>
    fetches ag w s && w.legal o ag && (o.lanes || ((s.regs ag).active w).getLsbD 0) && calm s

/-- An instruction that was at word `pc` is done (R110, R131): the program counter is `next`, and with STAMP its cairn is stamped. -/
def doneAt (ag : Agent) (w : IWord) (pc next : W64) (s : State) : State :=
  (s.updRegs ag (fun r => r.setPc next)).stampIf w.stamp ag pc

/-- An instruction of `s` is done with effect `t`: the program counter passes it. -/
def retired (ag : Agent) (w : IWord) (s t : State) : State := doneAt ag w (s.regs ag).pc ((t.regs ag).pc + w.words) t

/-- An instruction that completes later has been issued: the program counter passes it; its cairn comes with its completion (R131). -/
def issued (ag : Agent) (w : IWord) (t : State) : State := t.updRegs ag (fun r => r.setPc (r.pc + w.words))

/-- LAST takes the outcome OK of an accepted instruction (R123). -/
def lastOk (ag : Agent) (t : State) : State := t.updRegs ag (fun r => { r with status := lastStatus r.status stOk })

/-- The other agents' scalar sides are the same in two states. -/
def sameOthers (ag : Agent) (s t : State) : Prop := ∀ b : Agent, b ≠ ag → t.regs b = s.regs b

/-- Every byte of every tile's SRAM is the same in two states. -/
def sameSram (s t : State) : Prop := ∀ n a : Nat, (t.tile n).sram.rd a = (s.tile n).sram.rd a

/-- The vector, accumulator, descriptor, extreme, rounding and spur registers of every core are the same in two states. -/
def sameVectors (s t : State) : Prop := ∀ n c : Nat,
  (t.core n c).v = (s.core n c).v ∧ (t.core n c).acc = (s.core n c).acc ∧ (t.core n c).d = (s.core n c).d ∧
  (t.core n c).actl = (s.core n c).actl ∧ (t.core n c).crec = (s.core n c).crec ∧ (t.core n c).ext = (s.core n c).ext ∧
  (t.core n c).srstate = (s.core n c).srstate ∧ (t.core n c).spur = (s.core n c).spur

end Sys2Proof.Machine
end

