-- ==== Sys2Proof/WellFormed.lean ====
section
/-! DEFINITION. Which commands are well formed: operands inside the ranges that the spec gives them and that their types do
not already say. -/
namespace Sys2Proof

/-- A SECDED word has 72 stored bits (R419). -/
def EccHit.wf : EccHit → Bool
  | .clean => true
  | .correctable bit _ => decide (bit.toNat < 72)
  | .uncorrectable _ => true

/-- A long form has no IMM field (R119). -/
def IWord.wf (w : IWord) : Bool :=
  (match w.form with
   | .short => true
   | .long _ _ _ => w.imm == 0
   | .reserved _ => w.imm == 0) && w.fetch.wf

/-- An SRAM address lies within 2 MiB (R212). -/
def XferMedia.wf : XferMedia → Bool
  | .sram a => decide (a.toNat < 2097152)
  | _ => true

/-- A job number has 22 bits (R27). -/
def jobWf (n : Nat) : Bool := decide (n < 4194304)
/-- A query or an item has at most 4,096 dimensions (R247). -/
def vecWf (v : List W32) : Bool := decide (v.length ≤ 4096)
/-- A slot of the write buffer (R361). -/
def slotWf (n : Nat) : Bool := decide (n < 16384)
/-- A block index of an extent has 21 bits (R163). -/
def blockWf (n : Nat) : Bool := decide (n < 2097152)
/-- A QLC block has 512 word lines (R323). -/
def lineWf (n : Nat) : Bool := decide (n < 512)

/-- The well-formed commands. -/
def Instr.wf : Instr → Bool
  | .add _ w => w.wf
  | .sub _ w => w.wf
  | .and _ w => w.wf
  | .or _ w => w.wf
  | .xor _ w => w.wf
  | .shl _ w => w.wf
  | .shr _ w => w.wf
  | .sra _ w => w.wf
  | .mul _ w => w.wf
  | .mulhu _ w => w.wf
  | .min _ w => w.wf
  | .max _ w => w.wf
  | .minu _ w => w.wf
  | .maxu _ w => w.wf
  | .addi _ w => w.wf
  | .andi _ w => w.wf
  | .ori _ w => w.wf
  | .xori _ w => w.wf
  | .shli _ w => w.wf
  | .shri _ w => w.wf
  | .srai _ w => w.wf
  | .li _ w => w.wf
  | .lih _ w => w.wf
  | .li64 _ w => w.wf
  | .ldB _ w m => w.wf && m.wf
  | .ldH _ w m => w.wf && m.wf
  | .ldW _ w m => w.wf && m.wf
  | .ldD _ w m => w.wf && m.wf
  | .ldBs _ w m => w.wf && m.wf
  | .ldHs _ w m => w.wf && m.wf
  | .ldWs _ w m => w.wf && m.wf
  | .stB _ w m => w.wf && m.wf
  | .stH _ w m => w.wf && m.wf
  | .stW _ w m => w.wf && m.wf
  | .stD _ w => w.wf
  | .srd _ w => w.wf
  | .swr _ w => w.wf
  | .nop _ w => w.wf
  | .j _ w => w.wf
  | .jr _ w => w.wf
  | .jal _ w => w.wf
  | .endProg _ w => w.wf
  | .fset _ w => w.wf
  | .fclr _ w => w.wf
  | .fwait _ w => w.wf
  | .fwaitc _ w => w.wf
  | .bar _ w => w.wf
  | .brk _ w => w.wf
  | .trap _ w => w.wf
  | .tret _ w => w.wf
  | .cmpEq _ w => w.wf
  | .cmpNe _ w => w.wf
  | .cmpLt _ w => w.wf
  | .cmpLtu _ w => w.wf
  | .cmpLe _ w => w.wf
  | .cmpLeu _ w => w.wf
  | .pand _ w => w.wf
  | .por _ w => w.wf
  | .pxor _ w => w.wf
  | .pandn _ w => w.wf
  | .pnot _ w => w.wf
  | .pmov _ w => w.wf
  | .prd _ w => w.wf
  | .pcnt _ w => w.wf
  | .pfirst _ w => w.wf
  | .vadd _ w => w.wf
  | .vsub _ w => w.wf
  | .vmul _ w => w.wf
  | .vfma _ w => w.wf
  | .vmax _ w => w.wf
  | .vmin _ w => w.wf
  | .vabs _ w => w.wf
  | .vneg _ w => w.wf
  | .vdiv _ w => w.wf
  | .vsqrt _ w => w.wf
  | .viadd _ w => w.wf
  | .visub _ w => w.wf
  | .vand _ w => w.wf
  | .vor _ w => w.wf
  | .vxor _ w => w.wf
  | .vshl _ w => w.wf
  | .vld _ w m => w.wf && m.wf
  | .vst _ w m => w.wf && m.wf
  | .vmov _ w => w.wf
  | .vbcast _ w => w.wf
  | .vaccRd _ w m => w.wf && m.wf
  | .vaccWr _ w m => w.wf && m.wf
  | .vget _ w => w.wf
  | .vput _ w => w.wf
  | .vcmpEq _ w => w.wf
  | .vcmpLt _ w => w.wf
  | .vcmpLe _ w => w.wf
  | .vredSum _ w => w.wf
  | .vredMax _ w => w.wf
  | .vredMin _ w => w.wf
  | .cvtF32Bf16 _ w => w.wf
  | .cvtF32F16 _ w => w.wf
  | .cvtF32E5m2 _ w => w.wf
  | .cvtF32Q8a _ w => w.wf
  | .cvtF32Q4a _ w => w.wf
  | .cvtF32Q2a _ w => w.wf
  | .cvtF32Tern _ w => w.wf
  | .cvtF32L4 _ w => w.wf
  | .cvtF32Mxfp4 _ w => w.wf
  | .cvtBf16F32 _ w => w.wf
  | .cvtF16F32 _ w => w.wf
  | .cvtE5m2F32 _ w => w.wf
  | .cvtQ8aF32 _ w => w.wf
  | .cvtQ4aF32 _ w => w.wf
  | .cvtQ2aF32 _ w => w.wf
  | .cvtTernF32 _ w => w.wf
  | .cvtL4F32 _ w => w.wf
  | .cvtMxfp4F32 _ w => w.wf
  | .mmaQ4a _ w => w.wf
  | .mmaQ2a _ w => w.wf
  | .mmaTern _ w => w.wf
  | .mmaMxfp4 _ w => w.wf
  | .mmaSpur _ w => w.wf
  | .arrayInstructionStart _ m => m.wf
  | .matrixOutputWritten _ => true
  | .strmGo _ w => w.wf
  | .strmWait _ w => w.wf
  | .dscWr _ w => w.wf
  | .dscRd _ w => w.wf
  | .dscClr _ w => w.wf
  | .streamTransferComplete _ _ _ media => media.wf
  | .objInfo _ w => w.wf
  | .objNew _ w => w.wf
  | .objDrop _ w => w.wf
  | .objPin _ w => w.wf
  | .objUnpin _ w => w.wf
  | .objSeal _ w => w.wf
  | .objStage _ w => w.wf
  | .recordInstructionComplete _ _ _ _ => true
  | .fread _ w => w.wf
  | .fprog _ w => w.wf
  | .ferase _ w => w.wf
  | .fsync _ w => w.wf
  | .fstat _ w => w.wf
  | .mediaCheck _ block => blockWf block
  | .trvLaunch _ w => w.wf
  | .trvNode _ w m => w.wf && m.wf
  | .trvDrd _ w => w.wf
  | .trvScore _ w => w.wf
  | .trvVisit _ w => w.wf
  | .trvTomb _ w => w.wf
  | .trvPush _ w => w.wf
  | .trvPop _ w => w.wf
  | .trvBound _ w => w.wf
  | .trvEmit _ w => w.wf
  | .contextDataArrived _ _ _ => true
  | .forwardArrival _ _ job => jobWf job
  | .grpNew _ w => w.wf
  | .grpFree _ w => w.wf
  | .grpInfo _ w => w.wf
  | .gtopk _ w => w.wf
  | .gsum _ w => w.wf
  | .gbcast _ w => w.wf
  | .gbar _ w => w.wf
  | .timeRd _ w => w.wf
  | .timeCairn _ w => w.wf
  | .stepEnd _ w => w.wf
  | .stepInfo _ w => w.wf
  | .stageWr _ w => w.wf
  | .stageRd _ w => w.wf
  | .asyncRefusedTrap _ => true
  | .doorbell _ _ _ => true
  | .search _ => true
  | .filter _ => true
  | .embed _ => true
  | .readAnswer _ => true
  | .run _ => true
  | .queryEmbedded job _ vec => jobWf job && vecWf vec
  | .tablesReady job _ => jobWf job
  | .walkDone job => jobWf job
  | .moraineDone job _ => jobWf job
  | .mergeDone job _ => jobWf job
  | .rerankDone job _ => jobWf job
  | .prefillLoaded job => jobWf job
  | .readDone job _ _ => jobWf job
  | .scanDone job _ => jobWf job
  | .embedDone job vecs _ => jobWf job && vecs.all vecWf
  | .resultWritten job => jobWf job
  | .completionPosted job => jobWf job
  | .chainMemberAnswer job _ _ entries => jobWf job && decide (entries.length ≤ 4096)
  | .chainMemberTimeout job => jobWf job
  | .abortQuery _ => true
  | .nvmeAbort _ => true
  | .tagExpiry _ _ _ => true
  | .stageSettings _ => true
  | .stageSettingsRead _ => true
  | .queueResume _ => true
  | .ledgerExport _ => true
  | .ledgerImport _ => true
  | .objectSeal _ => true
  | .pinS _ => true
  | .pinD _ => true
  | .unpinS _ => true
  | .unpinD _ => true
  | .map _ => true
  | .unmap _ => true
  | .objectDrop _ => true
  | .objectInfo _ => true
  | .extentAllocate _ => true
  | .extentFree _ => true
  | .attest _ => true
  | .attestCertificate _ => true
  | .form _ => true
  | .leave _ => true
  | .dissolve _ => true
  | .firmware _ _ => true
  | .status _ => true
  | .probeReturn ring => decide (ring.length ≤ 7)
  | .joinOffer => true
  | .masterChange _ _ => true
  | .read _ => true
  | .write _ => true
  | .flush _ => true
  | .verify _ => true
  | .writeZeroes _ => true
  | .datasetManagement _ => true
  | .loadProgram _ => true
  | .programActivationManagement _ => true
  | .executeProgram _ => true
  | .memoryRead _ => true
  | .memoryWrite _ => true
  | .createIoSubmissionQueue _ => true
  | .createIoCompletionQueue _ => true
  | .deleteIoSubmissionQueue _ => true
  | .queueClient _ => true
  | .powerManagement _ => true
  | .timestamp _ => true
  | .namespaceManagement _ => true
  | .formatNvm _ => true
  | .sanitizeCryptoErase _ => true
  | .firmwareImageDownload _ => true
  | .firmwareCommit _ _ => true
  | .getLogPage _ => true
  | .virtualizationManagement _ => true
  | .deviceSelfTest _ => true
  | .shutdownNotification _ => true
  | .controllerDisable _ => true
  | .controllerEnable _ => true
  | .saddle _ => true
  | .stepOverrun => true
  | .saddleFlitSend => true
  | .saddleFlitArrival _ _ => true
  | .chainLeft => true
  | .timeSync drift => drift.all (fun x => decide (x.1 < 512))
  | .epochMinute => true
  | .epochSave => true
  | .colTransfer _ _ _ => true
  | .dieReadArrival _ _ => true
  | .dieSuspend _ => true
  | .dieResume _ => true
  | .dieReadDone _ _ => true
  | .dieProgramDone _ _ => true
  | .dieEraseDone _ _ => true
  | .objResealed _ => true
  | .dieFailed _ => true
  | .qlcWordLineProgram _ block line => blockWf block && lineWf line
  | .bufferProgram slots _ _ _ => slots.all slotWf
  | .subUnitMerge slot _ => slotWf slot
  | .garbageCollection _ _ _ _ _ _ _ => true
  | .patrol _ _ _ => true
  | .windowMove _ => true
  | .moraineSegment _ => true
  | .blockMove _ _ => true
  | .pinnedReload _ _ => true
  | .dmaChannelRestart _ _ _ => true
  | .tileSramReload _ _ => true
  | .eccCe _ => true
  | .mapEntryRebuilt => true
  | .scrubLine _ m => m.wf
  | .tileFailure _ _ => true
  | .watchdogExpiry _ => true
  | .controlCoreException _ => true
  | .laneFailure _ _ => true
  | .portRetrain _ => true
  | .meshLinkFailure _ => true
  | .ringWrap _ => true
  | .flitForward _ _ _ => true
  | .coldPowerOn _ => true
  | .aux12vPresent => true
  | .firmwareCheck _ => true
  | .controlCoreStart _ => true
  | .parallelTraining _ => true
  | .tileSelfTest _ => true
  | .firmwareBroadcast _ => true
  | .mapRebuilt _ => true
  | .chainFormation _ => true
  | .ready => true
  | .powerLoss => true
  | .perst _ => true
  | .hotReset => true
  | .nvmSubsystemReset => true
  | .pfFlr => true
  | .vfFlr _ => true
  | .grprst _ => true
  | .enter => true
  | .commitRecoveryImage _ _ => true
  | .recoveryReset _ => true
  | .rcvdata _ _ _ => true
  | .imglenWrite _ _ => true
  | .cldataRead _ => true
  | .chclr _ => true
  | .eccclr _ => true
  | .stepctlWrite _ _ _ => true
  | .registerWrite _ _ => true
  | .registerRead _ => true
  | .miRegisterWrite _ _ => true
  | .managementReset => true
  | .basicManagementCommand => true
  | .debugUnlock _ _ => true
  | .pwrbrkN _ => true
  | .powerMeasurement _ => true
  | .sensorRead _ => true
  | .thermal => true
  | .thermalShutdown => true
  | .holdup _ => true
  | .powerStateEntry => true
  | .autonomousPowerStateTransition _ => true
  | .powerStateExit => true
  | .d3hot _ => true
  | .fanOut q => vecWf q.vec
  | .commitFlit => true
  | .probeFlitTimeout => true
  | .forwardedChange _ _ => true
  | .offerReceived _ _ _ _ => true
  | .nack _ _ _ => true
  | .pcieTrainingDone _ _ => true
  | .lostLinkTrains _ => true
  | .selfTestOperationEnd _ => true
  | .returnToD0 _ => true

end Sys2Proof
end

