-- ==== Sys2Proof/Certificates/Slice0/Obligations.lean ====
section
/-! DEFINITION. The statements for the provers: what the spec's rules say of the commands, as propositions about the model. -/
namespace Sys2Proof.Claims
open Machine

/-! ## Terms of the statements -/

/-- What an access of `n` bytes at `a` of a core's SRAM finds (R423 kind 0). -/
def sramHit (t : Fin 256) (a : W64) (n : Nat) (m : EccHit) (s : State) : EccHit := s.eccOf 0 (s.physOf t.val) a.toNat n m

/-- The access meets no uncorrectable error. -/
def sramGood (t : Fin 256) (a : W64) (n : Nat) (m : EccHit) (s : State) : Bool :=
  match sramHit t a n m s with
  | .uncorrectable _ => false
  | _ => true

/-- The state after the access: a correctable error has been recorded (R420). -/
def sramSeen (t : Fin 256) (a : W64) (n : Nat) (m : EccHit) (s : State) : State :=
  match sramHit t a n m s with
  | .correctable b addr => s.noteCe 0 (s.physOf t.val) 0 b addr
  | _ => s

/-- An access of `n` bytes at `a` can proceed: inside SRAM and aligned (R125, R141), and no earlier transfer of the core
touches it (R113). -/
def accessOk (t : Fin 256) (c : Fin 4) (a : W64) (n : Nat) (s : State) : Bool :=
  decide (a.toNat + n ≤ 2097152) && decide (a.toNat % n = 0) && !s.streamClash t.val c.val a.toNat n

/-- The address of a load or a store: sa plus the immediate, sign-extended (R141). -/
def addrOf (ag : Agent) (w : IWord) (s : State) : W64 := (s.regs ag).rs w.srcA + BitVec.ofInt 64 w.imm.toInt

/-- A trap with vector `v` is taken in `s` (R125 to R130): what the registers hold after it, where the agent goes, and what
becomes of a program whose agent has no handler or is already in one. -/
def trapped (ag : Agent) (v : Nat) (tval : W64) (async : Bool) (s t : State) : Prop :=
  let r := s.regs ag
  let h := handlerOf (s.textOf ag) v
  (t.regs ag).tpc = r.pc ∧ (t.regs ag).tval = tval ∧
  (t.regs ag).tcause = BitVec.ofNat 64 (v + if async then 16 else 0) ∧
  (t.regs ag).tctl = r.tctl ||| 2 ∧
  (if r.inh ∨ h = 0 then (t.regs ag).run = .failed ∧ (t.regs ag).pc = r.pc ∧
      (∀ n j, r.job = some n → s.job? n = some j → t.job? n = some { j with stop := j.stop.or (some stProgramTrap) })
    else (t.regs ag).run = r.run ∧ (t.regs ag).pc = h ∧ t.host = s.host) ∧
  (t.regs ag).s = r.s ∧ (t.regs ag).p = r.p ∧ (t.regs ag).status = r.status ∧
  sameOthers ag s t ∧ sameSram s t ∧ sameVectors s t

/-- A scalar result: `make` is the instruction, `value` what R141 gives the destination. -/
structure ScalarRow where
  make : Agent → IWord → Instr
  value : Regs → IWord → W64

/-- Two-source scalar results (R141, opcode 0x00): the operation as arithmetic modulo 2^64. -/
def aluRows : List ScalarRow :=
  [⟨.add, fun r w => BitVec.ofNat 64 ((r.rs w.srcA).toNat + (r.rs w.srcB).toNat)⟩,
   ⟨.sub, fun r w => BitVec.ofInt 64 ((r.rs w.srcA).toInt - (r.rs w.srcB).toInt)⟩,
   ⟨.and, fun r w => r.rs w.srcA &&& r.rs w.srcB⟩,
   ⟨.or, fun r w => r.rs w.srcA ||| r.rs w.srcB⟩,
   ⟨.xor, fun r w => r.rs w.srcA ^^^ r.rs w.srcB⟩,
   ⟨.shl, fun r w => BitVec.ofNat 64 ((r.rs w.srcA).toNat * 2 ^ ((r.rs w.srcB).toNat % 64))⟩,
   ⟨.shr, fun r w => BitVec.ofNat 64 ((r.rs w.srcA).toNat / 2 ^ ((r.rs w.srcB).toNat % 64))⟩,
   ⟨.sra, fun r w => BitVec.ofInt 64 ((r.rs w.srcA).toInt / 2 ^ ((r.rs w.srcB).toNat % 64))⟩,
   ⟨.mul, fun r w => BitVec.ofNat 64 ((r.rs w.srcA).toNat * (r.rs w.srcB).toNat)⟩,
   ⟨.mulhu, fun r w => BitVec.ofNat 64 ((r.rs w.srcA).toNat * (r.rs w.srcB).toNat / 2 ^ 64)⟩,
   ⟨.min, fun r w => BitVec.ofInt 64 (Min.min (r.rs w.srcA).toInt (r.rs w.srcB).toInt)⟩,
   ⟨.max, fun r w => BitVec.ofInt 64 (Max.max (r.rs w.srcA).toInt (r.rs w.srcB).toInt)⟩,
   ⟨.minu, fun r w => BitVec.ofNat 64 (Min.min (r.rs w.srcA).toNat (r.rs w.srcB).toNat)⟩,
   ⟨.maxu, fun r w => BitVec.ofNat 64 (Max.max (r.rs w.srcA).toNat (r.rs w.srcB).toNat)⟩]

/-- Scalar results with an immediate (R141, opcode 0x01). -/
def immRows : List ScalarRow :=
  [⟨.addi, fun r w => BitVec.ofInt 64 ((r.rs w.srcA).toInt + w.imm.toInt)⟩,
   ⟨.andi, fun r w => r.rs w.srcA &&& BitVec.ofInt 64 w.imm.toInt⟩,
   ⟨.ori, fun r w => r.rs w.srcA ||| BitVec.ofInt 64 w.imm.toInt⟩,
   ⟨.xori, fun r w => r.rs w.srcA ^^^ BitVec.ofInt 64 w.imm.toInt⟩,
   ⟨.shli, fun r w => BitVec.ofNat 64 ((r.rs w.srcA).toNat * 2 ^ w.imm.toNat)⟩,
   ⟨.shri, fun r w => BitVec.ofNat 64 ((r.rs w.srcA).toNat / 2 ^ w.imm.toNat)⟩,
   ⟨.srai, fun r w => BitVec.ofInt 64 ((r.rs w.srcA).toInt / 2 ^ w.imm.toNat)⟩,
   ⟨.li, fun _ w => BitVec.ofInt 64 w.imm.toInt⟩,
   ⟨.lih, fun r w => w.imm ++ (r.rs w.dst).setWidth 32⟩,
   ⟨.li64, fun _ w => word1Of w⟩]

/-- Results of the predicate group in a scalar register (R145). -/
def countRows : List ScalarRow :=
  [⟨.prd, fun r w => r.rp w.srcA⟩,
   ⟨.pcnt, fun r w => BitVec.ofNat 64 ((List.range 64).countP (fun i => (r.rp w.srcA).getLsbD i))⟩,
   ⟨.pfirst, fun r w => BitVec.ofNat 64 (((List.range 64).find? (fun i => (r.rp w.srcA).getLsbD i)).getD 64)⟩]

/-- Results of the predicate group in a predicate (R145): a compare gives all ones or all zeros. -/
def predRows : List ScalarRow :=
  let when (b : Bool) : W64 := if b then BitVec.allOnes 64 else 0
  [⟨.cmpEq, fun r w => when (decide (r.rs w.srcA = r.rs w.srcB))⟩,
   ⟨.cmpNe, fun r w => when (decide (r.rs w.srcA ≠ r.rs w.srcB))⟩,
   ⟨.cmpLt, fun r w => when (decide ((r.rs w.srcA).toInt < (r.rs w.srcB).toInt))⟩,
   ⟨.cmpLtu, fun r w => when (decide ((r.rs w.srcA).toNat < (r.rs w.srcB).toNat))⟩,
   ⟨.cmpLe, fun r w => when (decide ((r.rs w.srcA).toInt ≤ (r.rs w.srcB).toInt))⟩,
   ⟨.cmpLeu, fun r w => when (decide ((r.rs w.srcA).toNat ≤ (r.rs w.srcB).toNat))⟩,
   ⟨.pand, fun r w => r.rp w.srcA &&& r.rp w.srcB⟩,
   ⟨.por, fun r w => r.rp w.srcA ||| r.rp w.srcB⟩,
   ⟨.pxor, fun r w => r.rp w.srcA ^^^ r.rp w.srcB⟩,
   ⟨.pandn, fun r w => r.rp w.srcA &&& ~~~ r.rp w.srcB⟩,
   ⟨.pnot, fun r w => ~~~ r.rp w.srcA⟩,
   ⟨.pmov, fun r w => r.rs w.srcA⟩]

/-- A load (R141): the instruction, its bytes, and whether it sign-extends. -/
structure LoadRow where
  make : Agent → IWord → EccHit → Instr
  bytes : Nat
  signed : Bool

/-- The loads of R141. -/
def loadRows : List LoadRow :=
  [⟨.ldB, 1, false⟩, ⟨.ldH, 2, false⟩, ⟨.ldW, 4, false⟩, ⟨.ldD, 8, false⟩, ⟨.ldBs, 1, true⟩, ⟨.ldHs, 2, true⟩, ⟨.ldWs, 4, true⟩]

/-- The stores of R141; ST.D covers its word whole, so it checks nothing (R423). -/
def storeRows : List LoadRow :=
  [⟨.stB, 1, false⟩, ⟨.stH, 2, false⟩, ⟨.stW, 4, false⟩, ⟨fun a w _ => .stD a w, 8, false⟩]

/-- A number of `n` bytes as a 64-bit value, zero-extended or sign-extended. -/
def extended (n : Nat) (signed : Bool) (x : Nat) : W64 :=
  if signed ∧ 2 ^ (8 * n - 1) ≤ x then BitVec.ofInt 64 (x - 2 ^ (8 * n)) else BitVec.ofNat 64 x

/-- A lane result: the instruction and what it gives lane `l`, with the event it counts (R146, R148). -/
structure LaneRow where
  make : Agent → IWord → Instr
  value : Core → IWord → Nat → W32 × Ev

/-- FP32 lanes (R146 to R148; R45 FTZ). -/
def fpLaneRows : List LaneRow :=
  [⟨.vadd, fun k w l => fAdd k.ftz (k.rv w.srcA l) (k.rv w.srcB l)⟩,
   ⟨.vsub, fun k w l => fSub k.ftz (k.rv w.srcA l) (k.rv w.srcB l)⟩,
   ⟨.vmul, fun k w l => fMul k.ftz (k.rv w.srcA l) (k.rv w.srcB l)⟩,
   ⟨.vfma, fun k w l => fFma k.ftz (k.rv w.srcA l) (k.rv w.srcB l) (k.rv w.dst l)⟩,
   ⟨.vmax, fun k w l => plainOut k.ftz (fMax (k.rv w.srcA l) (k.rv w.srcB l))⟩,
   ⟨.vmin, fun k w l => plainOut k.ftz (fMin (k.rv w.srcA l) (k.rv w.srcB l))⟩,
   ⟨.vabs, fun k w l => if isNan (k.rv w.srcA l) then (k.rv w.srcA l, .nanp) else plainOut k.ftz (k.rv w.srcA l &&& 0x7FFFFFFF)⟩,
   ⟨.vneg, fun k w l => if isNan (k.rv w.srcA l) then (k.rv w.srcA l, .nanp) else plainOut k.ftz (k.rv w.srcA l ^^^ 0x80000000)⟩,
   ⟨.vdiv, fun k w l => fDiv k.ftz (k.rv w.srcA l) (k.rv w.srcB l)⟩,
   ⟨.vsqrt, fun k w l => fSqrt k.ftz (k.rv w.srcA l)⟩]

/-- Integer lanes and copies (R146): they count nothing (R148). -/
def intLaneRows : List LaneRow :=
  [⟨.viadd, fun k w l => (BitVec.ofNat 32 ((k.rv w.srcA l).toNat + (k.rv w.srcB l).toNat), .none)⟩,
   ⟨.visub, fun k w l => (BitVec.ofInt 32 ((k.rv w.srcA l).toInt - (k.rv w.srcB l).toInt), .none)⟩,
   ⟨.vand, fun k w l => (k.rv w.srcA l &&& k.rv w.srcB l, .none)⟩,
   ⟨.vor, fun k w l => (k.rv w.srcA l ||| k.rv w.srcB l, .none)⟩,
   ⟨.vxor, fun k w l => (k.rv w.srcA l ^^^ k.rv w.srcB l, .none)⟩,
   ⟨.vshl, fun k w l => (BitVec.ofNat 32 ((k.rv w.srcA l).toNat * 2 ^ ((k.rv w.srcB l).toNat % 32)), .none)⟩,
   ⟨.vmov, fun k w l => (k.rv w.srcA l, .none)⟩,
   ⟨.vbcast, fun k w _ => ((k.r.rs w.srcA).setWidth 32, .none)⟩]

/-- A narrowing convert (R149, R151): what it packs and counts from the elements, sb and the SR draws. -/
structure NarrowRow where
  make : Agent → IWord → Instr
  pack : Core → List W32 → W64 → List (Option Nat) → Nat × Counts

/-- The converts from FP32 (R149). -/
def narrowRows : List NarrowRow :=
  [⟨.cvtF32Bf16, fun k xs _ us => narrowFloat fmtBf16 k.ftz xs us⟩,
   ⟨.cvtF32F16, fun k xs _ us => narrowFloat fmtF16 k.ftz xs us⟩,
   ⟨.cvtF32E5m2, fun k xs _ us => narrowFloat fmtE5m2 k.ftz xs us⟩,
   ⟨.cvtF32Q8a, fun _ xs b us => narrowCodes .q8a xs b us⟩,
   ⟨.cvtF32Q4a, fun _ xs b us => narrowCodes .q4a xs b us⟩,
   ⟨.cvtF32Q2a, fun _ xs b us => narrowCodes .q2a xs b us⟩,
   ⟨.cvtF32Tern, fun _ xs b us => narrowCodes .tern xs b us⟩,
   ⟨.cvtF32L4, fun _ xs b us => narrowCodes .l4 xs b us⟩,
   ⟨.cvtF32Mxfp4, fun _ xs b us => narrowCodes .mxfp4 xs b us⟩]

/-- A widening convert (R149, R151): the FP32 elements and the counts, from the packed lanes, sb and CNT. -/
structure WidenRow where
  make : Agent → IWord → Instr
  open_ : Core → Nat → W64 → Nat → List W32 × Counts

/-- The converts to FP32 (R149). -/
def widenRows : List WidenRow :=
  [⟨.cvtBf16F32, fun k x _ n => widenFloat fmtBf16 k.ftz x n⟩,
   ⟨.cvtF16F32, fun k x _ n => widenFloat fmtF16 k.ftz x n⟩,
   ⟨.cvtE5m2F32, fun k x _ n => widenFloat fmtE5m2 k.ftz x n⟩,
   ⟨.cvtQ8aF32, fun k x b n => widenCodes .q8a k.ftz x b n⟩,
   ⟨.cvtQ4aF32, fun k x b n => widenCodes .q4a k.ftz x b n⟩,
   ⟨.cvtQ2aF32, fun k x b n => widenCodes .q2a k.ftz x b n⟩,
   ⟨.cvtTernF32, fun k x b n => widenCodes .tern k.ftz x b n⟩,
   ⟨.cvtL4F32, fun k x b n => widenCodes .l4 k.ftz x b n⟩,
   ⟨.cvtMxfp4F32, fun k x b n => widenCodes .mxfp4 k.ftz x b n⟩]

/-- The counter block of a job has taken `ct` (R48). -/
def counted (job : Option Nat) (ct : Counts) (s t : State) : Prop :=
  ∀ n j, job = some n → s.job? n = some j → (t.job? n).map (fun j => j.counts) = some (j.counts.add ct)

/-- What a convert leaves in its core (R47, R49, R73, R151): destination lanes `out`, the counter record, the extreme register
over the FP32 elements `seen`, and the SR counter; every other vector register, the accumulators and the descriptors as they were. -/
def converted (w : IWord) (out : Nat) (seen : List W32) (ct : Counts) (k k' : Core) : Prop :=
  (∀ l, l < 64 → k'.rv w.dst l = ((lanesOf out)[l]?).getD (k.rv w.dst l)) ∧
  (∀ n l, n ≠ w.dst → l < 64 → k'.rv n l = k.rv n l) ∧
  k'.crec = crecOf ct ∧
  (∀ e, k'.rext e = if w.imm.getLsbD 9 ∧ e = w.imm.toNat / 1024 % 4 then extObserveAll (k.rext e) seen else k.rext e) ∧
  k'.srstate.extractLsb' 64 64 = k.srstate.extractLsb' 64 64 ∧
  k'.srstate.extractLsb' 0 64 =
    (if w.imm.getLsbD 8 then k.srstate.extractLsb' 0 64 + BitVec.ofNat 64 (w.imm.toNat % 128) else k.srstate.extractLsb' 0 64) ∧
  k'.acc = k.acc ∧ k'.d = k.d ∧ k'.actl = k.actl

/-- An object or staging instruction (R160, R174): its request, from the handle and the argument in sa. -/
structure RequestRow where
  make : Agent → IWord → Instr
  kind : IWord → W64 → Option RecKind

/-- The object instructions but OBJ.SEAL (R160). -/
def objectRows : List RequestRow :=
  let h (x : W64) : W32 := x.setWidth 32
  let arg (x : W64) : Nat := (x.extractLsb' 32 32).toNat
  [⟨.objInfo, fun _ x => if arg x = 0 then some (.objInfo (h x)) else none⟩,
   ⟨.objNew, fun w x => if h x = 0 ∧ arg x ≠ 0 ∧ w.imm.toNat ≤ 1 then some (.objNew (arg x) (decide (w.imm = 1))) else none⟩,
   ⟨.objDrop, fun _ x => if arg x = 0 then some (.objDrop (h x)) else none⟩,
   ⟨.objPin, fun _ x => if arg x ≤ 1 then some (.objPin (h x) (decide (arg x = 1))) else none⟩,
   ⟨.objUnpin, fun _ x => if arg x ≤ 1 then some (.objUnpin (h x) (decide (arg x = 1))) else none⟩,
   ⟨.objStage, fun _ x => some (.objStage (h x) (x.extractLsb' 32 32))⟩,
   ⟨.stageWr, fun w x => some (.stageWr (w.imm.setWidth 16) x)⟩]

/-- A group or collective instruction (R170): the call counter it advances, its request from the issuing state, sa, sb 31:0
and the call's number, and whether it completes at once. -/
structure CallRow where
  make : Agent → IWord → Instr
  counter : Nat
  kind : State → Fin 256 → Fin 4 → W64 → W32 → Nat → Option RecKind
  atOnce : W32 → Bool

/-- The member list that sa names (R170): a count N of 2 bytes, then N member numbers of 2 bytes. -/
def membersAt (s : State) (t : Fin 256) (a : Nat) : Option (List W16) := memberList (s.tile t.val).sram a

/-- The group and collective instructions (R170 to R172). -/
def callRows : List CallRow :=
  let g (x : W64) : W16 := if x.toNat < 65536 then x.setWidth 16 else 0xFFFF
  [⟨.grpNew, 1, fun s t _ a b n => if b = 0 then (membersAt s t a.toNat).map (fun l => .grpNew l n) else none, fun _ => false⟩,
   ⟨.grpFree, 1, fun _ _ _ a b n => if b = 0 then some (.grpFree (g a) n) else none, fun _ => false⟩,
   ⟨.grpInfo, 0, fun _ _ _ a b _ => if b = 0 then some (.grpInfo (g a)) else none, fun _ => false⟩,
   ⟨.gtopk, 2, fun _ _ _ a b n =>
      let k := b.toNat % 8192
      let l := b.toNat / 65536 % 8192
      if k ≤ 4096 ∧ l ≤ 4096 ∧ b &&& 0xE000E000 = 0 ∧ (l = 0 ∨ a.toNat + 16 * l ≤ 2097152) ∧ (k = 0 ∨ a.toNat + 16 * k ≤ 2097152)
        then some (.gtopk a.toNat k l n) else none, fun b => decide (b.toNat % 8192 = 0)⟩,
   ⟨.gsum, 3, fun _ _ _ a b n => if b = 0 ∨ a.toNat + 4 * b.toNat ≤ 2097152 then some (.gsum a.toNat b.toNat n) else none,
      fun b => decide (b = 0)⟩,
   ⟨.gbcast, 4, fun s t c a b n =>
      let count := b.toNat % 16777216
      if b.toNat / 16777216 < (s.placeOf (s.regs (.core t c)).job t.val).1 ∧ (count = 0 ∨ a.toNat + count ≤ 2097152)
        then some (.gbcast a.toNat count (b.toNat / 16777216) n) else none, fun b => decide (b.toNat % 16777216 = 0)⟩,
   ⟨.gbar, 5, fun _ _ _ a b n => if a = 0 ∧ b = 0 then some (.gbar n) else none, fun _ => false⟩]

end Sys2Proof.Claims

open Sys2Proof Sys2Proof.Machine Sys2Proof.Claims

/-! ## The machine as a whole -/

/-- A step takes the command at the front of the queue and runs exec on it with the queue's rest. On an empty queue the
block idles (the model's choice, log entry 13). -/
def Obligations.StepRunsFront : Prop :=
  ∀ (c : Instr) (s : State),
    step { s with pending := c :: s.pending } = exec c s ∧
    (s.pending = [] → step s = .next s)

/-- Every command's effect leaves the queue as it stands: the commands that wait are served first in, first out. -/
def Obligations.QueueKept : Prop :=
  ∀ (c : Instr) (s t : State), exec c s = .next t → t.pending = s.pending

/-- No command stops the block: each answers a next state from every state (the spec gives every command an effect). -/
def Obligations.NoCommandStops : Prop := ∀ (c : Instr) (s : State), ∃ t, exec c s = .next t

/-- The rings of R188 and R446 never hold more than they can: 4,194,304 cairn-log entries and 256 error-log entries. -/
def Sys2Proof.Claims.RingsBounded (s : State) : Prop := s.time.log.length ≤ 4194304 ∧ s.time.errors.length ≤ 256

/-- Every step keeps the rings within their capacities, from every state in which they are. -/
def Obligations.RingsStayBounded : Prop :=
  ∀ (s t : State), RingsBounded s → step s = .next t → RingsBounded t

/-- No register file of a sequencer core or of a traversal context holds a word for s0 or for p0 (R106): writes to them left none. -/
def Sys2Proof.Claims.RegistersHardWired (s : State) : Prop :=
  ∀ ag : Agent, find 0 (s.regs ag).s = none ∧ find 0 (s.regs ag).p = none

/-- Every step keeps s0 and p0 without a word of their own, whatever an instruction, a program's start or a trap writes (R106). -/
def Obligations.RegistersStayHardWired : Prop :=
  ∀ (s t : State), RegistersHardWired s → step s = .next t → RegistersHardWired t

/-- The SRAM of every tile and the content of every object are memories in canonical form. -/
def Sys2Proof.Claims.MemoriesCanonical (s : State) : Prop :=
  (∀ e ∈ s.tiles, e.2.sram.wf = true) ∧ (∀ e ∈ s.obj.dir, e.2.data.wf = true)

/-- Every step keeps tile SRAM (R94) and the content of objects (R217) in the canonical form of memory: equal contents stay equal data. -/
def Obligations.MemoriesStayCanonical : Prop :=
  ∀ (s t : State), MemoriesCanonical s → step s = .next t → MemoriesCanonical t

/-- The array queue of every tile holds at most 16 instructions (R112). -/
def Sys2Proof.Claims.QueuesBounded (s : State) : Prop := ∀ e ∈ s.tiles, e.2.queue.length ≤ 16

/-- Every step keeps the array queues within their 16 entries (R112). -/
def Obligations.QueuesStayBounded : Prop :=
  ∀ (s t : State), QueuesBounded s → step s = .next t → QueuesBounded t

/-- The jobs of the drive have 22-bit numbers, no two the same (R27). -/
def Sys2Proof.Claims.JobNumbersDistinct (s : State) : Prop :=
  (s.host.jobs.map (fun j => j.num)).Nodup ∧ ∀ j ∈ s.host.jobs, j.num < 4194304

/-- Every step keeps the numbers of the drive's jobs distinct and within 22 bits, also where the counter has wrapped (R27), as long as the jobs
and the indexes that a step could start a consolidation for are fewer than a quarter of the numbers. -/
def Obligations.JobNumbersStayDistinct : Prop :=
  ∀ (s t : State), JobNumbersDistinct s → s.host.jobs.length + s.idx.all.length < 1048576 → step s = .next t → JobNumbersDistinct t

/-- The memory of the model (SRAM, Tier D, map memory and object content are of it): a write keeps the canonical form, the bytes
read back, and every other address reads as before. -/
def Obligations.MemoryWritesCanonical : Prop :=
  ∀ (m : Mem) (a : Nat) (bs : List Byte), m.wf = true →
    (m.wrBytes a bs).wf = true ∧ (m.wrBytes a bs).rdBytes a bs.length = bs ∧
    ∀ x, (x < a ∨ a + bs.length ≤ x) → (m.wrBytes a bs).rd x = m.rd x

/-- The instruction words of Abasel: a legal, well-formed instruction is read back from its word 0 and word 1 with every
field as it was (R118, R119), so no two instructions share a word. -/
def Obligations.AbaselWordsRoundTrip : Prop :=
  ∀ (i : Instr) (ag : Agent) (w : IWord) (o : Op), opOf i = some (ag, w, o) → i.wf = true → w.legal o ag = true →
    decodeAbasel ag (w.word0 o) (word1Of w) w.fetch (hitOf i) = some i

/-! ## Abasel: when an instruction does not take effect -/

/-- The order of the checks of an issue (R103, R105, R120, R121, R125, R126, R423), for every Abasel instruction. An outcome that
waits under STRICT traps first; a word outside the text takes FETCH_RANGE, and a long form that ends beyond it takes it at its second
word; an uncorrectable error of the word takes FETCH_ECC; a word that breaks its encoding or its agent takes ILLEGAL_INSTR with word 0
in TVAL; an instruction without lanes whose predicate bit is 0 only passes. An agent whose island cannot stamp (R180, R188) stalls at what would
stamp: at a trap, and at an instruction with STAMP, of which the scalar operations are named here.
Choices of the model in it, by log entry: a command that cannot act yet changes nothing (9), nor does one whose cairn its island cannot take (98); an incomplete long form takes FETCH_RANGE (194). -/
def Obligations.IssueChecks : Prop :=
  ∀ (i : Instr) (ag : Agent) (w : IWord) (o : Op) (s : State), opOf i = some (ag, w, o) →
    (s.issues ag = false → exec i s = .next s) ∧
    (∀ code, s.issues ag = true → calm s = true → (s.regs ag).asyncRefused = some code →
      ∃ t, exec i s = .next t ∧ trapped ag 6 (code.setWidth 64) true s t ∧ (t.regs ag).asyncRefused = none) ∧
    (s.issues ag = true → calm s = true → (s.regs ag).asyncRefused = none → (s.textOf ag).length ≤ (s.regs ag).pc.toNat →
      ∃ t, exec i s = .next t ∧ trapped ag 2 (s.regs ag).pc false s t) ∧
    (s.issues ag = true → calm s = true → (s.regs ag).asyncRefused = none → (s.regs ag).pc.toNat + 1 = (s.textOf ag).length → w.isLong = true →
      ∃ t, exec i s = .next t ∧ trapped ag 2 ((s.regs ag).pc + 1) false s t) ∧
    (∀ addr, s.issues ag = true → calm s = true → (s.regs ag).asyncRefused = none →
      (s.regs ag).pc.toNat + (if w.isLong then 1 else 0) < (s.textOf ag).length → fetchHit ag w s = .uncorrectable addr →
      let word := if w.isLong = true ∧ addr.toNat / 8 = (s.regs ag).pc.toNat + 1 then (s.regs ag).pc + 1 else (s.regs ag).pc
      ∃ t, exec i s = .next t ∧ trapped ag 1 word false s t ∧ (t.eccKind 1).ue = satInc (s.eccKind 1).ue) ∧
    (fetches ag w s = true → w.legal o ag = false →
      (calm s = true → ∃ t, exec i s = .next t ∧ trapped ag 0 (w.word0 o) false s t) ∧
      (s.canStamp (s.srcOf ag) = false → exec i s = .next s)) ∧
    (fetches ag w s = true → w.legal o ag = true → o.lanes = false → ((s.regs ag).active w).getLsbD 0 = false →
      exec i s = .next (issued ag w (fetched ag w s))) ∧
    ((∃ row ∈ aluRows ++ immRows ++ countRows, i = row.make ag w) → fetches ag w s = true → w.legal o ag = true →
      ((s.regs ag).active w).getLsbD 0 = true → w.stamp = true → s.canStamp (s.srcOf ag) = false → exec i s = .next s)

/-! ## Abasel: scalar group -/

/-- The scalar operations of R141 write their result into sd, discard it for s0 (R106), and pass on; so do those of the predicate
group (R145) with pd and p0. Their frame, on every path: only the destination register, and on a trap the trap registers, of the issuing agent
change; every byte of memory and every other register stays. -/
def Obligations.ScalarAndPredicateResults : Prop :=
  (∀ row ∈ aluRows ++ immRows ++ countRows, ∀ (ag : Agent) (w : IWord) (s : State), ready (row.make ag w) s = true →
     let f := fetched ag w s
     exec (row.make ag w) s = .next (retired ag w s (f.updRegs ag (fun r => r.ws w.dst (row.value r w))))) ∧
  (∀ row ∈ predRows, ∀ (ag : Agent) (w : IWord) (s : State), ready (row.make ag w) s = true →
     let f := fetched ag w s
     exec (row.make ag w) s = .next (retired ag w s (f.updRegs ag (fun r => r.wp w.dst (row.value r w))))) ∧
  (∀ row ∈ aluRows ++ immRows ++ countRows ++ predRows, ∀ (ag : Agent) (w : IWord) (s t : State), exec (row.make ag w) s = .next t →
     (∀ n, n ≠ w.dst → (t.regs ag).rs n = (s.regs ag).rs n ∧ (t.regs ag).rp n = (s.regs ag).rp n) ∧
     (t.regs ag).status = (s.regs ag).status ∧ (t.regs ag).rs 0 = 0 ∧ (t.regs ag).rp 0 = BitVec.allOnes 64 ∧
     sameOthers ag s t ∧ sameSram s t ∧ sameVectors s t)

/-- The loads of R141: the bytes at sa + IMM, little-endian (R8), zero- or sign-extended into sd. The stores of R141: the
low bytes of sb at sa + IMM, and nothing else of any memory or register. Where a load or a store traps (R125, R141):
ACCESS beyond the last byte of SRAM, else MISALIGNED, with the address in TVAL; nothing is loaded or stored. -/
def Obligations.LoadsAndStores : Prop :=
  (∀ row ∈ loadRows, ∀ (tile : Fin 256) (c : Fin 4) (w : IWord) (m : EccHit) (s : State),
     let ag : Agent := .core tile c
     let f := fetched ag w s
     let a := addrOf ag w s
     ready (row.make ag w m) s = true → accessOk tile c a row.bytes f = true → sramGood tile a row.bytes m f = true →
     let x := leNat ((s.tile tile.val).sram.rdBytes a.toNat row.bytes)
     exec (row.make ag w m) s =
       .next (retired ag w s ((sramSeen tile a row.bytes m f).updRegs ag (fun r => r.ws w.dst (extended row.bytes row.signed x))))) ∧
  (∀ row ∈ storeRows, ∀ (tile : Fin 256) (c : Fin 4) (w : IWord) (m : EccHit) (s : State),
     let ag : Agent := .core tile c
     let f := fetched ag w s
     let a := addrOf ag w s
     let bs := leBytes row.bytes ((s.regs ag).rs w.srcB).toNat
     ready (row.make ag w m) s = true → accessOk tile c a row.bytes f = true →
     (row.bytes = 8 ∨ sramGood tile a row.bytes m f = true) →
     ∃ t, exec (row.make ag w m) s = .next t ∧
       (t.tile tile.val).sram.rdBytes a.toNat row.bytes = bs ∧
       (∀ n x : Nat, (n ≠ tile.val ∨ x < a.toNat ∨ a.toNat + row.bytes ≤ x) → (t.tile n).sram.rd x = (s.tile n).sram.rd x) ∧
       (t.regs ag) = (s.regs ag).setPc ((s.regs ag).pc + 1) ∧ sameOthers ag s t ∧ sameVectors s t) ∧
  (∀ row ∈ loadRows ++ storeRows, ∀ (tile : Fin 256) (c : Fin 4) (w : IWord) (m : EccHit) (s : State),
     let ag : Agent := .core tile c
     let a := addrOf ag w s
     ready (row.make ag w m) s = true →
     (2097152 < a.toNat + row.bytes → ∃ t, exec (row.make ag w m) s = .next t ∧ trapped ag 5 a false s t) ∧
     (a.toNat + row.bytes ≤ 2097152 → a.toNat % row.bytes ≠ 0 →
       ∃ t, exec (row.make ag w m) s = .next t ∧ trapped ag 4 a false s t))

/-- SRD and SWR over the special registers of a core (R107, R142): what each number reads; a read of CREC waits while a
matrix instruction of the core is queued (R110); a write to a read-only number is discarded; ACTL keeps bit 0, TCTL takes STRICT and keeps INH; a number that is not listed takes ILLEGAL_INSTR. -/
def Obligations.SpecialRegisters : Prop :=
  ∀ (tile : Fin 256) (c : Fin 4) (w : IWord) (s : State),
    let ag : Agent := .core tile c
    let f := fetched ag w s
    let n := w.imm.toNat
    let k := s.core tile.val c.val
    let v := k.r.rs w.srcA
    let read (t : State) (n : Nat) : Option W64 := t.readSpecial ag n
    (read s 0x000 = some k.actl ∧ read s 0x002 = some (k.crec.extractLsb' 0 64) ∧ read s 0x003 = some (k.crec.extractLsb' 64 64) ∧
      (∀ e, e < 4 → read s (4 + 2 * e) = some ((k.rext e).extractLsb' 0 64) ∧ read s (5 + 2 * e) = some ((k.rext e).extractLsb' 64 64)) ∧
      read s 0x00C = some (k.srstate.extractLsb' 0 64) ∧ read s 0x00D = some (k.srstate.extractLsb' 64 64) ∧
      read s 0x010 = some k.r.status ∧ read s 0x011 = some k.r.tctl ∧ read s 0x012 = some k.r.tcause ∧
      read s 0x013 = some k.r.tpc ∧ read s 0x014 = some k.r.tval ∧ read s 0x022 = some (BitVec.ofNat 64 c.val) ∧
      read s 0x023 = some (BitVec.ofNat 64 tile.val) ∧ read s 0x024 = some (s.ownPos.setWidth 64) ∧
      read s 0x001 = none ∧ read s 0x00E = none ∧ read s 0x00F = none ∧ read s 0x015 = none ∧ read s 0x027 = none) ∧
    (ready (.srd ag w) s = true → ∀ x, read s n = some x → (n = 0x002 ∨ n = 0x003) → s.crecPending ag = true →
      exec (.srd ag w) s = .next (f.awaits ag [16])) ∧
    (ready (.srd ag w) s = true → ∀ x, read s n = some x → ¬ ((n = 0x002 ∨ n = 0x003) ∧ s.crecPending ag = true) →
      exec (.srd ag w) s = .next (retired ag w s (f.updRegs ag (fun r => r.ws w.dst x)))) ∧
    (ready (.srd ag w) s = true → read s n = none →
      ∃ t, exec (.srd ag w) s = .next t ∧ trapped ag 0 (w.word0 opSrd) false s t) ∧
    (ready (.swr ag w) s = true → (read s n).isSome = true →
      ∃ t u, exec (.swr ag w) s = .next t ∧ t = retired ag w s u ∧ sameSram s t ∧ sameOthers ag s t ∧
        read u n = (if n = 0x000 then some (v &&& 1) else if n = 0x011 then some ((k.r.tctl &&& 2) ||| (v &&& 1))
          else if 0x004 ≤ n ∧ n ≤ 0x00D ∨ n = 0x010 ∨ n = 0x013 then some v else read s n) ∧
        (∀ x, x ≠ n → read u x = read s x)) ∧
    (ready (.swr ag w) s = true → read s n = none →
      ∃ t, exec (.swr ag w) s = .next t ∧ trapped ag 0 (w.word0 opSwr) false s t)

/-! ## Abasel: branch and control -/

/-- NOP, J, JR, JAL and TRET (R127, R143): where the program counter goes; a JR whose register has bits above 12:0 takes FETCH_RANGE; JAL saves the
index of the next word; TRET clears INH and resumes at TPC, and takes ILLEGAL_INSTR while INH is 0. END (R144, R264): a core with nothing
outstanding has ended; when it is the last of its program and none has failed, the counter block is final and result writing starts, but for a RUN
that goes on as the consolidation of an index (R321), and a job that must stop ends at the next saddle; a core with work outstanding waits; a
context returns to the free pool, and what its walk waited for goes on.
Choices of the model in it, by log entry: a JR beyond the store traps itself, with the whole register as TVAL (64); the targets of TRET and what follows the last word of the store (179). -/
def Obligations.ControlFlow : Prop :=
  (∀ (ag : Agent) (w : IWord) (s : State),
     let f := fetched ag w s
     let r := s.regs ag
     let off : W64 := BitVec.ofInt 64 w.imm.toInt
     (ready (.nop ag w) s = true → exec (.nop ag w) s = .next (retired ag w s f)) ∧
     (ready (.j ag w) s = true → exec (.j ag w) s = .next (doneAt ag w r.pc (r.pc + off) f)) ∧
     (ready (.jr ag w) s = true → (r.rs w.srcA).toNat < 8192 → exec (.jr ag w) s = .next (doneAt ag w r.pc (r.rs w.srcA) f)) ∧
     (ready (.jr ag w) s = true → 8192 ≤ (r.rs w.srcA).toNat →
       ∃ t, exec (.jr ag w) s = .next t ∧ trapped ag 2 (r.rs w.srcA) false s t) ∧
     (ready (.jal ag w) s = true →
       exec (.jal ag w) s = .next (doneAt ag w r.pc (r.pc + off) (f.updRegs ag (fun r => r.ws w.dst (r.pc + 1))))) ∧
     (ready (.tret ag w) s = true → r.inh = true →
       exec (.tret ag w) s = .next (doneAt ag w r.pc r.tpc (f.updRegs ag Regs.trapReturn))) ∧
     (ready (.tret ag w) s = true → r.inh = false →
       ∃ t, exec (.tret ag w) s = .next t ∧ trapped ag 0 (w.word0 opTret) false s t)) ∧
  (∀ (w : IWord) (s : State),
     (∀ (tile : Fin 256) (c : Fin 4), let ag : Agent := .core tile c
       ready (.endProg ag w) s = true →
       (s.outstanding tile.val c.val = true → exec (.endProg ag w) s = .next (fetched ag w s)) ∧
       (s.outstanding tile.val c.val = false →
         let e := ((fetched ag w s).updRegs ag (fun r => { r with run := .ended })).stampIf w.stamp ag (s.regs ag).pc
         ((s.regs ag).job = none → exec (.endProg ag w) s = .next e) ∧
         (∀ n j, (s.regs ag).job = some n → e.job? n = some j → e.coresDone j ≠ (true, false) → exec (.endProg ag w) s = .next e) ∧
         (∀ n j, (s.regs ag).job = some n → e.job? n = some j → e.coresDone j = (true, false) → j.stop.isSome = true →
           exec (.endProg ag w) s = .next e) ∧
         (∀ n j, (s.regs ag).job = some n → e.job? n = some j → e.coresDone j = (true, false) → j.stop = none →
           ∃ t j', exec (.endProg ag w) s = .next t ∧ t.job? n = some j' ∧ j'.phase = (if j.recode = 0 then .writing else j.phase) ∧
             j'.counted = true ∧ ∀ x ∈ j.tiles, t.coresOf x n = []))) ∧
     (∀ (e : Fin 16) (k : Fin 512), let ag : Agent := .ctx e k
       ready (.endProg ag w) s = true →
       ∃ t, (t.regs ag).run = .idle ∧ (t.regs ag).job = none ∧ sameOthers ag s t ∧
         ((s.regs ag).job = none → exec (.endProg ag w) s = .next t) ∧
         (∀ n, (s.regs ag).job = some n → exec (.endProg ag w) s = .next (t.advance e.val n))))

/-- FSET, FCLR, FWAIT and FWAITC (R116, R143) on flag IMM of the program's flags on the tile: with no FWAITC waiter a set flag stays
set; a wait on a set flag passes, FWAITC clearing it in the same action; a wait on a clear flag makes the core wait. BAR (R116, R143): a mask that
names a core outside the program is refused with INVALID_OPERAND; a mask of 0 passes; the last core of the mask to arrive releases every core that
waits with the same mask; any other core waits. -/
def Obligations.EventFlagsAndBarriers : Prop :=
  (∀ (tile : Fin 256) (c : Fin 4) (w : IWord) (s : State),
     let ag : Agent := .core tile c
     let f := fetched ag w s
     let n : BitVec 4 := w.imm.setWidth 4
     let j := (s.regs ag).job.getD 0
     let old := s.flags tile j
     (ready (.fset ag w) s = true → s.flagWaiters tile j n true = [] →
       ∃ t, exec (.fset ag w) s = .next t ∧ t.flags tile j = old ||| (1#16 <<< n.toNat) ∧ (t.regs ag).pc = (s.regs ag).pc + 1) ∧
     (ready (.fset ag w) s = true → s.flagWaiters tile j n true ≠ [] →
       ∃ t, exec (.fset ag w) s = .next t ∧ t.flags tile j = old &&& ~~~ (1#16 <<< n.toNat)) ∧
     (ready (.fclr ag w) s = true →
       exec (.fclr ag w) s = .next (retired ag w s (f.setFlags tile j (old &&& ~~~ (1#16 <<< n.toNat))))) ∧
     (ready (.fwait ag w) s = true → old.getLsbD n.toNat = true → exec (.fwait ag w) s = .next (retired ag w s f)) ∧
     (ready (.fwait ag w) s = true → old.getLsbD n.toNat = false →
       exec (.fwait ag w) s = .next (f.updRegs ag (fun r => { r with run := .waiting (.flag n false) w.stamp }))) ∧
     (ready (.fwaitc ag w) s = true → old.getLsbD n.toNat = true →
       exec (.fwaitc ag w) s = .next (retired ag w s (f.setFlags tile j (old &&& ~~~ (1#16 <<< n.toNat))))) ∧
     (ready (.fwaitc ag w) s = true → old.getLsbD n.toNat = false →
       exec (.fwaitc ag w) s = .next (f.updRegs ag (fun r => { r with run := .waiting (.flag n true) w.stamp })))) ∧
  (∀ (tile : Fin 256) (c : Fin 4) (w : IWord) (s : State),
     let ag : Agent := .core tile c
     let f := fetched ag w s
     let mask : BitVec 4 := w.imm.setWidth 4
     let job := (s.regs ag).job
     let inside := ∀ x : Fin 4, mask.getLsbD x.val = true → (s.regs (.core tile x)).job = job
     ready (.bar ag w) s = true →
     (¬ inside → exec (.bar ag w) s = .next (f.refused ag w stInvalidOperand)) ∧
     (mask = 0 → exec (.bar ag w) s = .next (retired ag w s (lastOk ag f))) ∧
     (inside → mask ≠ 0 → (∀ x : Fin 4, mask.getLsbD x.val = true → x = c ∨ x ∈ s.atBarrier tile job mask) →
       exec (.bar ag w) s = .next (retired ag w s (lastOk ag (f.wakeAll tile (s.atBarrier tile job mask))))) ∧
     (inside → (∃ x : Fin 4, mask.getLsbD x.val = true ∧ x ≠ c ∧ x ∉ s.atBarrier tile job mask) →
       exec (.bar ag w) s = .next ((lastOk ag f).updRegs ag (fun r => { r with run := .waiting (.barrier mask) w.stamp }))))

/-- BRK, TRAP and the waiting REFUSED trap (R125 to R130): the trap is taken, with the immediate or the outcome in TVAL. -/
def Obligations.TrapsTaken : Prop :=
  ∀ (ag : Agent) (w : IWord) (s : State),
    (ready (.brk ag w) s = true → ∃ t, exec (.brk ag w) s = .next t ∧ trapped ag 7 (w.imm.setWidth 64) false s t) ∧
    (ready (.trap ag w) s = true → ∃ t, exec (.trap ag w) s = .next t ∧ trapped ag 9 (w.imm.setWidth 64) false s t) ∧
    (∀ code, s.issues ag = true → calm s = true → (s.regs ag).asyncRefused = some code →
      ∃ t, exec (.asyncRefusedTrap ag) s = .next t ∧ trapped ag 6 (code.setWidth 64) true s t ∧ (t.regs ag).asyncRefused = none)

/-! ## Abasel: vector and convert groups -/

/-- The lane-wise operations (R121, R146, R148): each active lane of vd takes its result, inactive lanes and every other register keep
their values, and the events of the active lanes count into the program's counter block.
Choices of the model in it, by log entry: VABS, VNEG and VMOV of a NaN, and their counts (10). -/
def Obligations.LaneResults : Prop :=
  ∀ row ∈ fpLaneRows ++ intLaneRows, ∀ (tile : Fin 256) (c : Fin 4) (w : IWord) (s : State),
    let ag : Agent := .core tile c
    let k := s.core tile.val c.val
    let act := k.r.active w
    ready (row.make ag w) s = true →
    ∃ t, exec (row.make ag w) s = .next t ∧
      (∀ l, l < 64 → (t.core tile.val c.val).rv w.dst l = if act.getLsbD l then (row.value k w l).1 else k.rv w.dst l) ∧
      (∀ n l, n ≠ w.dst → l < 64 → (t.core tile.val c.val).rv n l = k.rv n l) ∧
      (t.core tile.val c.val).r = k.r.setPc (k.r.pc + 1) ∧ (t.core tile.val c.val).crec = k.crec ∧
      counted k.r.job (countEvs ((activeLanes act).map (fun l => (row.value k w l).2))) s t ∧
      sameOthers ag s t ∧ sameSram s t

/-- VLD, VST, VACC.RD, VACC.WR, VGET and VPUT (R93, R146). -/
def Obligations.VectorMoves : Prop :=
  ∀ (tile : Fin 256) (c : Fin 4) (w : IWord) (m : EccHit) (s : State),
    let ag : Agent := .core tile c
    let k := s.core tile.val c.val
    let f := fetched ag w s
    let a := addrOf ag w s
    let act := k.r.active w
    let part := 64 * (w.imm.toNat % 4)
    let after (t : State) : Core := t.core tile.val c.val
    (ready (.vld ag w m) s = true → accessOk tile c a 256 f = true → sramGood tile a 256 m f = true →
      ∃ t, exec (.vld ag w m) s = .next t ∧
        (∀ l, l < 64 → (after t).rv w.dst l = if act.getLsbD l then BitVec.ofNat 32 (s.sramNat tile.val (a.toNat + 4 * l) 4) else k.rv w.dst l) ∧
        (∀ n l, n ≠ w.dst → l < 64 → (after t).rv n l = k.rv n l) ∧ sameSram s t) ∧
    (ready (.vst ag w m) s = true → accessOk tile c a 256 f = true → sramGood tile a 256 m f = true →
      ∃ t, exec (.vst ag w m) s = .next t ∧
        (∀ l, l < 64 → act.getLsbD l = true → t.sramNat tile.val (a.toNat + 4 * l) 4 = (k.rv w.srcB l).toNat) ∧
        (∀ x, (∀ l, l < 64 → act.getLsbD l = true → x < a.toNat + 4 * l ∨ a.toNat + 4 * l + 4 ≤ x) →
          (t.tile tile.val).sram.rd x = (s.tile tile.val).sram.rd x) ∧
        (∀ n, n ≠ tile.val → (t.tile n).sram = (s.tile n).sram) ∧ (after t).v = k.v) ∧
    (ready (.vaccRd ag w .clean) s = true → k.busy.contains w.srcA.toNat = false →
      ∃ t, exec (.vaccRd ag w .clean) s = .next t ∧ (∀ l, l < 64 → (after t).rv w.dst l = k.racc w.srcA.toNat (part + l)) ∧
        (after t).acc = k.acc ∧ sameSram s t) ∧
    (ready (.vaccRd ag w m) s = true → k.busy.contains w.srcA.toNat = true → exec (.vaccRd ag w m) s = .next (f.awaits ag [16])) ∧
    (ready (.vaccWr ag w .clean) s = true → k.busy.contains w.dst.toNat = false →
      ∃ t, exec (.vaccWr ag w .clean) s = .next t ∧ (∀ l, l < 64 → (after t).racc w.dst.toNat (part + l) = k.rv w.srcA l) ∧
        (after t).v = k.v ∧ sameSram s t) ∧
    (ready (.vaccWr ag w m) s = true → k.busy.contains w.dst.toNat = true → exec (.vaccWr ag w m) s = .next (f.awaits ag [16])) ∧
    (ready (.vget ag w) s = true →
      exec (.vget ag w) s = .next (retired ag w s (f.updRegs ag (fun r => r.ws w.dst ((k.rv w.srcA w.imm.toNat).setWidth 64))))) ∧
    (ready (.vput ag w) s = true →
      ∃ t, exec (.vput ag w) s = .next t ∧
        (∀ n l, l < 64 → (after t).rv n l = if n = w.dst ∧ l = w.imm.toNat then (k.r.rs w.srcA).setWidth 32 else k.rv n l) ∧ sameSram s t)

/-- Compares and reductions (R121, R146, R147): active lanes give their bits of pd, inactive lanes keep theirs; the sum, the maximum
and the minimum over the active lanes in ascending order go to sd, with the empty maximum −infinity and the empty minimum +infinity. -/
def Obligations.LaneComparesAndReductions : Prop :=
  ∀ (tile : Fin 256) (c : Fin 4) (w : IWord) (s : State),
    let ag : Agent := .core tile c
    let k := s.core tile.val c.val
    let f := fetched ag w s
    let act := k.r.active w
    let xs := (activeLanes act).map (fun l => k.rv w.srcA l)
    let sum (x : W32 × Ev) : State := (f.updRegs ag (fun r => r.ws w.dst (x.1.setWidth 64))).count k.r.job (countEvs [x.2])
    (∀ row ∈ [((fun a w => Instr.vcmpEq a w), fEq), ((fun a w => Instr.vcmpLt a w), fLt), ((fun a w => Instr.vcmpLe a w), fLe)],
      ready (row.1 ag w) s = true → w.dst ≠ 0 →
      ∃ t, exec (row.1 ag w) s = .next t ∧
        (∀ l, l < 64 → ((t.regs ag).rp w.dst).getLsbD l =
          if act.getLsbD l then row.2 (k.rv w.srcA l) (k.rv w.srcB l) else (k.r.rp w.dst).getLsbD l) ∧
        (t.regs ag).s = k.r.s ∧ (∀ n, n ≠ w.dst → (t.regs ag).rp n = k.r.rp n) ∧ sameVectors s t ∧ sameSram s t) ∧
    (ready (.vredSum ag w) s = true →
      exec (.vredSum ag w) s = .next (retired ag w s (sum (redSum k.ftz xs)))) ∧
    (redSum k.ftz [] = (0, .none) ∧ ∀ ys, redSum false ys = (treeSum ys, (redSum false ys).2)) ∧
    (ready (.vredMax ag w) s = true → exec (.vredMax ag w) s = .next (retired ag w s (sum (match xs with
      | [] => (0xFF800000, .none)
      | x :: rest => plainOut k.ftz (rest.foldl fMax (fMax x x)))))) ∧
    (ready (.vredMin ag w) s = true → exec (.vredMin ag w) s = .next (retired ag w s (sum (match xs with
      | [] => (0x7F800000, .none)
      | x :: rest => plainOut k.ftz (rest.foldl fMin (fMin x x))))))

/-- The narrowing and widening converts (R41 to R50, R71 to R73, R149 to R151) of CNT elements, CNT at most 64: destination lanes,
counter record, extreme register and SR counter; a larger CNT is refused with INVALID_OPERAND; while a matrix instruction of the core is
queued, which still has to write the counter record, the convert waits (R110). -/
def Obligations.Converts : Prop :=
  ∀ (tile : Fin 256) (c : Fin 4) (w : IWord) (s : State),
    let ag : Agent := .core tile c
    let k := s.core tile.val c.val
    let n := w.imm.toNat % 128
    let f := fetched ag w s
    (∀ row ∈ narrowRows, ready (row.make ag w) s = true → n ≤ 64 → s.crecPending ag = false →
      let xs := (List.range n).map (fun l => k.rv w.srcA l)
      let r := row.pack k xs (k.r.rs w.srcB) (cvtDraws k (w.imm.getLsbD 8) n)
      ∃ t, exec (row.make ag w) s = .next t ∧ converted w r.1 xs r.2 k (t.core tile.val c.val) ∧
        counted k.r.job r.2.stop20 s t ∧ sameOthers ag s t ∧ sameSram s t) ∧
    (∀ row ∈ widenRows, ready (row.make ag w) s = true → n ≤ 64 → s.crecPending ag = false →
      let r := row.open_ k (packLanes (lanes64.map (fun l => k.rv w.srcA l))) (k.r.rs w.srcB) n
      ∃ t, exec (row.make ag w) s = .next t ∧ converted w (packLanes r.1) r.1 r.2 k (t.core tile.val c.val) ∧
        counted k.r.job r.2.stop20 s t ∧ sameOthers ag s t ∧ sameSram s t) ∧
    (∀ i ∈ narrowRows.map (fun r => r.make ag w) ++ widenRows.map (fun r => r.make ag w), ready i s = true →
      (64 < n → exec i s = .next (f.refused ag w stInvalidOperand)) ∧
      (n ≤ 64 → s.crecPending ag = true → exec i s = .next (f.awaits ag [16])))

namespace Sys2Proof.Claims
open Machine

/-- A media primitive (R162, R163): the bytes of SRAM that it reaches, the pages it refuses, its request from extent, block,
page and address, and whether it completes at once. -/
structure MediaRow where
  make : Agent → IWord → Instr
  bytes : IWord → Nat
  pageOk : IWord → Nat → Bool
  kind : IWord → W32 → Nat → Nat → Nat → RecKind
  atOnce : IWord → Bool

/-- The media primitives (R163). -/
def mediaRows : List MediaRow :=
  [⟨.fread, fun w => 2048 * (w.imm.toNat % 64), fun w _ => decide (w.imm.toNat / 64 % 32 + w.imm.toNat % 64 ≤ 32),
      fun w e b p a => .fread e b p (w.imm.toNat / 64 % 32) (w.imm.toNat % 64) a, fun w => decide (w.imm.toNat % 64 = 0)⟩,
   ⟨.fprog, fun _ => 65536, fun _ _ => true, fun _ e b p a => .fprog e b p a, fun _ => false⟩,
   ⟨.ferase, fun _ => 0, fun _ p => decide (p = 0), fun _ e b _ _ => .ferase e b, fun _ => false⟩,
   ⟨.fsync, fun _ => 0, fun _ _ => true, fun _ e b _ _ => .fsync e b, fun _ => false⟩,
   ⟨.fstat, fun _ => 0, fun _ _ => true, fun _ e b _ _ => .fstat e b, fun _ => false⟩]

/-- A main matrix instruction (R152): the operand pair that its word names. -/
def mmaRows : List ((Agent → IWord → Instr) × (IWord → Pair)) :=
  [(.mmaQ4a, fun w => if w.imm.toNat % 4 = 0 then .q4aq4a else if w.imm.toNat % 4 = 1 then .q2aq4a else .ternq4a),
   (.mmaQ2a, fun _ => .q2a), (.mmaTern, fun _ => .tern), (.mmaMxfp4, fun _ => .mxfp4)]

/-- The job and the walk of a context (R168). -/
def onJob (e : Fin 16) (k : Fin 512) (s : State) (n : Nat) (wk : Walk) : Prop :=
  (s.regs (.ctx e k)).job = some n ∧ s.walk? e.val n = some wk

end Sys2Proof.Claims

open Sys2Proof Sys2Proof.Machine Sys2Proof.Claims

/-! ## Abasel: matrix group -/

/-- The main matrix instructions (R112, R135, R152 to R156), whatever split and spur they name: placed at the tail of the tile's array
queue of at most 16 with the operands read at issue, refused, or waiting for the queue; the armed spur is used up. Without a split and a spur,
a record that is aligned and inside SRAM, at least one row and one column, a form that the shape allows, panels inside the bank rows and room in
the queue let it be placed. MMA.SPUR (R155): a record inside SRAM is armed, replacing any other; s0 disarms; a record beyond SRAM is refused.
Choices of the model in it, by log entry: where the spur record is read and checked (62); CREC after MMA.SPUR (156). -/
def Obligations.MatrixIssue : Prop :=
  (∀ row ∈ mmaRows, ∀ (tile : Fin 256) (c : Fin 4) (w : IWord) (s : State),
     let ag : Agent := .core tile c
     let f := fetched ag w s
     let k := s.core tile.val c.val
     let q := (s.tile tile.val).queue
     let a := (k.r.rs w.srcA).toNat
     ready (row.1 ag w) s = true →
     ((a % 64 ≠ 0 ∨ 2097152 < a + 64) → exec (row.1 ag w) s = .next (f.refused ag w stInvalidOperand)) ∧
     (match mmaAct (row.2 w) ag w f with
      | .async u => exec (row.1 ag w) s = .next (issued ag w (lastOk ag u)) ∧ q.length < 16 ∧ (u.core tile.val c.val).spur = none ∧
         sameSram s u ∧ ∃ e : QEntry, (u.tile tile.val).queue = q ++ [e] ∧ e.started = false ∧ e.core = c.val ∧ e.word = k.r.pc.toNat ∧
           e.stamp = w.stamp ∧ e.pair = row.2 w ∧ e.bank = w.dst.toNat ∧ e.ftz = k.ftz ∧ e.accumulate = w.imm.getLsbD 6 ∧
           e.dfmt = w.imm.toNat / 16 % 4 ∧ e.red = decide (w.imm.toNat / 128 % 4 = 3)
      | .refuse x => exec (row.1 ag w) s = .next (f.refused ag w x) ∧ (x = stInvalidOperand ∨ x = stSpurMapInvalid)
      | .await u ds => exec (row.1 ag w) s = .next (u.awaits ag ds) ∧ sameSram s u
      | _ => False)) ∧
  (∀ row ∈ mmaRows, ∀ (tile : Fin 256) (c : Fin 4) (w : IWord) (s : State) (pn : Panels) (m n kk : Nat) (form : AForm),
     let ag : Agent := .core tile c
     let f := fetched ag w s
     let k := s.core tile.val c.val
     let a := (k.r.rs w.srcA).toNat
     ready (row.1 ag w) s = true → w.imm.toNat / 128 % 4 = 0 → k.spur = none → a % 64 = 0 → a + 64 ≤ 2097152 →
     f.eccOf 0 (f.physOf tile.val) a 64 .clean = .clean → operandRecord (s.tile tile.val).sram a = some (pn, m, n, kk) → 1 ≤ m → 1 ≤ n →
     shareForm (w.imm.toNat / 4 % 4) false w.dst.toNat m n = some form →
     (w.imm.getLsbD 6 = true → w.imm.toNat / 16 % 4 = 0) →
     (∀ p ∈ panelList (row.2 w) pn none m n kk, panelFits p.1 p.2.1 p.2.2 = true ∧
       f.streamMeets tile.val c.val (1024 * p.1) (1024 * panelSpan p.2.1 p.2.2) false = false) →
     (s.tile tile.val).queue.length < 16 →
     ∃ t e, exec (row.1 ag w) s = .next t ∧ (t.tile tile.val).queue = (s.tile tile.val).queue ++ [e] ∧
       e.m = m ∧ e.n = n ∧ e.k = kk ∧ e.form = form ∧ e.panels = pn ∧ e.spur = none ∧ e.pair = row.2 w ∧
       (t.core tile.val c.val).busy = k.busy ++ banksOf form w.dst.toNat m ∧
       (t.regs ag).pc = k.r.pc + 1 ∧ (t.regs ag).status = lastStatus k.r.status stOk ∧ sameSram s t) ∧
  (∀ (tile : Fin 256) (c : Fin 4) (w : IWord) (s : State),
     let ag : Agent := .core tile c
     let f := fetched ag w s
     let k := s.core tile.val c.val
     let a := (k.r.rs w.srcA).toNat
     let armed (x : Option Nat) : State := f.setCore tile.val c.val { f.core tile.val c.val with spur := x }
     ready (.mmaSpur ag w) s = true →
     (w.srcA = 0 → exec (.mmaSpur ag w) s = .next (retired ag w s (lastOk ag (armed none)))) ∧
     (w.srcA ≠ 0 → a + 32 ≤ 2097152 → exec (.mmaSpur ag w) s = .next (retired ag w s (lastOk ag (armed (some a))))) ∧
     (w.srcA ≠ 0 → 2097152 < a + 32 → exec (.mmaSpur ag w) s = .next (f.refused ag w stInvalidOperand)))

/-- The array takes the oldest queued instruction (R79, R87, R98, R102): its values are formed, the form re-cut when it differs, and the
products counted; an uncorrectable error of a panel halts the tile before it is used (R423).
Choices of the model in it, by log entry: the array takes the head of its queue alone (63); what AMAC counts of pad elements (157); FORM, REFORMS and SPUR at K = 0 (158). -/
def Obligations.ArrayStarts : Prop :=
  ∀ (tile : Fin 256) (m : EccHit) (s : State) (e : QEntry) (q : List QEntry),
    let x := s.tile tile.val
    x.halted = none → x.queue = e :: q → e.started = false →
    (s.panelsEcc (s.physOf tile.val) e m = .clean →
      ∃ t, exec (.arrayInstructionStart tile m) s = .next t ∧
        (∃ e', (t.tile tile.val).queue = e' :: q ∧ e'.started = true ∧ e'.outs = entryOuts x.sram (s.core tile.val e.core) e ∧ e'.bank = e.bank) ∧
        (t.tile tile.val).form = (if e.k = 0 then x.form else e.form) ∧
        (t.tile tile.val).reforms = (if x.form ≠ e.form ∧ e.k ≠ 0 then satInc x.reforms else x.reforms) ∧
        (t.tile tile.val).spurOn = e.spur.isSome ∧
        (t.tile tile.val).amac = x.amac + BitVec.ofNat 64 (macsOf e) ∧ (t.tile tile.val).cores = x.cores ∧ sameSram s t) ∧
    (∀ addr, s.panelsEcc (s.physOf tile.val) e m = .uncorrectable addr →
      ∃ t, exec (.arrayInstructionStart tile m) s = .next t ∧ (t.tile tile.val).halted = some (some addr.toNat) ∧
        (t.tile tile.val).queue = x.queue ∧ (t.eccKind 0).ue = satInc (s.eccKind 0).ue)

/-- A matrix instruction with K = 0 writes no output and leaves the accumulator unchanged, whether or not it accumulates, and its counter
record is all zeros (R63), split or not. Otherwise the last output of the oldest started instruction without RED is written (R47, R64, R92,
R93, R131): its elements in the bank's order, its counter record, its banks free, its queue entry gone; every other element and
vector register stays. -/
def Obligations.MatrixOutputs : Prop :=
  (∀ (tile : Fin 256) (m : EccHit) (s : State) (e : QEntry) (q : List QEntry),
     calm s = true → (s.tile tile.val).halted = none → (s.tile tile.val).queue = e :: q → e.started = false → e.k = 0 → e.core < 4 →
     (e.red = true → e.taking = 0 ∧ (s.job? e.job).isSome = true) →
     ∃ t u, exec (.arrayInstructionStart tile m) s = .next t ∧ exec (.matrixOutputWritten tile) t = .next u ∧
       (u.core tile.val e.core).acc = (s.core tile.val e.core).acc ∧ (u.core tile.val e.core).crec = 0 ∧ sameSram s u) ∧
  (∀ (tile : Fin 256) (s : State) (e : QEntry) (q : List QEntry),
     let slot (o : Nat × W32 × Bool) : Nat × Nat := outSlot e.form e.bank (o.1 / 256) (o.1 % 256)
     let k := s.core tile.val e.core
     calm s = true → (s.tile tile.val).queue = e :: q → e.started = true → e.red = false → e.core < 4 →
     e.outs.Pairwise (fun a b => slot a ≠ slot b) → (∀ o ∈ e.outs, (slot o).2 < 256) →
     ∃ t, exec (.matrixOutputWritten tile) s = .next t ∧ (t.tile tile.val).queue = q ∧
       (∀ o ∈ e.outs, (t.core tile.val e.core).racc (slot o).1 (slot o).2 = (outputOf e.dfmt e.ftz o.2.1 o.2.2).1) ∧
       (∀ b x, x < 256 → (∀ o ∈ e.outs, slot o ≠ (b, x)) → (t.core tile.val e.core).racc b x = k.racc b x) ∧
       (t.core tile.val e.core).crec = crecOf ((countEvs (e.outs.map (fun o => (outputOf e.dfmt e.ftz o.2.1 o.2.2).2))).bump .inv e.inv) ∧
       (t.core tile.val e.core).busy = freeBanks k.busy (if e.m = 0 ∨ e.n = 0 then [] else banksOf e.form e.bank e.m) ∧
       (t.core tile.val e.core).v = k.v ∧ (t.core tile.val e.core).r = k.r ∧ sameSram s t)

/-! ## Abasel: stream group -/

/-- DSC.WR, DSC.RD, DSC.CLR and STRM.WAIT (R157): a field that exists and may be written takes the value, and no other field changes;
STATUS, BUSY, fields that do not exist and values wider than the field are refused; a busy descriptor is waited for. STRM.GO (R115, R158): a descriptor that passes its checks starts its transfer and is busy; one of no bytes completes at once with
STATUS OK; one that fails them is refused with their outcome; a busy one is waited for. A transfer from tile SRAM to tile SRAM in the linear
layout completes: its bytes stand at the destination and nothing else of any SRAM changes, STATUS is OK, BUSY is clear, and it is no longer in
flight.
Choices of the model in it, by log entry: how a linear transfer with a SPLIT is divided (152); the checks of R158 come before LEN 0 (193). -/
def Obligations.DescriptorsAndStreams : Prop :=
  (∀ (tile : Fin 256) (c : Fin 4) (w : IWord) (s : State),
     let ag : Agent := .core tile c
     let f := fetched ag w s
     let k := s.core tile.val c.val
     let n := w.imm.toNat
     let v := (k.r.rs w.srcA).toNat
     (ready (.dscWr ag w) s = true →
       (∀ lo width, dscField n = some (lo, width) → n < 12 → v < 2 ^ width → dBusy (k.rd w.dst) = false →
         ∃ t, exec (.dscWr ag w) s = .next t ∧
           getField ((t.core tile.val c.val).rd w.dst) lo width = v ∧
           (∀ m lo' w', m ≠ n → dscField m = some (lo', w') → getField ((t.core tile.val c.val).rd w.dst) lo' w' = getField (k.rd w.dst) lo' w') ∧
           (∀ d, d ≠ w.dst → (t.core tile.val c.val).rd d = k.rd d) ∧ (t.regs ag).pc = k.r.pc + 1 ∧ sameSram s t) ∧
       ((12 ≤ n ∨ ∃ lo width, dscField n = some (lo, width) ∧ 2 ^ width ≤ v) →
         exec (.dscWr ag w) s = .next (f.refused ag w stInvalidOperand)) ∧
       (∀ lo width, dscField n = some (lo, width) → n < 12 → v < 2 ^ width → dBusy (k.rd w.dst) = true →
         exec (.dscWr ag w) s = .next (f.awaits ag [w.dst.toNat]))) ∧
     (ready (.dscRd ag w) s = true →
       (∀ lo width, dscField n = some (lo, width) →
         exec (.dscRd ag w) s =
           .next (retired ag w s (lastOk ag (f.updRegs ag (fun r => r.ws w.dst (BitVec.ofNat 64 (getField (k.rd w.srcA) lo width))))))) ∧
       (14 ≤ n → exec (.dscRd ag w) s = .next (f.refused ag w stInvalidOperand))) ∧
     (ready (.dscClr ag w) s = true → dBusy (k.rd w.dst) = false →
       ∃ t, exec (.dscClr ag w) s = .next t ∧ (t.core tile.val c.val).rd w.dst = 0 ∧
         (∀ d, d ≠ w.dst → (t.core tile.val c.val).rd d = k.rd d) ∧ (t.regs ag).pc = k.r.pc + 1) ∧
     (ready (.strmWait ag w) s = true →
       (dBusy (k.rd w.srcA) = false → exec (.strmWait ag w) s = .next (retired ag w s f)) ∧
       (dBusy (k.rd w.srcA) = true →
         exec (.strmWait ag w) s = .next (f.updRegs ag (fun r => { r with run := .waiting (.stream w.srcA) w.stamp }))))) ∧
  (∀ (tile : Fin 256) (c : Fin 4) (w : IWord) (s : State),
     let ag : Agent := .core tile c
     let f := fetched ag w s
     let k := s.core tile.val c.val
     let d := k.rd w.srcA
     ready (.strmGo ag w) s = true →
     (dBusy d = true → exec (.strmGo ag w) s = .next (f.awaits ag [w.srcA.toNat])) ∧
     (∀ e, dBusy d = false → streamCheck f k.r.job tile.val d = .error e → exec (.strmGo ag w) s = .next (f.refused ag w e)) ∧
     (∀ src dst, dBusy d = false → streamCheck f k.r.job tile.val d = .ok (src, dst) → dLen d ≠ 0 →
       ∃ t x, exec (.strmGo ag w) s = .next t ∧ t.host.xfers = s.host.xfers ++ [x] ∧ x.tile = tile.val ∧ x.core = c.val ∧
         x.dsc = w.srcA.toNat ∧ x.word = k.r.pc.toNat ∧ x.stamp = w.stamp ∧ x.src = src ∧ x.dst = dst ∧ x.halted = none ∧ x.cut = false ∧
         dBusy ((t.core tile.val c.val).rd w.srcA) = true ∧ (t.regs ag).pc = k.r.pc + 1 ∧ sameSram s t) ∧
     (∀ src dst, dBusy d = false → streamCheck f k.r.job tile.val d = .ok (src, dst) → dLen d = 0 → dFlagEn d = false →
       ∃ t, exec (.strmGo ag w) s = .next t ∧ t.host.xfers = s.host.xfers ∧
         dBusy ((t.core tile.val c.val).rd w.srcA) = false ∧ dStatus ((t.core tile.val c.val).rd w.srcA) = stOk ∧ sameSram s t)) ∧
  (∀ (tile : Fin 256) (core : Fin 4) (dsc : Fin 16) (s : State) (x : Xfer),
     let d := (s.core tile.val core.val).rd (BitVec.ofNat 5 dsc.val)
     s.host.xfers.find? (fun x => x.tile == tile.val && x.core == core.val && x.dsc == dsc.val) = some x →
     x.cut = false → x.halted = none → (s.tile tile.val).halted = none → x.src = 0 → x.dst = 0 → dLayout d ≠ 1 →
     s.eccOf 0 (s.physOf tile.val) (dSrcOff d) (dLen d) .clean = .clean →
     let place := s.placeOf (some x.job) tile.val
     let bs := shareBytes d place.1 place.2 ((s.tile tile.val).sram.rdBytes (dSrcOff d) (dLen d))
     ∃ t, exec (.streamTransferComplete tile core dsc .good) s = .next t ∧
       (dSplit d = 0 → bs = (s.tile tile.val).sram.rdBytes (dSrcOff d) (dLen d)) ∧
       (t.tile tile.val).sram.rdBytes (dDstOff d) bs.length = bs ∧
       (∀ n y : Nat, (n ≠ tile.val ∨ y < dDstOff d ∨ dDstOff d + bs.length ≤ y) → (t.tile n).sram.rd y = (s.tile n).sram.rd y) ∧
       dBusy ((t.core tile.val core.val).rd (BitVec.ofNat 5 dsc.val)) = false ∧
       dStatus ((t.core tile.val core.val).rd (BitVec.ofNat 5 dsc.val)) = stOk ∧
       t.host.xfers = s.host.xfers.erase x)

/-! ## Abasel: instructions that complete through a record -/

/-- Object, staging, group, collective and media instructions at issue (R139, R140, R160, R162, R163, R170, R174): with a good record operand
and operands in range, one request joins the outstanding ones, with LAST OK, and the core goes on; object and media operands that break their layout are
refused with INVALID_OPERAND.
Choices of the model in it, by log entry: the operands without a meaning that are refused (159, 160, 197). -/
def Obligations.RecordsIssue : Prop :=
  ∀ (tile : Fin 256) (c : Fin 4) (w : IWord) (s : State),
    let ag : Agent := .core tile c
    let f := fetched ag w s
    let k := s.core tile.val c.val
    let sa := k.r.rs w.srcA
    let sb := k.r.rs w.srcB
    let asked (t : State) : State := issued ag w (lastOk ag t)
    (∀ row ∈ objectRows, ready (row.make ag w) s = true →
      (∀ rec x, hi32 sb = 0 → recOperand (lo32 sb) = some rec → row.kind w sa = some x →
        exec (row.make ag w) s = .next (asked (f.addRec tile c w rec x none))) ∧
      ((hi32 sb ≠ 0 ∨ recOperand (lo32 sb) = none ∨ row.kind w sa = none) →
        exec (row.make ag w) s = .next (f.refused ag w stInvalidOperand))) ∧
    (ready (.objSeal ag w) s = true → ∀ rec, hi32 sb = 0 → recOperand (lo32 sb) = some rec → (hi32 sa = 1 ∨ hi32 sa = 2) →
      ∃ u, exec (.objSeal ag w) s = .next (asked u) ∧
        u.host.recs = (f.addRec tile c w rec (.objSeal (lo32 sa) (hi32 sa).toNat (decide (w.imm = 1))) none).host.recs ∧
        (∀ h o, s.named? k.r.job (lo32 sa) = some (h, o) → o.state = 0 → (u.obj? h).map (fun o => o.sealing) = some true)) ∧
    (∀ row ∈ callRows, ready (row.make ag w) s = true → ∀ rec x, recOperand (hi32 sb) = some rec →
      row.kind f tile c sa (lo32 sb) (getD 0 k.calls row.counter) = some x →
      (row.atOnce (lo32 sb) = true → exec (row.make ag w) s = .next (asked (f.addRec tile c w rec x (some (stOk, 0))))) ∧
      (row.atOnce (lo32 sb) = false →
        exec (row.make ag w) s = .next (asked ((f.setCore tile.val c.val { f.core tile.val c.val with
          calls := if row.counter = 0 then k.calls else put row.counter (getD 0 k.calls row.counter + 1) k.calls }).addRec tile c w rec x none)))) ∧
    (∀ row ∈ mediaRows, ready (row.make ag w) s = true →
      let page := sa.toNat % 2048
      let limit := match s.extent? (hi32 sa) with
        | some e => blockUnits e.qlc
        | none => 2048
      let addr := (lo32 sb).toNat
      ∀ rec, recOperand (hi32 sb) = some rec →
      (addr % 1024 = 0 → (row.bytes w = 0 ∨ addr + row.bytes w ≤ 2097152) → page < limit → row.pageOk w page = true →
        let x := row.kind w (hi32 sa) (sa.toNat / 2048 % 2097152) page addr
        (row.atOnce w = true → exec (row.make ag w) s = .next (asked (f.addRec tile c w rec x (some (stOk, 0))))) ∧
        (row.atOnce w = false → exec (row.make ag w) s = .next (asked (f.addRec tile c w rec x none).serveMedia))) ∧
      ((addr % 1024 ≠ 0 ∨ limit ≤ page ∨ row.pageOk w page = false) →
        exec (row.make ag w) s = .next (f.refused ag w stInvalidOperand)))

/-- The completion of a record instruction (R122, R123, R131, R140): the record's 32 bytes hold DONE, the outcome, VALUE and the RECORD_DONE
cairn; nothing else of the tile's SRAM changes; a non-OK outcome counts in STATUS; the request is no longer outstanding. -/
def Obligations.RecordsComplete : Prop :=
  ∀ (tile : Fin 256) (core : Fin 4) (n : Nat) (answered : Byte) (s : State) (op : RecOp),
    let ag : Agent := .core tile core
    let src := s.srcTile tile.val
    (s.host.recs.filter (fun r => r.tile == tile.val && r.core == core.val))[n]? = some op →
    s.host.recs.Pairwise (fun a b => a.id ≠ b.id) → calm s = true →
    (∀ code v, op.outcome = some (code, v) →
      ∃ t, exec (.recordInstructionComplete tile core n answered) s = .next t ∧
        (t.tile tile.val).sram.rdBytes op.addr 32 = [1, 0] ++ leBytes 2 code.toNat ++ [0, 0, 0, 0] ++ leBytes 8 v.toNat ++
          leBytes 16 (Cairn.bits ⟨s.stampTime src, s.ownPos ++ src, (s.island src).seq, 0x32, s.jobDetail (some op.job)⟩).toNat ∧
        (∀ x, (x < op.addr ∨ op.addr + 32 ≤ x) → (t.tile tile.val).sram.rd x = (s.tile tile.val).sram.rd x) ∧
        (t.regs ag).status = (if code = 0 then (s.regs ag).status else noteStatus (s.regs ag).status code) ∧
        t.host.recs = s.host.recs.filter (fun r => r.id != op.id)) ∧
    (∀ code v u, op.outcome = none → op.kind.call = none → s.soloWork op = some (code, v, u) → u.host.recs = s.host.recs →
      exec (.recordInstructionComplete tile core n answered) s = .next ((u.setOutcome op.id code v).writeRecord tile core op code v)) ∧
    (∀ h, op.outcome = none → op.kind = .objInfo h → s.named? (some op.job) h = none →
      s.soloWork op = some (stObjectUnknown, 0, s)) ∧
    (∀ h r o, op.outcome = none → op.kind = .objInfo h → s.named? (some op.job) h = some (r, o) → s.soloWork op = some (stOk, objValue o, s))

/-! ## Abasel: time, step and traverse groups -/

/-- TIME.RD, TIME.CAIRN, STEP.END, STEP.INFO, STAGE.RD and, on a traversal context, STAGE.WR (R103, R173 to R176): drive time of the agent's
island, never below the agent's last reading; a program cairn of kinds 0x80 to 0xBF; the wait for the saddle; the step number, the period and the cycles
left; a setting's value, and the refusal of a number that names none (the model's reading of R122 and R124, log entry 147); a context's change is staged at
issue (the model's reading, log entry 71).
Choices of the model in it, by log entry: the key of STAGE.WR (72); when a STEP.END with STAMP is stamped (73). -/
def Obligations.TimeAndStep : Prop :=
  ∀ (ag : Agent) (w : IWord) (s : State),
    let f := fetched ag w s
    let r := s.regs ag
    let src := s.srcOf ag
    let v := r.rs w.srcA
    (ready (.timeRd ag w) s = true →
      ∃ t, exec (.timeRd ag w) s = .next t ∧ (t.regs ag).pc = r.pc + 1 ∧ (∀ n, n ≠ w.dst → (t.regs ag).rs n = r.rs n) ∧
        (w.dst ≠ 0 → match ag with
          | .ctx e c => ((t.regs ag).rs w.dst).toNat = Max.max (s.islandTime src).toNat (s.ctx e.val c.val).lastTime.toNat ∧
              (t.ctx e.val c.val).lastTime = (t.regs ag).rs w.dst
          | .core tile c => ((t.regs ag).rs w.dst).toNat = Max.max (s.islandTime src).toNat (s.core tile.val c.val).lastTime.toNat ∧
              (t.core tile.val c.val).lastTime = (t.regs ag).rs w.dst)) ∧
    (ready (.timeCairn ag w) s = true → 0x80 ≤ w.imm.toNat → w.imm.toNat ≤ 0xBF → v.toNat < 2 ^ 28 →
      exec (.timeCairn ag w) s = .next (retired ag w s (lastOk ag (f.stamp src (w.imm.setWidth 8) (v.setWidth 28))))) ∧
    (ready (.timeCairn ag w) s = true → (w.imm.toNat < 0x80 ∨ 0xBF < w.imm.toNat ∨ 2 ^ 28 ≤ v.toNat) →
      exec (.timeCairn ag w) s = .next (f.refused ag w stInvalidOperand)) ∧
    (ready (.stepEnd ag w) s = true →
      exec (.stepEnd ag w) s = .next (f.updRegs ag (fun r => { r with run := .waiting .stepEnd w.stamp }))) ∧
    (ready (.stepInfo ag w) s = true → w.imm = 0 →
      exec (.stepInfo ag w) s = .next (retired ag w s (lastOk ag (f.updRegs ag (fun r => r.ws w.dst s.set.step))))) ∧
    (ready (.stepInfo ag w) s = true → w.imm = 1 →
      exec (.stepInfo ag w) s = .next (retired ag w s (lastOk ag (f.updRegs ag (fun r => r.ws w.dst (s.liveOf 1)))))) ∧
    (ready (.stepInfo ag w) s = true → w.imm = 2 →
      let left := (if s.period = 0 then s.set.began.toNat + s.budget else (s.set.nextSaddle.getD 0).toNat) - s.time.now.toNat
      exec (.stepInfo ag w) s = .next (retired ag w s (lastOk ag (f.updRegs ag (fun r => r.ws w.dst (BitVec.ofNat 64 (match ag with
        | .core _ _ => left * 3 / 2
        | .ctx _ _ => left * 2))))))) ∧
    (∀ e k u v rec, ag = .ctx e k → ready (.stageWr ag w) s = true → hi32 (r.rs w.srcB) = 0 → recOperand (lo32 (r.rs w.srcB)) = some rec →
      f.stageChange (w.imm.toNat % 65536) (f.stageKey r.job (w.imm.toNat % 65536)) (r.rs w.srcA) [] = .ok (v, u) →
      exec (.stageWr ag w) s = .next (retired ag w s (lastOk ag u))) ∧
    (ready (.stepInfo ag w) s = true → 3 ≤ w.imm.toNat → exec (.stepInfo ag w) s = .next (f.refused ag w stInvalidOperand)) ∧
    (ready (.stageRd ag w) s = true →
      let num := w.imm.toNat % 65536
      (settingExists num = true → exec (.stageRd ag w) s =
        .next (retired ag w s (lastOk ag (f.updRegs ag (fun r => r.ws w.dst (s.readSetting num (s.stageKey r.job num) (w.imm.getLsbD 16))))))) ∧
      (settingExists num = false → exec (.stageRd ag w) s = .next (f.refused ag w stInvalidField)))

/-- TRV.NODE, TRV.DRD and TRV.TOMB (R168, R246, R254, R271): the request is made, LAST is OK, and the context waits for its data; a node
number past 40 bits and a line past its record are refused.
Choices of the model in it, by log entry: TRV.DRD beyond the records of its layer (198). -/
def Obligations.TraverseFetches : Prop :=
  ∀ (e : Fin 16) (k : Fin 512) (w : IWord) (s : State) (n : Nat) (wk : Walk) (d : IndexD),
    let ag : Agent := .ctx e k
    let f := fetched ag w s
    let a := (s.regs ag).rs w.srcA
    let waits (t : State) (fetch : Nat × W32 × Nat × Nat) (dest : Nat × Bool × Nat) : Prop :=
      (t.ctx e.val k.val).fetch = some fetch ∧ (t.ctx e.val k.val).dest = some dest ∧ (t.regs ag).run = .waiting .data w.stamp ∧
      (t.regs ag).pc = (s.regs ag).pc ∧ (t.regs ag).status = lastStatus (s.regs ag).status stOk ∧ sameOthers ag s t ∧ sameSram s t
    onJob e k s n wk → s.jobDesc n = some d →
    (∀ x, ready (.trvNode ag w .clean) s = true → a.toNat < 2 ^ 40 → d.slotOf a.toNat = some x →
      ∃ t, exec (.trvNode ag w .clean) s = .next t ∧
        waits t (0, x.handle, a.toNat % 268435456 * 2048, 2048) (w.dst.toNat, false, a.toNat)) ∧
    (ready (.trvNode ag w .clean) s = true → 2 ^ 40 ≤ a.toNat → exec (.trvNode ag w .clean) s = .next (f.refused ag w stInvalidOperand)) ∧
    (∀ h recs, ready (.trvDrd ag w) s = true → d.layer wk.shard w.imm.toNat = some (h, recs) → a.toNat % 64 = 0 → a.toNat + 64 ≤ 2048 * recs →
      ∃ t, exec (.trvDrd ag w) s = .next t ∧ waits t (a.toNat % 2048, h, a.toNat, 64) (w.dst.toNat, false, 0)) ∧
    (∀ h recs, ready (.trvDrd ag w) s = true → d.layer wk.shard w.imm.toNat = some (h, recs) → a.toNat % 64 = 0 → 2048 * recs < a.toNat + 64 →
      exec (.trvDrd ag w) s = .next (f.refused ag w stOutOfRange)) ∧
    (∀ x, ready (.trvTomb ag w) s = true → a.toNat < 2 ^ 40 → (s.jobIndex n).bind s.index? = some x →
      ∃ t, exec (.trvTomb ag w) s = .next t ∧ waits t (0, x.tombObj, d.tombAt a.toNat / 8 * 8, 8) (w.dst.toNat, true, a.toNat))

/-- TRV.LAUNCH, TRV.SCORE, TRV.VISIT, TRV.PUSH, TRV.POP, TRV.BOUND and TRV.EMIT (R168, R169, R253, R258 to R262): what each leaves in its
registers and in the walk.
Choices of the model in it, by log entry: what TRV.POP leaves in sd (22); CONTEXT_EXHAUSTED is an outcome found after issue (195). -/
def Obligations.TraverseWalks : Prop :=
  ∀ (e : Fin 16) (k : Fin 512) (w : IWord) (s : State) (n : Nat) (wk : Walk) (d : IndexD),
    let ag : Agent := .ctx e k
    let f := fetched ag w s
    let r := s.regs ag
    let a := r.rs w.srcA
    onJob e k s n wk → s.jobDesc n = some d →
    (ready (.trvLaunch ag w) s = true → (∃ x, x < 512 ∧ (s.ctx e.val x).r.run = .idle) → s.ctxsHeld e.val < 512 →
      ∃ t x, exec (.trvLaunch ag w) s = .next t ∧ x < 512 ∧ (s.ctx e.val x).r.run = .idle ∧ (t.ctx e.val x).r.run = .running ∧
        (t.ctx e.val x).r.pc = w.imm.setWidth 64 ∧ (t.ctx e.val x).r.rs 1 = a ∧ (t.ctx e.val x).r.job = some n ∧
        (w.dst ≠ 0 → (t.regs ag).rs w.dst = trvValue x) ∧ (t.regs ag).pc = r.pc + 1) ∧
    (ready (.trvLaunch ag w) s = true → (∀ x, x < 512 → (s.ctx e.val x).r.run ≠ .idle) →
      ∃ t, exec (.trvLaunch ag w) s = .next t ∧ (w.dst ≠ 0 → (t.regs ag).rs w.dst = 0x0400) ∧
        (t.regs ag).status = noteStatus (lastStatus r.status stContextExhausted) stContextExhausted) ∧
    (ready (.trvScore ag w) s = true → (s.ctx e.val k.val).layer = 0 →
      let ns := (neighbours (s.ctx e.val k.val).slot d).filter (fun x => (d.slotOf x.1).isSome)
      ∃ t, exec (.trvScore ag w) s = .next t ∧ (w.dst ≠ 0 → (t.regs ag).rs w.dst = trvValue ns.length) ∧
        (t.ctx e.val k.val).scored = ns.map (fun x => ⟨x.1, coarse (rawDist wk.tables wk.labelMask wk.penalty x.2.2 x.2.1)⟩)) ∧
    (ready (.trvVisit ag w) s = true → a.toNat < 2 ^ 40 → w.dst ≠ 0 →
      ∃ t, exec (.trvVisit ag w) s = .next t ∧ (t.regs ag).rp w.dst = (if a.toNat ∈ wk.visited then BitVec.allOnes 64 else 0) ∧
        (a.toNat ∉ wk.visited → wk.visited.length < wk.vcap →
          (t.walk? e.val n).map (fun x => x.visited) = some (wk.visited ++ [a.toNat])) ∧
        (a.toNat ∉ wk.visited → wk.vcap ≤ wk.visited.length → (t.walk? e.val n).map (fun x => x.overflowed) = some true)) ∧
    (ready (.trvPush ag w) s = true →
      let c := f.ctx e.val k.val
      let p := offerAll d e.val k.val n (c.layer != 0) (f.setCtx e.val k.val { c with scored := [] }) 0 c.scored
      exec (.trvPush ag w) s =
        .next (retired ag w s ((p.1.updRegs ag (fun r => r.ws w.dst (trvValue p.2))).advance e.val n))) ∧
    (∀ c, ready (.trvPop ag w) s = true → wk.ended = false → wk.best = some c → w.dst ≠ 0 →
      ∃ t, exec (.trvPop ag w) s = .next t ∧ (t.regs ag).rs w.dst = c.bits ∧ (t.regs ag).rp w.dst = BitVec.allOnes 64 ∧
        t.walk? e.val n = some (wk.expand c) ∧ (t.regs ag).pc = r.pc + 1) ∧
    (ready (.trvPop ag w) s = true → wk.ended = false → wk.best = none →
      exec (.trvPop ag w) s = .next ((f.updRegs ag (fun r => { r with run := .waiting (.pop w.dst w.dst) w.stamp })).advance e.val n)) ∧
    (ready (.trvPop ag w) s = true → wk.ended = true → w.dst ≠ 0 →
      ∃ t, exec (.trvPop ag w) s = .next t ∧ (t.regs ag).rp w.dst = 0 ∧ (t.regs ag).s = r.s ∧ (t.regs ag).pc = r.pc + 1) ∧
    (ready (.trvBound ag w) s = true →
      exec (.trvBound ag w) s = .next (retired ag w s (f.updRegs ag (fun r => r.wp w.dst
        (if a.toNat % 65536 < wk.bound then BitVec.allOnes 64 else 0))))) ∧
    (ready (.trvEmit ag w) s = true → a.toNat < 2 ^ 40 → (s.ctx e.val k.val).slot.rdNat 8 5 = a.toNat →
      ∃ t x, exec (.trvEmit ag w) s = .next t ∧ x.node = a.toNat ∧ x.d = (r.rs w.srcB).toNat % 65536 ∧
        x.key = BitVec.ofNat 64 ((s.ctx e.val k.val).slot.rdNat 0 8) ∧
        (t.walk? e.val n).map (fun y => y.results) = some (((wk.results ++ [x]).mergeSort resLe).take wk.pool)) ∧
    (ready (.trvEmit ag w) s = true → (s.ctx e.val k.val).slot.rdNat 8 5 ≠ a.toNat →
      exec (.trvEmit ag w) s = .next (f.refused ag w stInvalidOperand))

/-- CONTEXT_DATA_ARRIVED and FORWARD_ARRIVAL (R117, R168, R261, R263): the record or the line stands in the slot with outcome OK and the context
runs on; a forward that arrives leaves the mesh, and its walk has received one more. -/
def Obligations.EngineEvents : Prop :=
  (∀ (e : Fin 16) (k : Fin 512) (s : State) (at_ off len reg : Nat) (h : W32) (node : Nat) (bs : List Byte) (st : Bool),
    let ag : Agent := .ctx e k
    let c := s.ctx e.val k.val
    c.r.run = .waiting .data st → c.halted = false → c.fetch = some (at_, h, off, len) → c.dest = some (reg, false, node) → reg < 32 →
    (s.obj? h).bind (fun o => s.objBytes o 256 off len) = some bs →
    ∃ t, exec (.contextDataArrived e k true) s = .next t ∧ (t.ctx e.val k.val).slot.rdBytes at_ bs.length = bs ∧
      (t.regs ag).run = .running ∧ (t.regs ag).pc = c.r.pc + 1 ∧ (reg ≠ 0 → (t.regs ag).rs (BitVec.ofNat 5 reg) = 0) ∧
      (t.ctx e.val k.val).fetch = none ∧ sameOthers ag s t) ∧
  (∀ (src dst : Fin 16) (job : Nat) (s : State) (f : Forward) (wk : Walk),
    s.host.forwards.find? (fun f => f.src == src.val && f.dst == dst.val && f.job == job) = some f → s.walk? dst.val job = some wk →
    ∃ t, exec (.forwardArrival src dst job) s = .next t ∧ t.host.forwards = s.host.forwards.erase f ∧
      (t.walk? dst.val job).map (fun x => x.received) = some (wk.received + 1))

namespace Sys2Proof.Claims
open Machine

/-- An admin command that the drive executes (R386, R389, R432, R472): its controller is ready, not failed, not being disabled, in D0. -/
def adminTaken (c : HostCmd) (s : State) : Bool :=
  let k := s.ctrl c.ctrl
  k.rdy && !k.cfs && !k.disabling && !k.d3 && c.sqid == 0

/-- An I/O command that the drive executes (R386, R389, R409): its queue exists, is neither frozen nor being deleted, and has no
pending notice for its namespace. -/
def ioTaken (c : HostCmd) (s : State) : Bool :=
  let k := s.ctrl c.ctrl
  k.rdy && !k.cfs && !k.disabling && !k.d3 && c.sqid != 0 &&
  (match s.sq? c.ctrl c.sqid with
   | none => false
   | some q => !q.frozen && q.deleting.isNone && !q.notices.contains c.nsid)

/-- The state in which an I/O command is executed: a non-operational power state is left (R418), and its tag is forgotten (R209). -/
def ioState (c : HostCmd) (s : State) : State :=
  let u := s.leaveLow
  { u with host := { u.host with tags := u.host.tags.filter (fun t => t.1 != (c.ctrl, c.sqid, c.cid)) } }

/-- A query command (R244, R293, R298, R309, R401): its opcode, whether the chain namespace takes it, its parameters, and what makes it
complete at once, with the flags of its completion. -/
structure QueryRow where
  make : HostCmd → Instr
  opcode : Byte
  chain : Bool
  parse : HostCmd → State → Except NvStatus JobKind
  atOnce : JobKind → Option W32

/-- The query commands. -/
def queryRows : List QueryRow :=
  [⟨.search, 0x90, true, fun c s => asNv (s.parseSearch c), fun k => match k with
      | .search p => if p.k = 0 ∨ p.pool = 0 then some 0 else none
      | _ => none⟩,
   ⟨.filter, 0x91, false, fun c s => s.parseFilter c, fun k => match k with
      | .filter r limit _ _ => if r.length = 0 then some (if limit = 0 then 0 else 0x100) else none
      | _ => none⟩,
   ⟨.embed, 0x92, false, fun c s => s.parseEmbed c, fun k => match k with
      | .embed _ _ _ _ [] none _ _ => some 0
      | .embed _ _ _ _ _ (some r) _ _ => if r.length = 0 then some 0 else none
      | _ => none⟩,
   ⟨.readAnswer, 0x93, false, fun c s => asNv (s.parseRead c), fun k => match k with
      | .readAnswer _ _ keys tokens _ _ _ => if keys = [] ∨ tokens = [] then some 0x100 else none
      | _ => none⟩,
   ⟨.run, 0x94, false, fun c s => asNv (s.parseRun c), fun _ => none⟩]

end Sys2Proof.Claims

open Sys2Proof Sys2Proof.Machine Sys2Proof.Claims

/-! ## Flash dies -/

/-- Reads on a die (R327, R328, R330, R331, R336, R338): an idle die starts the read at once, with the threshold offsets of its ledger entry, and its channel counts it; behind a running write
the suspend is scheduled at the later of the arrival and the end of the minimum run, unless the write ends within 20 µs of it; the
suspend stops the write; the resume adds its 10 µs; a finished read counts its retry steps and, past step 7, UNCORR. Writes on a die (R164, R166,
R325, R330, R333, R347): a finished FPROG has its outcome; a finished background erase adds its wear and leaves the block erased and free; a die
that fails drops its queues for good; a full word line goes to its die; the check after a refusal advances the write pointer past units that
hold data.
Choices of the model in it, by log entry: the times of the table are the run times, and a command ends a write or a read (183). -/
def Obligations.FlashDies : Prop :=
  (∀ (die : Fin 512) (s : State),
     let d := die.val
     let x := s.die d
     let c := s.chanOf d
     (∀ r, x.failed = false → x.reading = none → x.reads = [] → x.writing = none →
       ∃ t, exec (.dieReadArrival die r) s = .next t ∧ (t.die d).reading = some r ∧ (t.die d).reads = [] ∧
         (t.die d).entry = (let b := x.blk r.block
           let i := 64 * ageBucket (s.time.epoch.toNat - b.minute) + 8 * tempBucket (b.temp.toInt - x.temp.toInt) + wearBucket b.wear
           some (i, s.media.ledger.rdBytes (16 * i) 16)) ∧
         (t.chanOf d).reads = c.reads + 1 ∧
         (t.chanOf d).rdmax.toNat = Max.max c.rdmax.toNat (Min.min (s.time.now.toNat - r.at_) 0xFFFFFFFF) ∧ (t.chanOf d).progs = c.progs) ∧
     (∀ r w, x.failed = false → x.reading = none → x.reads = [] → x.writing = some w → x.suspended = false → x.suspendAt = none →
       let ts := Max.max r.at_ (x.wStart + (if w.erase then 800000 else 250000))
       ∃ t, exec (.dieReadArrival die r) s = .next t ∧ (t.die d).reading = none ∧ (t.die d).reads = [r] ∧ (t.die d).writing = some w ∧
         (t.die d).suspendAt = if x.wStart + x.wLeft < ts + 20000 then none else some ts) ∧
     (∀ w ts, x.writing = some w → x.suspendAt = some ts →
       ∃ t, exec (.dieSuspend die) s = .next t ∧ (t.die d).suspended = true ∧ (t.die d).suspendAt = none ∧ (t.die d).writing = some w ∧
         (ts < 2 ^ 64 → t.time.now.toNat = Max.max s.time.now.toNat ts) ∧
         (t.die d).wLeft = x.wLeft - (ts - x.wStart) ∧ (t.chanOf d).suspends = c.suspends + 1) ∧
     (x.suspended = true → x.reading = none → (x.reads = [] ∨ x.served = 8) →
       ∃ t, exec (.dieResume die) s = .next t ∧ (t.die d).suspended = false ∧ (t.die d).wStart = s.time.now.toNat ∧
         (t.die d).wLeft = x.wLeft + 10000 ∧ (t.die d).writing = x.writing) ∧
     (∀ r out, x.reading = some r → x.reads = [] →
       ∃ t, exec (.dieReadDone die out) s = .next t ∧ (s.host.recs = [] → s.host.issued = [] → (t.die d).reading = none) ∧
         (t.chanOf d).retries = c.retries + BitVec.ofNat 64 (Min.min out.step.val 7) ∧
         (t.chanOf d).uncorr = (if out.step = 8 then c.uncorr + 1 else c.uncorr))) ∧
  (∀ (die : Fin 512) (s : State),
     let d := die.val
     let x := s.die d
     (∀ w op r, x.writing = some w → w.erase = false → x.suspended = false → w.serves = .fprog op →
       s.host.recs.find? (fun r => r.id == op) = some r → r.outcome = none →
       ∃ t, exec (.dieProgramDone die true) s = .next t ∧
         (t.host.recs.find? (fun r => r.id == op)).map (fun r => r.outcome) = some (some (stOk, 0))) ∧
     (∀ w, x.writing = some w → w.erase = true → x.suspended = false → w.serves = .background → x.taken w.pos = false → s.host.recs = [] → s.host.issued = [] → s.ftl.closing = [] →
       ∃ t, exec (.dieEraseDone die true) s = .next t ∧ ((t.die d).blk w.pos).erased = true ∧ ((t.die d).blk w.pos).wp = 0 ∧
         ((t.die d).blk w.pos).use = .free ∧ ((t.die d).blk w.pos).wear = (x.blk w.pos).wear + (if w.qlc then 10 else 1) ∧
         t.media.sinceMove = s.media.sinceMove + 1) ∧
     (x.failed = false → ∃ t, exec (.dieFailed die) s = .next t ∧ (t.die d).failed = true ∧ (t.die d).reads = [] ∧ (t.die d).writes = [] ∧
       (t.die d).reading = none ∧ (t.die d).writing = none) ∧
     (∀ ext block line e, s.extent? ext = some e → (s.extentAt e block).1 = d → x.failed = false →
       (∀ i, i < 4 → 2048 * block + 4 * line + i ∈ e.held) → s.movesBlock d (s.extentAt e block).2 = false →
       x.pendingAt (s.extentAt e block).2 (fun w => w.serves == .line ext.toNat block line) = false →
       exec (.qlcWordLineProgram ext block line) s =
         .next (s.queueWrite d ⟨(s.extentAt e block).2, false, true, .line ext.toNat block line⟩)) ∧
     (∀ ext block e, s.extent? ext = some e → (s.extentAt e block).1 = d → x.failed = false → s.host.recs = [] → s.host.issued = [] →
       let b := x.blk (s.extentAt e block).2
       b.check = true → x.reading = none → x.reads = [] → (x.writing = none ∨ x.suspended = true) →
       ∃ t, exec (.mediaCheck ext block) s = .next t ∧
         ((t.die d).blk (s.extentAt e block).2).wp = Min.min (b.wp + b.cut) (if e.qlc then 2048 else 512) ∧
         ((t.die d).blk (s.extentAt e block).2).check = false))

/-! ## Jobs -/

/-- A query command (R26, R27, R205, R208, R390) on the compute namespace, SEARCH also on the chain namespace, with parameters that pass:
a job with the next number that no job holds joins the waiting ones, or starts result writing when it has nothing to do, with its flags;
SUBMITTED counts it. Bad parameters complete with their status, another namespace with Invalid Namespace. -/
def Obligations.QueriesBecomeJobs : Prop :=
  ∀ row ∈ queryRows, ∀ (c : HostCmd) (s : State), ioTaken c s = true →
    let u := ioState c s
    let here := c.nsid = s.host.nsCompute ∨ (row.chain = true ∧ s.host.nsChain = some c.nsid)
    (∀ k, here → calm s = true → row.parse c u = .ok k →
      ∃ t j, exec (row.make c) s = .next t ∧ t.host.jobs = s.host.jobs ++ [j] ∧ j.num = s.freshNum.toNat ∧ j.kind = k ∧
        j.opcode = row.opcode ∧ j.ctrl = c.ctrl ∧ j.sqid = c.sqid ∧ j.cid = c.cid ∧ j.client = s.clientOf c ∧
        j.outOff = c.cdw11.toNat ∧ j.outLen = c.cdw12.toNat ∧ j.phase = (if (row.atOnce k).isSome then .writing else .waiting) ∧
        j.flags = (row.atOnce k).getD 0 ∧ j.stamped = [0x20] ∧ t.host.nextJob = s.freshNum + 1 ∧
        (getD {} t.host.counts j.client.toNat).submitted = (getD {} s.host.counts j.client.toNat).submitted + 1 ∧
        t.host.out = s.host.out ∧ t.tiles = s.tiles ∧ t.engines = s.engines ∧ t.obj = s.obj ∧ t.media = s.media ∧ t.idx = s.idx) ∧
    (∀ e, here → row.parse c u = .error e → exec (row.make c) s = .next (u.fail c e)) ∧
    (¬ here → exec (row.make c) s = .next (u.fail c nvInvalidNamespace))

/-- The events of a search (R26, R244, R251, R252, R263, R273, R280 to R282): the query vector; the tables and the
walks; the walks' end, with hidden keys left out; the moraine's candidates; the pool; the result order (QUERY_EMBEDDED, TABLES_READY,
WALK_DONE, MORAINE_DONE, MERGE_DONE, RERANK_DONE). A search over a chain (R283): a member's
agreeing entries are kept, cut to K; disagreement stops the job with INVALID_FIELD; at the timeout the members that have not answered are
missing; another member's query waits as a job whose records go back to the sender.
Choices of the model in it, by log entry: how a withdrawal reaches the shares of a chain query (165), and the job number of such a share (166). -/
def Obligations.Searches : Prop :=
  (∀ (n : Nat) (tile : Fin 256) (s : State) (j : Job) (p : SearchP) (d : IndexD), s.searchOf n = some (j, p, d) → calm s = true →
     (∀ vec, p.encoder ≠ 0 → 0x22 ∉ j.stamped → vec.length = d.dim →
       ∃ t, exec (.queryEmbedded n tile vec) s = .next t ∧ t.job? n = some { j with vec := vec, stamped := j.stamped ++ [0x22] }) ∧
     (j.vec ≠ [] → 0x23 ∉ j.stamped → p.walks = true → d.clusters.Nodup →
       ∃ t k, exec (.tablesReady n tile) s = .next t ∧ t.job? n = some k ∧ k.stamped = j.stamped ++ [0x23] ∧ k.walked = none ∧
         ∀ x ∈ d.clusters.zipIdx, t.walk? x.1 n = some (newWalk p d (d.tables (s.queryOf j p d)) n x.2)) ∧
     (j.vec ≠ [] → 0x23 ∉ j.stamped → p.walks = false →
       ∃ t k, exec (.tablesReady n tile) s = .next t ∧ t.job? n = some k ∧ k.stamped = j.stamped ++ [0x23] ∧ k.walked = some [] ∧
         t.engines = s.engines) ∧
     (0x23 ∈ j.stamped → j.walked = none → p.walks = true → s.quiet n d.clusters = true →
       ∃ t k cs, exec (.walkDone n) s = .next t ∧ t.job? n = some k ∧ k.walked = some cs ∧ k.stamped = j.stamped ++ [0x26] ∧
         (∀ e ∈ d.clusters, t.walk? e n = none) ∧
         (∀ a ∈ cs, a.d < 0xFFFF) ∧
         (∀ x, (s.jobIndex n).bind s.index? = some x → ∀ a ∈ cs, x.hides a.key j.base j.length = false)) ∧
     (∀ x, (s.jobIndex n).bind s.index? = some x → 0x23 ∈ j.stamped → j.moraine = none →
       ∃ t k cs, exec (.moraineDone n tile) s = .next t ∧ t.job? n = some k ∧ k.moraine = some cs ∧ cs.length ≤ p.pool ∧ (∀ a ∈ cs, a.d < 0xFFFF) ∧
         cs.Pairwise (fun a b => candLe a b = true) ∧ k.stamped = j.stamped ++ [0x25]) ∧
     (∀ ws ms, j.ranked = none → j.pool = none → j.walked = some ws → j.moraine = some ms →
       ∃ t k, exec (.mergeDone n tile) s = .next t ∧ t.job? n = some k ∧
         k.pool = some ((firstKeys [] ((ws ++ ms).mergeSort candLe)).take p.pool) ∧ k.mergeTile = tile ∧ k.stamped = j.stamped ++ [0x27]) ∧
     (∀ pool, j.pool = some pool → j.ranked = none → j.shareOf = none → j.onChain = false → s.jobObj j p.head = none →
       let scored := pool.map (fun c => { c with score := d.score (s.queryOf j p d) c.vcode c.vmeta })
       let out := ((scored.filter (fun c => !isNan c.score)).mergeSort scoreLe).take p.k
       ∃ t k, exec (.rerankDone n tile) s = .next t ∧ t.job? n = some k ∧ k.ranked = some out ∧
         k.phase = (if (p.depth = 0 ∨ out = []) ∧ j.stop = none then .writing else j.phase) ∧
         (k.flags = if out.length < p.k then j.flags ||| 0x100 else j.flags))) ∧
  ((∀ (n : Nat) (m : Fin 8) (s : State) (j : Job) (p : SearchP) (d : IndexD) (entries : List W256), s.searchOf n = some (j, p, d) →
     m.val ∈ j.unanswered →
     (∃ t k, exec (.chainMemberAnswer n m true entries) s = .next t ∧ t.job? n = some k ∧
       find m.val k.answers = some ((entries.map candOf).take p.k)) ∧
     (∃ t k, exec (.chainMemberAnswer n m false entries) s = .next t ∧ t.job? n = some k ∧ k.stop = j.stop.or (some stInvalidField))) ∧
   (∀ (n : Nat) (s : State) (j : Job) (p : SearchP) (d : IndexD), s.searchOf n = some (j, p, d) →
     ∃ t k, exec (.chainMemberTimeout n) s = .next t ∧ t.job? n = some k ∧ (∀ m, m < 8 → m ∈ j.unanswered → k.missing.getLsbD m = true) ∧
       k.unanswered = []) ∧
   (∀ (q : FanOutQuery) (s : State) (d : IndexD), q.cancel = false → s.indexAt q.index = .ok d →
     (d.dim = q.dim → d.metric = q.metric.toNat → q.vec.length = q.dim →
       ∃ t j, exec (.fanOut q) s = .next t ∧ t.host.jobs = s.host.jobs ++ [j] ∧ j.shareOf = some (q.sender.val, q.query.toNat) ∧ j.client = q.client ∧
         j.phase = .waiting ∧ j.silent = true ∧ t.host.nextJob = s.freshNum + 1) ∧
     ((d.dim ≠ q.dim ∨ d.metric ≠ q.metric.toNat) →
       exec (.fanOut q) s = .next { s with chain := { s.chain with sent := s.chain.sent ++ [(q.sender.val, q.query.toNat, none)] } })) ∧
   (∀ (q : FanOutQuery) (s : State), q.cancel = true →
     s.host.jobs.all (fun j => !(j.shareOf == some (q.sender.val, q.query.toNat) && j.phase == .waiting)) = true →
     exec (.fanOut q) s = .next { s with host := { s.host with jobs := s.host.jobs.map (fun j =>
       if j.shareOf = some (q.sender.val, q.query.toNat) then { j with stop := j.stop.or (some stAborted), caught := true } else j) } }))

/-- Work that ends (R24, R48, R207, R294 to R297, R301, R308 to R313): a scan and a finished read start result writing; an EMBED's changes wait
for the saddle; loaded passages are marked once. -/
def Obligations.JobWorkEnds : Prop :=
  (∀ (n : Nat) (unread : List Nat) (s : State) (j : Job) (r : RangeP) (limit : Nat) (project : W32),
    s.job? n = some j → j.kind = .filter r limit false project → j.phase = .admitted → j.stop = none → calm s = true → s.rangeWaits r = false →
    s.unreadBlocks r unread (s.rangeBytes r unread).length = 0 →
    let rs := (recordsOf r.layout (s.rangeBytes r unread)).1
    let hits := rs.filter (fun x => recMatches r.layout r.terms x.bytes)
    ∃ t k, exec (.scanDone n unread) s = .next t ∧ t.job? n = some k ∧ k.phase = .writing ∧ k.counted = true ∧
      k.nEntries = (hits.take limit).length ∧ k.entries = (hits.take limit).flatMap (filterEntry r.layout project)) ∧
  (∀ (n : Nat) (s : State) (j : Job) (reader : W32) (joined : Bool) (keys : List W64) (tokens : List W32) (maxspan : Nat) (minscore : W32) (tok : Bool),
    s.job? n = some j → j.kind = .readAnswer reader joined keys tokens maxspan minscore tok → j.phase = .admitted → j.stop = none → calm s = true →
    (0x29 ∉ j.stamped → j.passages.isSome = true →
      ∃ t k, exec (.prefillLoaded n) s = .next t ∧ t.job? n = some k ∧ k.stamped = j.stamped ++ [0x29] ∧
        k.kept = j.kept ++ ((j.passages.getD []).filter (fun p => p.2 == 0)).map Prod.fst) ∧
    (∀ tile spans, 0x29 ∈ j.stamped → 0x2A ∉ j.stamped → joined = false →
      spans.length = ((j.passages.getD []).filter (fun p => p.2 == 0)).length →
      (∀ q ∈ spans, q.1.length = (s.readerRole j reader).dim ∧ q.2.length = (s.readerRole j reader).dim) →
      ∃ t k, exec (.readDone n tile spans) s = .next t ∧ t.job? n = some k ∧ k.phase = .writing ∧ k.stamped = j.stamped ++ [0x2A] ∧
        k.spans = s.separateSpans maxspan minscore (j.passages.getD []) spans)) ∧
  (∀ (n : Nat) (s : State) (j : Job) (d : IndexD) (i e r : W32) (items : List ItemP),
    s.job? n = some j → s.jobDesc n = some d → j.kind = .embed i e r 1 items none false 0 → j.phase = .admitted → calm s = true →
    ∃ t k, exec (.embedDone n [] []) s = .next t ∧ t.job? n = some k ∧ k.phase = .workDone ∧ k.stamped = j.stamped ++ [0x5B] ∧
      k.changes = items.map (fun it => ⟨true, it.key, it.node, 0, [], [], [], 0⟩))

/-- The end of a job (R24, R208, R209, R402, R405): its result region and RESULT_WRITTEN, then its completion entry with COUNT and flags; it
leaves the running jobs, its client's count rises, and its tag stays known until the tag expires. -/
def Obligations.JobsComplete : Prop :=
  ∀ (n : Nat) (s : State) (j : Job), s.job? n = some j → (s.ctrl j.ctrl).d3 = false → j.silent = false → j.submitted = true → s.pwr.exiting = false → calm s = true →
    (j.phase = .writing →
      let r := (if j.recode = 0 then s.writeCodebook j else s).resultOf j
      ∃ t k, exec (.resultWritten n) s = .next t ∧
        t.host.out = s.host.out ++ [.bytes ⟨j.ctrl, j.sqid, j.cid, j.outOff, j.header r.2 r.1.length ++ r.1⟩] ∧
        t.job? n = some k ∧ k.phase = .written ∧ k.abortsHeld = [] ∧ k.stamped = j.stamped ++ [0x2B]) ∧
    (j.phase = .written → j.caught = false → j.status = 0 →
      ∃ t rest, exec (.completionPosted n) s = .next t ∧
        t.host.out = s.host.out ++ .done ⟨j.ctrl, j.sqid, j.cid, BitVec.ofNat 32 (s.resultOf j).2, j.flags, 0, 0⟩ :: rest ∧
        t.job? n = none ∧
        (getD {} t.host.counts j.client.toNat).completed = (getD {} s.host.counts j.client.toNat).completed + 1 ∧
        ((j.ctrl, j.sqid, j.cid), j.detail) ∈ t.host.tags) ∧
    (j.phase = .stopped → j.caught = true →
      ∃ t rest, exec (.completionPosted n) s = .next t ∧
        t.host.out = s.host.out ++ .done ⟨j.ctrl, j.sqid, j.cid, 0, 0, nvAborted.1, nvAborted.2⟩ :: rest ∧ t.job? n = none ∧
        (getD {} t.host.counts j.client.toNat).aborted = (getD {} s.host.counts j.client.toNat).aborted + 1)

/-- ABORT QUERY, NVMe Abort and the expiry of a tag (R209, R210, R407, R408): a job that waits is caught at once and ends as aborted after the reply;
a running one is caught at the saddle; a decision during result writing is held, and one after it replies after the job's own completion; a known
tag is missed, any other is unknown; dword 0 of NVMe Abort says only whether the job was caught; an expired tag is known no more. -/
def Obligations.Aborts : Prop :=
  (∀ (nvme : Bool) (c : HostCmd) (s : State), calm s = true →
    (nvme = true → adminTaken c s = true) →
    (nvme = false → ioTaken c s = true ∧ c.cdw11 = 0 ∧ c.cdw12 = 0 ∧ c.cdw13 = 0 ∧ c.cdw14 = 0 ∧ c.cdw15 = 0) →
    let i := if nvme then Instr.nvmeAbort c else .abortQuery c
    let u := if nvme then s.leaveLow else ioState c s
    let tag := (c.ctrl, (c.cdw10.setWidth 16 : W16), (c.cdw10.extractLsb' 16 16 : W16))
    let target := u.host.jobs.find? (fun j => (j.ctrl, j.sqid, j.cid) == tag && j.submitted)
    let known := u.host.tags.find? (fun t => t.1 == tag)
    let said (x : W32) : W32 := if nvme then (if x = 0 ∨ x = 1 then 0 else 1) else x
    (∀ j, target = some j → u.job? j.num = some j →
      (j.phase = .waiting → j.silent = false → j.homeless = false → u.pwr.exiting = false →
        ∃ t rest, exec i s = .next t ∧ t.host.out = u.host.out ++ .done ⟨c.ctrl, c.sqid, c.cid, said 0, 0, nvOk.1, nvOk.2⟩ :: rest ∧
          .done ⟨j.ctrl, j.sqid, j.cid, 0, 0, nvAborted.1, nvAborted.2⟩ ∈ rest ∧ t.job? j.num = none) ∧
      ((j.phase = .admitted ∨ j.phase = .workDone) →
        ∃ v : State, exec i s = .next (v.ok c (said 1)) ∧ v.host.out = u.host.out ∧
          v.job? j.num = some { j with caught := true, stop := if j.caught then j.stop else some stAborted }) ∧
      (j.phase = .writing → ∃ t, exec i s = .next t ∧ t.host.out = u.host.out ∧
        t.job? j.num = some { j with abortsHeld := j.abortsHeld ++ [(c, nvme)] }) ∧
      (j.phase = .written → ∃ t, exec i s = .next t ∧ t.host.out = u.host.out ∧
        t.job? j.num = some { j with abortsAfter := j.abortsAfter ++ [(c, nvme)] })) ∧
    (target = none → known = none → ∃ v : State, exec i s = .next (v.ok c (said 3)) ∧ v.host = u.host) ∧
    (∀ x, target = none → known = some x → ∃ v : State, exec i s = .next (v.ok c (said 2)) ∧ v.host = u.host)) ∧
  (∀ (c : HostCmd) (s : State) (j : Job), calm s = true → adminTaken c s = true →
    s.leaveLow.host.jobs.find? (fun j => (j.ctrl, j.sqid, j.cid) == (c.ctrl, (c.cdw10.setWidth 16 : W16), (c.cdw10.extractLsb' 16 16 : W16)) && j.submitted) =
      some j → s.leaveLow.job? j.num = some j → j.phase = .admitted → j.caught = false →
    ∃ v : State, exec (.nvmeAbort c) s = .next (v.ok c 0) ∧ v.job? j.num = some { j with caught := true, stop := some stAborted }) ∧
  (∀ (c : HostCmd) (s : State), ioTaken c s = true → (c.cdw11 ≠ 0 ∨ c.cdw15 ≠ 0) →
    exec (.abortQuery c) s = .next ((ioState c s).fail c nvInvalidField)) ∧
  (∀ (ctrl : Fin 33) (sqid cid : W16) (s : State),
    ∃ t, exec (.tagExpiry ctrl sqid cid) s = .next t ∧ (∀ x ∈ t.host.tags, x.1 ≠ (ctrl, sqid, cid)) ∧
      (∀ x ∈ s.host.tags, x.1 ≠ (ctrl, sqid, cid) → x ∈ t.host.tags) ∧ t.host.jobs = s.host.jobs)

/-! ## Time, settings and steps -/

/-- TIME_SYNC, EPOCH_MINUTE, EPOCH_SAVE and COL_TRANSFER (R14, R177, R178, R180, R181, R192, R454, R456): 1,024 ns pass unless a scheduled saddle falls in
them, each island moves half a nanosecond toward the root, whose own island has no drift, its time never decreasing, and is locked within 2 ns of it, and a write of the firmware slot
that has taken its time ends, a recovery's perhaps failing, and a measurement of the hold-up bank that is due begins; the epoch counts minutes of drive time and its stored value follows; a transfer through a col is delivered 2 to 3 cycles of
the destination clock after the source lets it go, a cycle of the slower clock behind the one before.
Choices of the model in it, by log entry: a command that cannot act yet changes nothing (9); what ends a write of a firmware slot (104); when a measurement of the bank begins (138). -/
def Obligations.TimePasses : Prop :=
  (∀ (drift : List (Nat × Int)) (s : State), s.clockRuns = true → s.saddleDue = false →
    ∃ t, exec (.timeSync drift) s = .next t ∧ t.time.now = s.time.now + 1024 ∧
      (s.pwr.measureAt.toNat ≤ (s.time.now + 1024).toNat → t.pwr.measuring = true) ∧
      (∀ w, s.sec.slotWrite = some w → s.boot.phase ≠ .faulted → s.mute = false → w.ends.toNat ≤ (s.time.now + 1024).toNat →
        t.sec.slotWrite = none ∧ (t.sec.slot = some (w.man, w.bytes) ∨
          (w.cmd = none ∧ t.sec.slot = w.was ∧ t.rcv.error = 6 ∧ t.rcv.state = 5))) ∧
      ∀ k ∈ islandIds,
        let off := (getD {} s.time.islands k).skew + (if k = 0x17F then 0 else ((drift.find? (fun d => d.1 == k)).map Prod.snd).getD 0)
        let i := getD {} t.time.islands k
        i.skew = Max.max (if 0 < off then off - 1 else if off < 0 then off + 1 else 0) ((getD {} s.time.islands k).skew - 2048) ∧ i.locked = decide (i.skew.natAbs ≤ 4)) ∧
  (∀ (drift : List (Nat × Int)) (s : State), s.saddleDue = true → exec (.timeSync drift) s = .next s) ∧
  (∀ s : State, s.clockRuns = true →
    (s.time.minuteAt.toNat ≤ s.time.now.toNat →
      let u : State := { s with time := { s.time with epoch := s.time.epoch + 1, minuteAt := s.time.minuteAt + 60000000000 } }
      (u.aged s.time.epoch.toNat = [] → exec .epochMinute s = .next u) ∧
      ∃ t, exec .epochMinute s = .next t ∧ t.time.epoch = u.time.epoch ∧ t.time.minuteAt = u.time.minuteAt ∧ t.host = s.host) ∧
    (s.time.now.toNat < s.time.minuteAt.toNat → exec .epochMinute s = .next s) ∧
    exec .epochSave s = .next (if s.mute = true then s else { s with time := { s.time with epochSaved := s.time.epoch } })) ∧
  (∀ (src dst : BitVec 9) (payload : W64) (s : State),
    let q := getD [] s.time.cols (512 * src.toNat + dst.toNat)
    let p := colPeriod dst.toNat
    let slow := Max.max p (colPeriod src.toNat)
    let now := 168 * s.time.now.toNat
    ∃ t taken at_, exec (.colTransfer src dst payload) s = .next t ∧
      getD [] t.time.cols (512 * src.toNat + dst.toNat) = q ++ [(payload, taken, at_)] ∧
      (crossesCol src.toNat dst.toNat = false → taken = now ∧ at_ = now) ∧
      (crossesCol src.toNat dst.toNat = true → now ≤ taken ∧ taken + 2 * p ≤ at_ ∧
        (q = [] → at_ ≤ taken + 3 * p) ∧
        ∀ x, q.getLast? = some x → x.2.1 + slow ≤ taken ∧ x.2.2 + slow ≤ at_ ∧ at_ ≤ Max.max (taken + 3 * p) (x.2.2 + slow)))

/-- A saddle (R192, R195 to R199) of a drive in a chain of one, after the budget has ended, at its scheduled instant or after an event-driven step:
the step number rises by one, every pending scalar setting is live and none is pending, the next instant is one committed STEP_PERIOD on, or none
when the committed period is 0 (R196), and the duration is recorded. Of two writes of STEPCTL's WS fields
the later stands in the staged copy (R13). At the end of the step budget (R129, R193) each running core of a tile that is not halted, whose next
instruction nothing holds back, takes STEP_OVERRUN, a trap without a handler, so it fails, and its job stops at the saddle. -/
def Obligations.SaddleCommits : Prop :=
  ((∀ (dur : BitVec 24) (s : State), s.boot.phase = .ready → s.set.held = false → s.set.overrun = true →
      s.chain.flit = none → s.chain.joining = none → s.chain.ending = none → s.chainSync = false →
      s.set.pend.Pairwise (fun a b => a.1 ≠ b.1) → (s.set.nextSaddle.isSome = true ∨ s.stepRuns = true) → calm s = true →
      let at_ := s.set.nextSaddle.getD s.time.now
      ∃ t, exec (.saddle dur) s = .next t ∧ t.set.step = s.set.step + 1 ∧ t.set.pend = [] ∧ t.set.pendBindings = [] ∧ t.set.pendQuotas = [] ∧
        (∀ n v, find n s.set.pend = some v → t.liveOf n = v) ∧ (∀ n, find n s.set.pend = none → t.liveOf n = s.liveOf n) ∧
        t.set.lastDur = dur ∧ t.set.overrun = false ∧ t.set.event = decide (t.liveOf 1 = 0) ∧
        t.set.nextSaddle = (if t.liveOf 1 = 0 then none else some (at_ + t.liveOf 1))) ∧
   (∀ (lo1 hi1 lo2 hi2 : W32) (s : State), s.boot.phase = .ready → s.chainSync = false → s.nextOf 3 = 0 →
      (∀ x ∈ [(lo1, hi1), (lo2, hi2)], scalarRange 1 x.1.toNat = true ∧ scalarRange 2 x.2.toNat = true) →
      ∃ t u, exec (.stepctlWrite (hi1 ++ lo1) true true) s = .next t ∧ exec (.stepctlWrite (hi2 ++ lo2) true true) t = .next u ∧
        find 1 t.set.pend = some (lo1.setWidth 64) ∧ find 2 t.set.pend = some (hi1.setWidth 64) ∧
        find 1 u.set.pend = some (lo2.setWidth 64) ∧ find 2 u.set.pend = some (hi2.setWidth 64))) ∧
  (∀ (s : State), s.boot.phase = .ready → s.set.overrun = false → (s.set.nextSaddle.isSome = true ∨ s.stepRuns = true) → calm s = true →
     ∃ t, exec .stepOverrun s = .next t ∧ t.set.overrun = true ∧
       (∀ (tile : Fin 256) (c : Fin 4), (s.core tile.val c.val).r.run = .running → (s.core tile.val c.val).awaits = none → (s.tile tile.val).halted = none →
         (t.core tile.val c.val).r.tcause = 8 ∧ (t.core tile.val c.val).r.run = .failed ∧
         ∀ n j, (s.core tile.val c.val).r.job = some n → t.job? n = some j → j.stop.isSome = true))

/-- Saddle flits and the chain's saddles (R182, R202, R203): the master's flit carries the next step number and the changes it has accepted; a
member takes the flit; a held saddle without its flit ends with the drive alone in a chain of one, and a flit more than 1 ms late is not taken; a change forwarded to the master is
accepted or refused by its checks, and the member is told.
Choices of the model in it, by log entry: a member completes its staging itself (37); a held saddle after the chain is left (94); the position of a drive outside its chain (142). -/
def Obligations.SaddleFlits : Prop :=
  (∀ s : State, s.boot.phase = .ready → s.chainSync = true → s.master = s.chain.pos.toNat → s.chain.flit = none →
    ∃ t, exec .saddleFlitSend s = .next t ∧ t.chain.flit = some (s.set.step + 1, s.chain.accepted) ∧ t.chain.accepted = [] ∧ t.set = s.set) ∧
  (∀ (step : W64) (changes : List StagedChange) (s : State), s.boot.phase = .ready → s.needsFlit = true → s.set.held = false →
    exec (.saddleFlitArrival step changes) s = .next { s with chain := { s.chain with flit := some (step, changes) } }) ∧
  (∀ s : State, s.set.held = true → s.chain.flit = none → calm s = true →
    ∃ t, exec .chainLeft s = .next t ∧ t.chain.inChain = false ∧ t.chain.pos = 0 ∧ t.chain.present = 1 ∧ t.liveOf 3 = 0 ∧ t.set.held = false ∧
      t.time.choff = 0 ∧ t.chain.record = s.chain.record) ∧
  (∀ (step : W64) (changes : List StagedChange) (s : State), s.boot.phase = .ready → s.set.held = true →
    (s.set.nextSaddle.getD s.time.now + 1000000).toNat < s.time.now.toNat → exec (.saddleFlitArrival step changes) s = .next s) ∧
  (∀ (m : Fin 8) (ch : StagedChange) (s t : State) (v : W64), s.boot.phase = .ready → s.chainSync = true → s.master = s.chain.pos.toNat →
    s.chain.present.getLsbD m.val = true → m.val ≠ s.chain.pos.toNat → s.toMaster ch.num.toNat ch.key ch.members = true →
    s.stageChange ch.num.toNat (if ch.num = 0x100 ∧ ch.value = 0 then 0 else ch.key) ch.value ch.members = .ok (v, t) →
    exec (.forwardedChange m ch) s = .next ((if ch.num = 0x21 then t.retryConsolidations else t).answer m.val stOk v)) ∧
  (∀ (m : Fin 8) (ch : StagedChange) (s : State) (e : W16), s.boot.phase = .ready → s.chainSync = true → s.master = s.chain.pos.toNat →
    s.chain.present.getLsbD m.val = true → m.val ≠ s.chain.pos.toNat → s.toMaster ch.num.toNat ch.key ch.members = true →
    s.stageChange ch.num.toNat (if ch.num = 0x100 ∧ ch.value = 0 then 0 else ch.key) ch.value ch.members = .error e →
    exec (.forwardedChange m ch) s = .next (s.answer m.val e 0))

/-! ## Settings, doorbells and the ledger -/

/-- DOORBELL, STAGE_SETTINGS, STAGE_SETTINGS_READ, QUEUE_RESUME, LEDGER_EXPORT and LEDGER_IMPORT (R198 to R201, R339, R385, R411, R412): the tail
of a submission queue; a scalar value in its range is staged and no live value changes; any other is refused with INVALID_FIELD; a read gives the
live or the staged value; a frozen queue resumes once nothing that froze it is unread; the ledger is exported, and imported entries wait for the
saddle.
Choices of the model in it, by log entry: an import of the ledger is no staged change (113). -/
def Obligations.HostSettings : Prop :=
  (∀ (ctrl : Fin 33) (q : W16) (x : Sq) (v : W32) (s : State), s.sq? ctrl q = some x → q ≠ 0 →
    4096 + 8 * q.toNat < (if ctrl = 0 then 0x4000 else 0x2000) →
    ∃ t, exec (.doorbell ctrl (BitVec.ofNat 16 (4096 + 8 * q.toNat)) v) s = .next t ∧
      (t.sq? ctrl q).map (fun x => x.tail.toNat) = some (v.toNat % 65536) ∧ t.host.out = s.host.out ∧ t.host.jobs = s.host.jobs) ∧
  (∀ (c : HostCmd) (s : State), adminTaken c s = true → s.chainSync = false →
    let u := s.leaveLow
    let num := c.cdw10.toNat % 65536
    let value := pair64 c.cdw11 c.cdw12
    let key := pair64 c.cdw13 c.cdw14
    c.cdw10.toNat < 0x100 → c.cdw15 = 0 → (scalarDefault num).isSome = true →
    (key = 0 → scalarRange num value.toNat = true → ¬ (num = 1 ∧ value = 0 ∧ s.nextOf 3 ≠ 0) → ¬ (num = 3 ∧ value ≠ 0 ∧ s.nextOf 1 = 0) →
      ∃ v : State, exec (.stageSettings c) s = .next (v.ok c 0) ∧ v.nextOf num = value ∧ (∀ m, m ≠ num → v.nextOf m = s.nextOf m) ∧
        ∀ m, v.liveOf m = s.liveOf m) ∧
    ((key ≠ 0 ∨ scalarRange num value.toNat = false) → exec (.stageSettings c) s = .next (u.failSt c stInvalidField))) ∧
  (∀ (c : HostCmd) (s : State), adminTaken c s = true →
    let u := s.leaveLow
    let num := c.cdw10.toNat % 65536
    (c.cdw10.getLsbD 16 = true → c.cdw10.toNat < 2 ^ 18 → (scalarDefault num).isSome = true →
      c.cdw13 = 0 → c.cdw14 = 0 → c.cdw15 = 0 →
      let x := if c.cdw10.getLsbD 17 then u.withAccepted.nextOf num else s.liveOf num
      exec (.stageSettingsRead c) s = .next (u.complete c (lo32 x) (hi32 x) nvOk)) ∧
    (c.cdw10.getLsbD 16 = false → exec (.stageSettingsRead c) s = .next (u.fail c nvInvalidField))) ∧
  (∀ (c : HostCmd) (ctrl : Fin 33) (s : State) (x : Sq), adminTaken c s = true → c.restZero = true → c.cdw10.toNat < 65536 → c.cdw11.toNat = ctrl.val →
    let q : W16 := c.cdw10.setWidth 16
    let first := s.host.defWritten.toNat - s.host.deferred.length
    let kept := s.host.deferred.zipIdx.any (fun e => !e.1.read && ((e.1.early && decide (first + e.2 < x.born)) ||
      (e.1.report == 2 && e.1.ctrl == ctrl && e.1.sqid == q && decide (x.born ≤ first + e.2))))
    s.sq? ctrl q = some x →
    (x.frozen = false → exec (.queueResume c) s = .next (s.leaveLow.ok c 0)) ∧
    (x.frozen = true → kept = true → exec (.queueResume c) s = .next (s.leaveLow.failSt c stQueueFrozen)) ∧
    (x.frozen = true → kept = false →
      ∃ v : State, exec (.queueResume c) s = .next (v.ok c 1) ∧ v.sq? ctrl q = some { x with frozen := false })) ∧
  (∀ (c : HostCmd) (s : State), adminTaken c s = true → c.cdw11 = 0 → c.restZero = true →
    (c.cdw10 = 0 → exec (.ledgerExport c) s = .next (s.leaveLow.reply c (s.media.ledgerNext.rdBytes 0 8192) 0)) ∧
    (c.cdw10 = 1 → c.nat 8192 64 ≠ 0 →
      ∃ v : State, exec (.ledgerImport c) s = .next (v.ok c 0) ∧ v.media.ledger = s.media.ledger ∧ v.set.pendLedgerOn = true ∧
        ∀ i, i < 512 → v.media.ledgerNext.rdBytes (16 * i) 16 =
          if (c.nat 8192 64).testBit i then c.bytes (16 * i) 16 else s.media.ledgerNext.rdBytes (16 * i) 16))

/-! ## Objects -/

/-- An object without the places of its units on flash. -/
def Sys2Proof.Claims.placeless (o : Obj) : Obj := { o with f := o.f.map (fun f => { f with places := [] }) }

/-- OBJECT_SEAL (R217, R235) of content that the host gives, as a new object that is no CODEBOOK: it is in the directory, sealed, under a handle
that named nothing, with its digest, and no other object changes but for where its units lie. OBJECT_DROP (R218): the handle names nothing more, or the object, while a job is
bound to it, is marked dropped. OBJECT_INFO (R219, R414): the 256 bytes. A handle that names nothing is refused with OBJECT_UNKNOWN. -/
def Obligations.ObjectsSealed : Prop :=
  (∀ (c : HostCmd) (s : State) (name : List Byte), adminTaken c s = true → calm s = true → nameOf (c.bytes 0 32) = some name →
    c.cdw10 = 0 → c.cdw11 = 0 → c.cdw12 = 0 → c.cdw13 = 0 → c.cdw14 = 0 → c.cdw15 = 0 → c.zero 52 12 = true → c.nat 49 1 = 1 → c.w32 32 = 0 →
    let typ := c.nat 48 1
    let copies := c.nat 51 1
    let n := c.nat 40 8
    let most := unitsOf (padTo 16 n) * copies
    typeListed typ = true → typ ≠ 3 → c.nat 50 1 ≤ 1 → 1 ≤ copies → copies ≤ 2 → 0 < n → n ≤ 2 ^ 30 →
    s.obj.dir.any (fun (_, o) => !name.isEmpty && o.name == name) = false → s.obj.dir.length < 4194304 → s.takeHandle.isSome = true →
    s.ftl.readOnly = false → s.usedUnits + 2048 * (most + copies * unitsOf (160 + 16 * n)) ≤ userUnits → (∀ ch, ch < 32 → s.channelTakes ch = true) →
    (pinnedClass typ = true → s.charged (s.clientOf c) 2 + 65536 * most ≤ s.quota (s.clientOf c) 2) →
    ∃ (v : State) (h : W32) (o : Obj), exec (.objectSeal c) s = .next (v.ok c h) ∧ s.obj? h = none ∧ v.obj? h = some o ∧
      o.state = 1 ∧ o.typ = typ ∧ o.owner = s.clientOf c ∧ o.size = n ∧ o.name = name ∧ o.copies = copies ∧ o.data = memOf (c.bytes 64 n) ∧
      o.digest = digestOf (c.bytes 64 n) ∧ o.f.isSome = true ∧
      ∀ k, k ≠ h → (v.obj? k).map placeless = (s.obj? k).map placeless) ∧
  (∀ (c : HostCmd) (s : State), adminTaken c s = true → c.cdw11 = 0 → c.cdw12 = 0 → c.cdw13 = 0 → c.cdw14 = 0 → c.cdw15 = 0 →
    let u := s.leaveLow
    let h := c.cdw10
    (s.live? h = none → exec (.objectDrop c) s = .next (u.failSt c stObjectUnknown)) ∧
    (s.obj? h = none → exec (.objectInfo c) s = .next (u.failSt c stObjectUnknown)) ∧
    (∀ o, s.obj? h = some o → exec (.objectInfo c) s = .next (u.reply c o.info 0) ∧ o.info.length = 256) ∧
    (∀ o, s.live? h = some o → s.boundTo h = false → ∃ v : State, exec (.objectDrop c) s = .next (v.ok c 0) ∧ v.obj? h = none) ∧
    (∀ o, s.live? h = some o → s.boundTo h = true → s.idx.all = [] →
      ∃ v : State, exec (.objectDrop c) s = .next (v.ok c 0) ∧ v.obj? h = some { o with dropped := true, byHost := true }))

/-- PIN_S, PIN_D, UNPIN_S, UNPIN_D, MAP and UNMAP (R219 to R222, R225, R226, R394): the copy stands where the command says, pinned, when the rows or
units are free and the quota allows it; unpinning leaves the copy in the shared pool; a mapped copy has its window. -/
def Obligations.ObjectsPlaced : Prop :=
  ∀ (c : HostCmd) (s : State) (o : Obj), adminTaken c s = true → s.live? c.cdw10 = some o → c.cdw14 = 0 → c.cdw15 = 0 →
    let h := c.cdw10
    let n := unitsOf o.size
    (∀ ui, (c.cdw11 = 0 ∨ c.cdw11 = 256) → c.cdw12.toNat < 2 ^ 27 → c.cdw13 = 0 → s.unit? (c.cdw12.setWidth 16) = some ui →
      o.s = none → o.case_ ≠ 3 →
      let brow := c.cdw12.toNat / 65536 % 2048
      let rows := partRows o.size ui.total (c.cdw11.getLsbD 8)
      let new : SCopy := ⟨c.cdw12.setWidth 16, ui.tiles, c.cdw11.getLsbD 8, brow, rows, true, s.time.now, s.tilesBefore ui, ui.total⟩
      brow + rows ≤ 2048 → (∀ t ∈ ui.tiles, s.rowsFree t brow (new.heldBy o.size t) h.toNat = true) → s.loads o = true →
      (s.setObj h o).withinQuota o 0 (1024 * new.allRows o.size) = true →
      ∃ v : State, exec (.pinS c) s = .next (v.ok c 0) ∧ (v.obj? h).map (fun o => o.s) = some (some new)) ∧
    (c.cdw11 = 1 → c.cdw12 = 0 → c.cdw13 = 0 → o.case_ ≠ 3 → s.withinQuota o 1 (65536 * n) = true →
      (∀ d, o.d = some d → d.pinned = false →
        ∃ v : State, exec (.pinD c) s = .next (v.ok c 0) ∧ (v.obj? h).map (fun o => o.d) = some (some { d with pinned := true })) ∧
      (o.d = none → s.loads o = true → s.tierDUsed + n ≤ s.tierDCap →
        ∃ v : State, exec (.pinD c) s = .next (v.ok c 0) ∧ (v.obj? h).map (fun o => o.d) = some (some (s.newD h o.size true)))) ∧
    (c.cdw11 = 2 → c.cdw12 = 0 → c.cdw13 = 0 →
      ∃ v : State, exec (.unpinS c) s = .next (v.ok c 0) ∧
        (v.obj? h).map (fun o => o.s) = some (o.s.map (fun x => { x with pinned := false }))) ∧
    (c.cdw11 = 3 → c.cdw12 = 0 → c.cdw13 = 0 →
      ∃ v : State, exec (.unpinD c) s = .next (v.ok c 0) ∧
        (v.obj? h).map (fun o => o.d) = some (o.d.map (fun x => { x with pinned := false }))) ∧
    (∀ d, c.cdw11 = 4 → c.cdw12 = 0 → o.d = some d → c.cdw13.toNat + n ≤ windowUnits → s.windowFree h.toNat c.cdw13.toNat n = true →
      (d.pinned = true ∨ o.window.isSome = true ∨ s.withinQuota o 1 (65536 * n) = true) →
      ∃ v : State, exec (.map c) s = .next (v.ok c 0) ∧ v.obj? h = some { o with window := some c.cdw13.toNat }) ∧
    (c.cdw11 = 5 → c.cdw12 = 0 → c.cdw13 = 0 →
      ∃ v : State, exec (.unmap c) s = .next (v.ok c 0) ∧ v.obj? h = some { o with window := none })

/-! ## Extents, programs and the memory namespace -/

/-- EXTENT_ALLOCATE and EXTENT_FREE (R345, R415): an extent of the blocks asked for, under a new handle, belongs to the client once every block is
erased, and until then the command waits; a bound extent is
marked to be freed, another is gone at once, and only its owner frees it. LOAD_PROGRAM, PROGRAM_ACTIVATION_MANAGEMENT and EXECUTE_PROGRAM (R393; their dwords
are the model's, log entry 41): an image whose text may be loaded is sealed and takes the index; an active index starts a job on the whole
drive. MEMORY_READ and MEMORY_WRITE (R394): bytes of the Tier D copy under the window; a sealed object is not written. -/
def Obligations.ExtentsProgramsAndMemory : Prop :=
  (∀ (c : HostCmd) (s w x : State) (h : W32) (js : List Nat), adminTaken c s = true →
    let u := s.leaveLow
    let n := c.cdw11.toNat
    (c.cdw10 = 0 ∨ c.cdw10 = 4) → 0 < n → c.cdw12 = 0 → c.cdw13 = 0 → c.cdw14 = 0 → c.cdw15 = 0 → u.ftl.readOnly = false →
    u.usedUnits + 2048 * n ≤ userUnits → (∀ i, i < n → (u.die (dieOfBlock i)).failed = false) → u.takeHandle = some (h, w) →
    w.allotBlocks h.toNat (c.cdw10.getLsbD 2) (List.range n) = some (js, x) → (∀ e ∈ s.media.extents, e.2.waits = none) →
    let erasing := ∃ i j, i < n ∧ js[i]? = some j ∧ ((x.die (dieOfBlock i)).blk ((x.die (dieOfBlock i)).ringPos j)).erasing = true
    (¬ erasing → ∃ (v : State) (e : Extent), exec (.extentAllocate c) s = .next (v.ok c h) ∧ s.extent? h = none ∧ v.extent? h = some e ∧
      e.owner = s.clientOf c ∧ e.blocks = n ∧ e.qlc = c.cdw10.getLsbD 2 ∧ e.slots = js) ∧
    (erasing → ∃ (v : State) (e : Extent), exec (.extentAllocate c) s = .next v ∧ v.extent? h = none ∧ find h.toNat v.media.extents = some e ∧
      e.waits = some c ∧ e.slots = js ∧ v.host.out = s.host.out)) ∧
  (∀ (c : HostCmd) (s : State) (e : Extent), adminTaken c s = true →
    let h := c.cdw12
    c.cdw10 = 1 → c.cdw11 = 0 → c.cdw13 = 0 → c.cdw14 = 0 → c.cdw15 = 0 → h ≠ 0 → s.extent? h = some e →
    (e.owner ≠ s.clientOf c → exec (.extentFree c) s = .next (s.leaveLow.failSt c stMediaNotOwned)) ∧
    (e.owner = s.clientOf c → s.extentBound h = true →
      ∃ v : State, exec (.extentFree c) s = .next (v.ok c 0) ∧ v.extent? h = some { e with freed := true }) ∧
    (e.owner = s.clientOf c → s.extentBound h = false →
      ∃ v : State, exec (.extentFree c) s = .next (v.ok c 0) ∧ v.extent? h = none)) ∧
  (∀ (c : HostCmd) (s : State), adminTaken c s = true → c.nsid = s.host.nsCompute →
    let pind := c.cdw10.toNat % 65536
    let n := c.cdw11.toNat
    let bytes := c.bytes 0 n
    let o : Obj := { typ := 8, owner := s.clientOf c, size := n, state := 0, copies := 1, data := memOf bytes }
    (pind < 64 → c.cdw10.getLsbD 24 = false → 0 < n → find pind s.host.programs = none → textOk (textWords o) = true →
      s.obj.dir.length < 4194304 → s.takeHandle.isSome = true → s.ftl.readOnly = false →
      s.usedUnits + 2048 * (unitsOf (padTo 16 n) + unitsOf (160 + 16 * n)) ≤ userUnits → (∀ ch, ch < 32 → s.channelTakes ch = true) →
      s.charged (s.clientOf c) 2 + 65536 * unitsOf (padTo 16 n) ≤ s.quota (s.clientOf c) 2 →
      ∃ (v : State) (h : W32) (o : Obj), exec (.loadProgram c) s = .next (v.ok c h) ∧ find pind v.host.programs = some (h, false) ∧
        v.obj? h = some o ∧ o.typ = 8 ∧ o.state = 1 ∧ o.data = memOf bytes) ∧
    (∀ h b, c.cdw10.toNat / 65536 % 16 ≤ 1 → find pind s.host.programs = some (h, b) →
      ∃ v : State, exec (.programActivationManagement c) s = .next (v.ok c 0) ∧
        find pind v.host.programs = some (h, decide (c.cdw10.toNat / 65536 % 16 = 1)))) ∧
  (∀ (c : HostCmd) (s : State) (h : W32) (o : Obj), ioTaken c s = true → calm s = true → c.nsid = s.host.nsCompute →
    c.cdw2to5.toNat / 65536 % 65536 = 0 → c.cdw10.toNat ≤ 56 → 128 ≤ c.cdw11.toNat →
    find (c.cdw2to5.toNat % 65536) s.host.programs = some (h, true) → (ioState c s).programAt h = .ok o →
    (((ioState c s).unit? 0x8000).isSome = true →
      ∃ t j args, exec (.executeProgram c) s = .next t ∧ t.host.jobs = s.host.jobs ++ [j] ∧ j.num = s.freshNum.toNat ∧
        j.kind = .program h 0x8000 0xF args [] ∧ args.length = 7 ∧ j.phase = .waiting ∧ j.outLen = c.cdw11.toNat) ∧
    ((ioState c s).unit? 0x8000 = none → exec (.executeProgram c) s = .next ((ioState c s).failSt c stInvalidGroup))) ∧
  (∀ (c : HostCmd) (s : State) (h : W32) (o : Obj) (b off : Nat), ioTaken c s = true → c.nsid = s.host.nsMemory →
    s.obj? h = some o → (h.toNat, o) ∈ s.obj.dir → o.window = some b → slbaOf c = 65536 * b + off →
    let n := c.cdw12.toNat
    off + n ≤ o.size →
    (∀ e ∈ s.obj.dir, e ≠ (h.toNat, o) → ∀ x, e.2.window = some x → x + unitsOf e.2.size ≤ b ∨ b + unitsOf o.size ≤ x) →
    (∀ d, o.d = some d → d.bad = [] → o.gone = [] →
      ∃ v : State, exec (.memoryRead c) s = .next (v.reply c (o.data.rdBytes off n) 0) ∧ ∀ k, k ≠ h → v.obj? k = s.obj? k) ∧
    (o.state = 0 → ∃ v : State, exec (.memoryWrite c) s = .next (v.ok c 0) ∧
      (0 < n → (v.obj? h).map (fun o => o.data.rdBytes off n) = some (c.bytes 0 n)) ∧ ∀ k, k ≠ h → v.obj? k = s.obj? k) ∧
    (o.state ≠ 0 → 0 < n → exec (.memoryWrite c) s = .next ((ioState c s).failSt c stObjectSealed)))

/-! ## Queues and controllers -/

/-- Queue creation and deletion, clients and resources (R387 to R389), CONTROLLER_ENABLE and CONTROLLER_DISABLE (R389, R442): a queue has its size
and its completion queue; a queue without jobs is gone at once, with the completion of its Delete; one with a running job waits for it; a
submission queue takes its client; a secondary controller takes its resources; CSTS.RDY follows CC.EN once the drive is ready.
Choices of the model in it, by log entry: the dwords of NVMe commands (42) and the actions of Virtualization Management (105). -/
def Obligations.QueuesAndControllers : Prop :=
  (∀ (c : HostCmd) (s : State), adminTaken c s = true →
    let k := s.ctrl c.ctrl
    let q := c.cdw10.toNat % 65536
    let size := c.cdw10.toNat / 65536
    let high : W16 := c.cdw11.extractLsb' 16 16
    let n := s.pairsOf c.ctrl
    0 < q → q ≤ n → 0 < size → size ≤ 0x3FFF → c.cdw11.getLsbD 0 = true →
    (find q k.cqs = none → k.cqs.length < n → high.toNat < s.vectorsOf c.ctrl →
      ∃ v : State, exec (.createIoCompletionQueue c) s = .next (v.ok c 0) ∧
        find q (v.ctrl c.ctrl).cqs = some ⟨BitVec.ofNat 16 size, high, c.cdw11.getLsbD 1, 0⟩) ∧
    (find q k.sqs = none → k.sqs.length < n → (find high.toNat k.cqs).isSome = true →
      ∃ (v : State) (x : Sq), exec (.createIoSubmissionQueue c) s = .next (v.ok c 0) ∧ find q (v.ctrl c.ctrl).sqs = some x ∧
        x.cqid = high ∧ x.size = BitVec.ofNat 16 size ∧ x.client = BitVec.ofNat 6 c.ctrl.val ∧ x.deleting = none ∧
        x.frozen = s.host.deferred.any (fun e => e.early && !e.read))) ∧
  (∀ (c : HostCmd) (s : State) (x : Sq), adminTaken c s = true →
    let q : W16 := c.cdw10.setWidth 16
    s.sq? c.ctrl q = some x → x.deleting = none → (s.ctrl c.ctrl).sqs.Pairwise (fun a b => a.1 ≠ b.1) →
    ((∀ j ∈ s.host.jobs, ¬ (j.ctrl = c.ctrl ∧ j.sqid = q)) →
      ∃ t, exec (.deleteIoSubmissionQueue c) s = .next t ∧ t.sq? c.ctrl q = none ∧
        HostOut.done ⟨c.ctrl, 0, c.cid, 0, 0, 0, 0⟩ ∈ t.host.out ++ t.host.held) ∧
    ((∃ j ∈ s.host.jobs, j.ctrl = c.ctrl ∧ j.sqid = q ∧ j.submitted = true ∧ j.phase = .admitted) → (∀ j ∈ s.host.jobs, j.phase ≠ .waiting) →
      ∃ t, exec (.deleteIoSubmissionQueue c) s = .next t ∧ (t.sq? c.ctrl q).map (fun x => x.deleting) = some (some c.cid) ∧
        ∀ j ∈ t.host.jobs, j.ctrl = c.ctrl → j.sqid = q → j.submitted = true → j.silent = true ∧ j.stop = some stAborted)) ∧
  (∀ (c : HostCmd) (s : State) (ctrl : Fin 33) (x : Sq), adminTaken c s = true → c.ctrl = 0 → c.cdw10.toNat % 256 = 0xC1 →
    c.cdw11.toNat = ctrl.val → c.cdw12.toNat < 4194304 → s.sq? ctrl (c.cdw12.setWidth 16) = some x →
    ∃ v : State, exec (.queueClient c) s = .next (v.ok c 0) ∧
      v.sq? ctrl (c.cdw12.setWidth 16) = some { x with client := c.cdw12.extractLsb' 16 6 }) ∧
  (∀ (c : HostCmd) (s : State) (ctrl : Fin 33), adminTaken c s = true → c.ctrl = 0 → c.cdw10.toNat % 16 = 8 →
    c.cdw10.toNat / 256 % 8 = 0 → c.cdw10.toNat / 65536 = ctrl.val → ctrl ≠ 0 →
    let n := c.cdw11.toNat % 65536
    n + ((s.host.ctrls.filter (fun y => y.1 != 0 && y.1 != ctrl.val)).map (fun y => y.2.pairs)).foldl (· + ·) 0 ≤ 256 →
    ∃ v : State, exec (.virtualizationManagement c) s = .next (v.ok c (BitVec.ofNat 32 n)) ∧ v.pairsOf ctrl = n) ∧
  (∀ (ctrl : Fin 33) (s : State),
    let k := s.ctrl ctrl
    (s.boot.phase = .recovery → ctrl ≠ 0 → exec (.controllerEnable ctrl) s = .next s) ∧
    (k.en = false → k.disabling = false → k.cfs = false → s.boot.phase ≠ .off → s.boot.phase ≠ .shutDown → (s.boot.phase ≠ .recovery ∨ ctrl = 0) →
      ∃ t, exec (.controllerEnable ctrl) s = .next t ∧ (t.ctrl ctrl).en = true ∧ (t.ctrl ctrl).rdy = decide (s.boot.phase = .ready) ∧
        (t.ctrl ctrl).sqs = k.sqs ∧ t.host.jobs = s.host.jobs) ∧
    (k.en = true → k.cfs = false → (∀ j ∈ s.host.jobs, j.ctrl ≠ ctrl) →
      ∃ t, exec (.controllerDisable ctrl) s = .next t ∧ (t.ctrl ctrl).en = false ∧ (t.ctrl ctrl).rdy = false ∧
        (t.ctrl ctrl).disabling = false ∧ (t.ctrl ctrl).sqs = []))

/-! ## Features, logs and attestation -/

/-- POWER_MANAGEMENT, TIMESTAMP, DEVICE_SELF_TEST, SELF_TEST_OPERATION_END, GET_LOG_PAGE, ATTEST and ATTEST_CERTIFICATE (R181, R189, R208, R409, R410,
R416, R418, R435, R436): a power state waits for the saddle; the epoch gains the minutes that the drive was unpowered; a self-test runs
until it ends or is aborted; an entry of the cairn log is read by its number; reading the deferred write errors marks them read; a report holds the
host's nonce, and a certificate comes after its length.
Choices of the model in it, by log entry: the numbers of NVMe statuses (28) and the dwords of NVMe commands (42). -/
def Obligations.HostFeatures : Prop :=
  ∀ (c : HostCmd) (s : State), adminTaken c s = true →
    let u := s.leaveLow
    (c.cdw10.toNat % 256 = 2 → c.cdw11.toNat % 32 ≤ 4 →
      ∃ v : State, exec (.powerManagement c) s = .next (v.ok c 0) ∧ v.set.pendPower = some (c.cdw11.toNat % 32) ∧ v.pwr = u.pwr) ∧
    (c.cdw10.toNat % 256 = 0x0E →
      ∃ v : State, exec (.timestamp c) s = .next (v.ok c 0) ∧ v.time.hostStamp = some (c.nat 0 6, v.time.epoch.toNat) ∧
        (s.time.hostStamp = none → v.time.epoch = s.time.epoch) ∧
        (∀ ms e, s.time.hostStamp = some (ms, e) →
          v.time.epoch = s.time.epoch + BitVec.ofNat 32 ((c.nat 0 6 - ms) / 60000 - (s.time.epoch.toNat - e)))) ∧
    ((c.cdw10.toNat % 16 = 1 ∨ c.cdw10.toNat % 16 = 2) → (s.ctrl c.ctrl).selfTest = false →
      ∃ v : State, exec (.deviceSelfTest c) s = .next (v.ok c 0) ∧ (v.ctrl c.ctrl).selfTest = true) ∧
    (c.cdw10.toNat % 16 = 15 →
      ∃ v : State, exec (.deviceSelfTest c) s = .next (v.ok c 0) ∧ (v.ctrl c.ctrl).selfTest = false) ∧
    (∃ t, exec (.selfTestOperationEnd c.ctrl) s = .next t ∧ (t.ctrl c.ctrl).selfTest = false) ∧
    (∀ i, c.cdw10 = 0x000300C1 → c.cdw11.toNat % 65536 = 0 → (pair64 c.cdw12 c.cdw13).toNat = 16 * i →
      exec (.getLogPage c) s = .next (u.reply c (leBytes 16 (s.logEntry i).toNat) 0)) ∧
    (c.cdw10 = 0x100F00C2 → c.cdw11.toNat % 65536 = 0 → c.cdw12 = 0 → c.cdw13 = 0 →
      ∃ v : State, exec (.getLogPage c) s = .next (v.reply c (s.defPage.rdBytes 0 16448) 0) ∧
        v.host.deferred = s.host.deferred.map (fun e => { e with read := true })) ∧
    (c.cdw10.toNat % 256 = 0xC3 → c.cdw12 = 0 → c.cdw13 = 0 → exec (.getLogPage c) s = .next (u.fail c (1, 0x09))) ∧
    (c.cdw10 = 0 → ∃ bs, exec (.attest c) s = .next (u.reply c bs 0) ∧ bs.length = 3565 ∧ bs.take 4 = [0x55, 0x5A, 0x41, 0x54] ∧
      (bs.drop 16).take 32 = c.bytes 0 32 ∧ (bs.drop 48).take 64 = leBytes 64 s.sec.imageDigest.toNat) ∧
    (c.cdw10 = 1 → ∃ bs, exec (.attestCertificate c) s = .next (u.reply c bs 0) ∧ 4 ≤ bs.length ∧ bs.length ≤ 4096 ∧
      leNat (bs.take 4) + 4 = bs.length)

/-- FORMAT_NVM and SANITIZE_CRYPTO_ERASE (R365, R438, R439): the namespaces hold nothing more, and neither does a sealed object that no job is
bound to; keys are drawn anew. FIRMWARE_IMAGE_DOWNLOAD and FIRMWARE_COMMIT (R434, R453, R454): the pieces are staged, and the writing
of an image that checks begins, at whose end the commit completes (TIME_SYNC); no other commit is taken meanwhile.
Choices of the model in it, by log entry: the dwords of NVMe commands (42); the time and the cut of a slot write (104); Format NVM with SES 0 (106). -/
def Obligations.ErasesAndFirmware : Prop :=
  (∀ (c : HostCmd) (s : State) (n : Nspace), adminTaken c s = true →
    let ses := c.cdw10.toNat / 512 % 8
    let big := decide (c.cdw10.toNat % 16 = 1)
    ses ≤ 2 → c.cdw10.toNat % 16 ≤ 1 → s.ftl.readOnly = false → c.nsid ≠ 0xFFFFFFFF → s.space? c.nsid = some n → 0 < s.slotsFree →
    s.ftl.spaces.Pairwise (fun a b => a.1 ≠ b.1) →
    ∃ (v : State) (size : Nat), exec (.formatNvm c) s = .next (v.ok c 0) ∧ v.space? c.nsid = some ⟨n.nsx, big, size⟩ ∧
      (n.big = big → size = n.size) ∧ (∀ lua, lua < n.units → v.mapEnt n.nsx lua = ⟨0, 0⟩ ∧ ∀ a, (v.unitView n.nsx lua).data.rd a = 0) ∧
      v.sec.keysDrawn = (if ses = 0 then s.sec.keysDrawn else s.sec.keysDrawn + 1)) ∧
  (∀ (c : HostCmd) (s : State), adminTaken c s = true → c.cdw10.toNat % 8 = 4 → s.ftl.readOnly = false → s.ftl.spaces.length ≤ s.slotsFree →
    ∃ v : State, exec (.sanitizeCryptoErase c) s = .next (v.ok c 0) ∧
      (∀ e ∈ s.ftl.spaces, ∀ lua, lua < e.2.units → v.mapEnt e.2.nsx lua = ⟨0, 0⟩ ∧ ∀ a, (v.unitView e.2.nsx lua).data.rd a = 0) ∧
      (∀ h o, v.obj? h = some o → o.state = 0 ∨ o.dropped = true) ∧ (∀ h e, v.extent? h = some e → e.freed = true) ∧
      s.sec.keysDrawn < v.sec.keysDrawn) ∧
  (∀ (c : HostCmd) (s : State), adminTaken c s = true →
    let n := 4 * (c.cdw10.toNat + 1)
    let off := 4 * c.cdw11.toNat
    n % 4096 = 0 → off % 4096 = 0 → off + n ≤ imageMax →
    ∃ v : State, exec (.firmwareImageDownload c) s = .next (v.ok c 0) ∧ v.sec.staged.rdBytes off n = c.bytes 0 n ∧
      (∀ i, off ≤ 4096 * i → 4096 * i < off + n → i ∈ v.sec.pieces) ∧ v.sec.slot = s.sec.slot) ∧
  (∀ (c : HostCmd) (man : Manifest) (s : State), adminTaken c s = true → c.cdw10.toNat % 8 ≤ 1 →
    (c.cdw10.toNat / 8 % 8 = 0 ∨ c.cdw10.toNat / 8 % 8 = 1) → man.bytes ≠ 0 → man.bytes.toNat ≤ imageMax →
    (∀ i, 4096 * i < man.bytes.toNat → i ∈ s.sec.pieces) →
    (s.sec.slotWrite = none → s.imageError man = 0 →
      ∃ (v : State) (w : SlotWrite) (k : Nat), exec (.firmwareCommit c man) s = .next v ∧ v.sec.slotWrite = some w ∧ w.man = man ∧
        w.bytes = s.sec.staged ∧ w.cmd = some c ∧ k ≤ 2000000000 ∧ w.ends = s.time.now + BitVec.ofNat 64 k ∧ v.sec.slot = none ∧
        v.sec.imageSvn = s.sec.imageSvn ∧ v.host = s.host) ∧
    (s.sec.slotWrite = none → s.imageError man ≠ 0 → exec (.firmwareCommit c man) s = .next (s.leaveLow.fail c (1, 0x07))) ∧
    (s.sec.slotWrite.isSome = true → exec (.firmwareCommit c man) s = .next (s.leaveLow.fail c (0, 0x0C))))

/-! ## Mapped namespaces -/

/-- READ, WRITE, FLUSH, VERIFY, WRITE_ZEROES, DATASET_MANAGEMENT and NAMESPACE_MANAGEMENT (R354, R361, R364, R365, R391, R392): written blocks read back
as they were written, zeroed and deallocated blocks read as zeros, a range with a block that does not read fails whole, and a namespace is created,
resized and deleted. (Which namespace management operation a dword selects is the model's, log entry 31.) -/
def Obligations.BlocksReadBack : Prop :=
  (∀ (c : HostCmd) (s : State) (n : Nspace), ioTaken c s = true → s.space? c.nsid = some n → c.fuse = 0 → s.sec.mbk = true →
    let u := ioState c s
    let slba := slbaOf c
    let nlb := nlbOf c
    let parts := n.parts slba nlb
    let fresh := ∀ p ∈ parts, (s.mapEnt n.nsx p.1).state ≠ 2
    slba + nlb ≤ n.size → s.mapWaits n slba nlb = false →
    (∀ bs, nlb * n.blockBytes ≤ 2097152 → (List.range nlb).mapM (fun i => s.readBlock n (slba + i)) = some bs →
      exec (.read c) s = .next (u.reply c bs.flatten 0)) ∧
    (∀ i, nlb * n.blockBytes ≤ 2097152 → i < nlb → s.readBlock n (slba + i) = none → exec (.read c) s = .next (u.fail c nvUnrecovered)) ∧
    ((∀ i, i < nlb → (s.readBlock n (slba + i)).isSome = true) → exec (.verify c) s = .next (u.ok c 0)) ∧
    (∀ i, i < nlb → s.readBlock n (slba + i) = none → exec (.verify c) s = .next (u.fail c nvUnrecovered)) ∧
    exec (.flush c) s = .next (u.ok c 0) ∧
    (s.ftl.readOnly = true → exec (.write c) s = .next (u.fail c nvWriteProtected)) ∧
    (s.ftl.readOnly = false → nlb * n.blockBytes ≤ 2097152 → s.ftl.waiting ≠ [] →
      exec (.write c) s = .next { u with ftl := { u.ftl with waiting := u.ftl.waiting ++ [c] } }) ∧
    (s.ftl.readOnly = false → nlb * n.blockBytes ≤ 2097152 → fresh → s.roomFor parts.length = true → s.ftl.waiting = [] →
      ∃ v : State, exec (.write c) s = .next (v.ok c 0) ∧
        ∀ i, i < nlb → v.readBlock n (slba + i) = some (c.bytes (i * n.blockBytes) n.blockBytes)) ∧
    (s.ftl.readOnly = false → fresh → s.roomFor (parts.length + 1) = true →
      ∃ v : State, exec (.writeZeroes c) s = .next (v.ok c 0) ∧
        ∀ i, i < nlb → v.readBlock n (slba + i) = some (List.replicate n.blockBytes 0))) ∧
  (∀ (c : HostCmd) (s : State) (n : Nspace), ioTaken c s = true → s.space? c.nsid = some n → c.fuse = 0 → s.sec.mbk = true →
    s.ftl.readOnly = false → c.cdw10.toNat % 256 = 0 → c.cdw11.getLsbD 2 = true →
    let slba := c.nat 8 8
    let nlb := c.nat 4 4
    let parts := n.parts slba nlb
    slba + nlb ≤ n.size → s.mapWaits n slba nlb = false → (∀ p ∈ parts, (s.mapEnt n.nsx p.1).state ≠ 2) → s.roomFor (parts.length + 1) = true →
    ∃ v : State, exec (.datasetManagement c) s = .next (v.ok c 0) ∧
      ∀ i, i < nlb → v.readBlock n (slba + i) = some (List.replicate n.blockBytes 0)) ∧
  (∀ (c : HostCmd) (s : State), adminTaken c s = true → c.ctrl = 0 →
    let size := c.nat 0 8
    let big := decide ((c.byte 26).toNat % 16 = 1)
    let new (nsx : Nat) : Nspace := ⟨nsx, big, size⟩
    (c.cdw10.toNat % 16 = 0 → (c.byte 26).toNat % 16 ≤ 1 → 0 < size → s.ftl.spaces.length < 256 → s.usedUnits + (new 0).units ≤ userUnits →
      ∃ (v : State) (id : W32) (nsx : Nat), exec (.namespaceManagement c) s = .next (v.ok c id) ∧ v.space? id = some (new nsx) ∧
        s.space? id = none ∧ id ≠ 0) ∧
    (∀ n, c.cdw10.toNat % 16 = 1 → c.nsid ≠ 0xFFFFFFFF → s.space? c.nsid = some n → 0 < s.slotsFree →
      ∃ v : State, exec (.namespaceManagement c) s = .next (v.ok c 0) ∧ v.space? c.nsid = none ∧
        ∀ lua, lua < n.units → v.mapEnt n.nsx lua = ⟨0, 0⟩) ∧
    (∀ n, c.cdw10.toNat % 16 = 2 → 0 < size → s.space? c.nsid = some n → 0 < s.slotsFree →
      s.usedUnits + ({ n with size := size } : Nspace).units - n.units ≤ userUnits →
      ∃ v : State, exec (.namespaceManagement c) s = .next (v.ok c 0) ∧ v.space? c.nsid = some { n with size := size } ∧
        ∀ lua, lua < n.units → ({ n with size := size } : Nspace).units ≤ lua → v.mapEnt n.nsx lua = ⟨0, 0⟩))

/-- SUB_UNIT_MERGE, BUFFER_PROGRAM, GARBAGE_COLLECTION, PATROL and WINDOW_MOVE, with the ends of their programs and erases (R330, R350, R361 to R369, R377):
a buffered image is whole after its merge; a word line goes to its die, and when it is programmed its units leave the buffer and stand in the open block, in
order; the copies of a victim go to the target's die, and when they are programmed the map entries that still name their sources switch; a victim's erase frees
it; a closed block is read once a week of epoch; an empty position of the next die's window moves at once, a block after the target's erase and its last program.
Choices of the model in it, by log entry: which units a program takes (86); what media management does in one action (210). -/
def Obligations.UnitsMove : Prop :=
  (∀ (slot : Nat) (readable : Bool) (s : State) (b : FUnit), find slot s.ftl.buf = some b → b.kind = .data → b.valid ≠ 0xFFFF → s.ftl.closing = [] →
    let f := s.flashView b.old
    let mapped := b.old.state = 1 ∨ b.old.state = 3
    (¬ mapped ∨ (readable = true ∧ f.bad = 0) →
      ∃ t, exec (.subUnitMerge slot readable) s = .next t ∧
        find slot t.ftl.buf = some { b with data := overSlots b.valid b.data f.data, lost := b.lost ||| (f.lost &&& ~~~ b.valid), valid := 0xFFFF }) ∧
    (mapped → readable = false →
      ∃ t, exec (.subUnitMerge slot readable) s = .next t ∧
        find slot t.ftl.buf = some { b with data := overSlots b.valid b.data [], lost := ~~~ b.valid, valid := 0xFFFF })) ∧
  (∀ (slots : List Nat) (die : Fin 512) (pos : Fin 4096) (fails : Bool) (s : State),
    let d := die.val
    let us := slots.filterMap (fun i => (find i s.ftl.buf).map (fun u => (u, (⟨2, i⟩ : MapEnt))))
    slots.Nodup → (∀ i ∈ slots, (find i s.ftl.buf).map (fun u => u.valid) = some 0xFFFF ∧ s.slotQueued i = false) →
    s.takesUnits d pos.val slots.length = true → (s.die d).idle = true → ((s.die d).blk pos.val).use = .open_ → s.inTurn d = true → s.mute = false →
    ∃ t, exec (.bufferProgram slots die pos fails) s = .next t ∧ (t.die d).writing = some ⟨pos.val, false, true, .units us none fails⟩ ∧
      (t.chanOf d).progs = (s.chanOf d).progs + 1 ∧ t.ftl.lastDie = some d ∧ t.ftl.buf = s.ftl.buf ∧ t.ftl.map = s.ftl.map ∧ t.ftl.units = s.ftl.units) ∧
  (∀ (die : Fin 512) (w : DieWrite) (us : List (FUnit × MapEnt)) (victim : Option (Nat × Bool)) (s : State),
    let d := die.val
    let b := (s.die d).blk w.pos
    (s.die d).writing = some w → w.erase = false → w.serves = .units us victim false → (s.die d).suspended = false → b.use = .open_ →
    b.wp + us.length ≤ 2047 → s.ftl.waiting = [] → s.ftl.zeroing = [] → s.ftl.closing = [] → s.host.recs = [] → s.host.issued = [] →
    let at_ (k : Nat) := puaOf d w.pos (b.wp + k)
    let named (k : Nat) (u : FUnit) := u.kind = .data ∧ ∀ j v e, us[j]? = some (v, e) → mapKey v.nsx v.lua = mapKey u.nsx u.lua → j = k
    (victim = none → b.qlc = true → (∀ x ∈ us, x.2.state = 2 ∧ find x.2.at_ s.ftl.buf = some x.1) → (us.map (fun x => x.2.at_)).Nodup →
      ∃ t, exec (.dieProgramDone die true) s = .next t ∧ (∀ x ∈ us, find x.2.at_ t.ftl.buf = none) ∧
        (∀ i, i ∉ us.map (fun x => x.2.at_) → find i t.ftl.buf = find i s.ftl.buf) ∧
        (∀ (k : Nat) (u : FUnit) (e : MapEnt), us[k]? = some (u, e) →
          (∃ v, find (at_ k) t.ftl.units = some v ∧ v.data = u.content ∧ v.seq = u.seq ∧ v.lost = u.lost ∧ v.minute = s.time.epoch.toNat) ∧
          (named k u → s.mapEnt u.nsx u.lua = e → t.mapEnt u.nsx u.lua = ⟨if u.lost = 0 then 1 else 3, at_ k⟩)) ∧
        ((t.die d).blk w.pos).wp = if b.wp + us.length = 2047 then 2048 else b.wp + us.length) ∧
    (∀ key bad, victim = some (key, bad) → key ≠ 4096 * d + w.pos →
      ∃ t, exec (.dieProgramDone die true) s = .next t ∧
        ∀ (k : Nat) (u : FUnit) (e : MapEnt), us[k]? = some (u, e) →
          (∃ v, find (at_ k) t.ftl.units = some v ∧ v.data = u.content ∧ v.seq = u.seq ∧ v.gen = u.gen ∧ v.lost = u.lost ∧ v.minute = u.minute ∧ v.temp = u.temp) ∧
          (named k u → t.mapEnt u.nsx u.lua = if s.mapEnt u.nsx u.lua = e then ⟨if u.lost = 0 then 1 else 3, at_ k⟩ else s.mapEnt u.nsx u.lua))) ∧
  (∀ (die toDie : Fin 512) (pos toPos : Fin 4096) (programFails eraseFails : Bool) (s : State),
    let d := die.val
    let p := pos.val
    let x := s.die toDie.val
    let cs := (s.mergeFrom d p []).copies d p []
    s.isVictim d p = true → (die, pos) ≠ (toDie, toPos) → s.uncollected d p = true → s.copiesQueued (4096 * d + p) = false → cs ≠ [] →
    x.failed = false → x.idle = true → x.inWindow toPos.val = false → (x.blk toPos.val).use = .open_ → (x.blk toPos.val).wp + cs.length ≤ 2047 → s.mute = false →
    ∃ (t : State) (us : List (FUnit × MapEnt)), exec (.garbageCollection die pos toDie toPos [] programFails eraseFails) s = .next t ∧ t.ftl.map = s.ftl.map ∧ t.ftl.units = s.ftl.units ∧
      us.length = cs.length ∧
      (∀ (k : Nat) (u : FUnit) (e : MapEnt) (l : Bool), cs[k]? = some (u, e, l) → ∃ v : FUnit, us[k]? = some (v, e) ∧ v.data = u.data ∧ v.lost = u.lost ∧ v.trims = u.trims ∧ v.minute = u.minute ∧
        (u.gen < 65535 → v.gen = u.gen + 1 ∧ v.seq = u.seq)) ∧
      (t.die toDie.val).writing = some ⟨toPos.val, false, true, .units (us.take 4) (some (4096 * d + p, eraseFails)) programFails⟩) ∧
  (∀ (die : Fin 512) (w : DieWrite) (s : State),
    let d := die.val
    let x := s.die d
    x.writing = some w → w.erase = true → w.serves = .victim false → x.suspended = false → x.failed = false → (x.blk w.pos).use = .closed →
    s.ftl.waiting = [] → s.ftl.zeroing = [] → s.ftl.closing = [] → s.host.recs = [] → s.host.issued = [] →
    ∃ t, exec (.dieEraseDone die true) s = .next t ∧ ((t.die d).blk w.pos).use = .free ∧ ((t.die d).blk w.pos).erased = true ∧
      ((t.die d).blk w.pos).wear = (x.blk w.pos).wear + 10 ∧ t.media.sinceMove = s.media.sinceMove + 1 ∧
      (∀ a, a / 2048 = 4096 * d + w.pos → find a t.ftl.units = none)) ∧
  (∀ (die : Fin 512) (pos : Fin 4096) (depth : Fin 8) (s : State),
    let d := die.val
    let key := 4096 * d + pos.val
    (s.die d).failed = false → ((s.die d).blk pos.val).use = .closed →
    (find key s.media.patrolled = none ∨ getD 0 s.media.patrolled key + 10080 ≤ s.time.epoch.toNat) →
    ∃ t, exec (.patrol die pos depth) s = .next t ∧ find key t.media.patrolled = some s.time.epoch.toNat ∧
      (t.chanOf d).reads = (s.chanOf d).reads + 1 ∧ (5 ≤ depth.val → ((t.die d).blk pos.val).refresh = true)) ∧
  (∀ (fails : Bool) (s : State),
    let d := s.media.moves % 512
    let x := s.die d
    let src := x.winS % 4096
    let dst := (x.winS + x.winW) % 4096
    let stride := (s.liveOf 0x20).toNat
    (s.media.sinceMove < stride → exec (.windowMove fails) s = .next s) ∧
    (s.ready = true → stride ≤ s.media.sinceMove → s.media.move = none → x.failed = false → x.winW ≠ 0 → (x.blk dst).use = .free →
      ((x.blk src).use = .free →
        ∃ t, exec (.windowMove fails) s = .next t ∧ t.media.moves = s.media.moves + 1 ∧ (t.die d).winS = (x.winS + 1) % 4096 ∧
          (t.die d).winR = (x.winR + 1) % x.winW ∧ (t.die d).winW = x.winW ∧ ((t.die d).blk src).use = .free) ∧
      ((x.blk src).use = .sealed → (x.blk src).erasing = false → (x.blk dst).erasing = false → (x.blk src).check = false → x.idle = true → src ≠ dst →
        ∃ (t : State) (m : WindowMove), exec (.windowMove fails) s = .next t ∧ t.media.move = some m ∧ m.die = d ∧ m.src = src ∧ m.dst = dst ∧ m.units = (x.blk src).wp ∧ m.done = 0 ∧
          (t.die d).writing = some ⟨dst, true, (x.blk src).qlc, .moveErase⟩ ∧ (t.die d).winS = x.winS ∧ t.media.moves = s.media.moves))) ∧
  (∀ (die : Fin 512) (w : DieWrite) (m : WindowMove) (n : Nat) (s : State),
    let d := die.val
    let x := s.die d
    x.writing = some w → w.erase = false → w.serves = .moveLine n false → x.suspended = false → x.failed = false → s.media.move = some m →
    m.die = d → m.dst = w.pos → m.src ≠ m.dst → m.units ≤ m.done + n → x.winW ≠ 0 →
    s.ftl.waiting = [] → s.ftl.zeroing = [] → s.ftl.closing = [] → s.host.recs = [] → s.host.issued = [] →
    ∃ t, exec (.dieProgramDone die true) s = .next t ∧ t.media.move = none ∧ t.media.moves = s.media.moves + 1 ∧ (t.die d).winS = (x.winS + 1) % 4096 ∧
      (t.die d).winR = (x.winR + 1) % x.winW ∧ ((t.die d).blk m.src).use = .free ∧ ((t.die d).blk m.dst).use = (x.blk m.src).use ∧
      ((t.die d).blk m.dst).wp = (x.blk m.src).wp ∧ ((t.die d).blk m.dst).qlc = (x.blk m.src).qlc)

/-! ## Objects, memories and links by themselves -/

/-- OBJ_RESEALED, BLOCK_MOVE, MORAINE_SEGMENT and PINNED_RELOAD (R223, R236 to R238, R274): an IMPAIRED object whose serving copy is whole is sealed
again, and moves to the case that then applies when that copy has failed; the units named, of those that read and lie in a sparse block, move, and
neither the content nor another object changes; the oldest 65,536 rows become a sealed segment; a pinned copy that a reset lost is back.
Choices of the model in it, by log entry: a refresh trigger lets a block of any liveness be moved from (182). -/
def Obligations.ObjectsKept : Prop :=
  ∀ (h : W32) (s : State), s.boot.phase = .ready →
    (∀ o d, s.obj? h = some o → o.d = some d → o.state = 2 → o.case_ = 1 →
      (s.wholeInD h o = true → s.ftl.readOnly = false → s.usedUnits + 2048 * (o.copies * (unitsOf o.stored + o.tableUnits)) ≤ userUnits →
        (∀ ch, ch < 32 → s.channelTakes ch = true) →
        digestOf (o.data.rdBytes 0 o.size) = o.digest →
        ∃ t, exec (.objResealed h) s = .next t ∧
          (t.obj? h).map Sys2Proof.Claims.placeless = some { o with state := 1, case_ := 0, f := some { stored := o.stored }, extent := none }) ∧
      (d.bad ≠ [] → ∃ t, exec (.objResealed h) s = .next t ∧ t.obj? h = some { o with case_ := 3 })) ∧
    (∀ o, s.obj? h = some o → o.state = 2 → o.case_ = 2 → s.secondGood o = false →
      ∃ t, exec (.objResealed h) s = .next t ∧ t.obj? h = some { o with case_ := 3 }) ∧
    (∀ o f units, s.obj? h = some o → o.f = some f → o.state = 1 → s.sec.mbk = true →
      let at_ (u : Nat) := o.numbered f.stored u
      ∃ t g, exec (.blockMove h units) s = .next t ∧ t.obj? h = some { o with f := some g } ∧ g.stored = f.stored ∧ g.bad = f.bad ∧
        (∀ k, k ≠ h → (t.obj? k).map Sys2Proof.Claims.placeless = (s.obj? k).map Sys2Proof.Claims.placeless) ∧
        ∀ u, u ∈ g.moved ↔ u ∈ f.moved ∨ (u ∈ units ∧ s.unitReads f (at_ u).1 (at_ u).2.1 = true ∧
          ∃ a, f.place? (at_ u).1 (at_ u).2.1 = some a ∧ s.movesFrom (a / 2048) = true)) ∧
    (∀ x d cb first seg rest, s.index? h = some x → s.indexD? h = some d → s.obj? h = some cb →
      x.rows.filter (fun r => decide (x.sealedTo ≤ r.1)) = first :: seg ++ rest → seg.length = 65535 →
      d.moraineRows < (first :: seg ++ rest).length → s.obj.dir.length < 4194304 → s.takeHandle.isSome = true → s.ftl.readOnly = false →
      let bytes := segmentBytes d ((first :: seg).map Prod.snd)
      s.usedUnits + 2048 * (unitsOf (padTo 16 bytes.length) + unitsOf (160 + 16 * bytes.length)) ≤ userUnits → (∀ ch, ch < 32 → s.channelTakes ch = true) →
      ∃ t g o, exec (.moraineSegment h) s = .next t ∧ s.obj? g = none ∧ t.obj? g = some o ∧ o.typ = 0x0A ∧ o.state = 1 ∧ o.data = memOf bytes ∧
        t.index? h = some { x with segs := x.segs ++ [(g, first.1)], sealedTo := first.1 + 65536 }) ∧
    (∀ o, s.obj? h = some o → s.boot.again = none → o.f.isSome = true → s.sec.mbk = true → o.case_ ≠ 3 →
      s.loads o = true →
      (∀ c, o.wantS = some c → (∀ t ∈ c.tiles, (s.tile t).lost = false ∧ s.rowsFree t c.brow (c.heldBy o.size t) h.toNat = true) →
        ∃ t, exec (.pinnedReload h true) s = .next t ∧ t.obj? h = some { o with wantS := none, s := some { c with touch := s.time.now } }) ∧
      (∀ pin, o.wantD = some pin → o.d = none → s.tierDUsed + unitsOf o.size ≤ s.tierDCap →
        ∃ t, exec (.pinnedReload h false) s = .next t ∧
          t.obj? h = some { o with wantD := none, d := some (s.newD h o.size pin) }))

/-- SCRUB_LINE, ECC_CE and MAP_ENTRY_REBUILT (R420, R421, R425 to R427, R440): the walker moves by 64 bytes, and ends a pass with its count; a
correctable error it meets is counted and recorded; a rate of 0 stops it; an ECC_CE cairn starts its count again; a rebuilt map word is sound.
Choices of the model in it, by log entry: which content of map memory an address holds (46). -/
def Obligations.MemoryWalks : Prop :=
  (∀ (kind : Fin 6) (s : State),
    let k := kind.val
    let x := s.eccKind k
    let pos := x.pos.toNat
    let at_ := s.lineAt k pos
    let turn := (k = 0 → x.passes = (s.eccKind 1).passes) ∧ (k = 1 → x.passes ≠ (s.eccKind 0).passes)
    (∀ n m, rateSetting k = some n → s.liveOf n = 0 → exec (.scrubLine kind m) s = .next s) ∧
    (s.boot.phase = .ready → (∀ n, rateSetting k = some n → s.liveOf n ≠ 0) → turn → s.obj.retiredUnits = [] →
      s.eccOf k at_.1 at_.2.1 64 .clean = .clean →
      (pos + 64 < passBytes k →
        exec (.scrubLine kind .clean) s = .next (s.setEccKind k { x with pos := x.pos + 64 }) ∧
        ∀ b a, ∃ t, exec (.scrubLine kind (.correctable b a)) s = .next t ∧ (t.eccKind k).pos = x.pos + 64 ∧
          (t.eccKind k).ce = satInc x.ce ∧ (t.eccKind k).written = x.written + 1 ∧ (t.eccKind k).ue = x.ue) ∧
      (passBytes k ≤ pos + 64 → ∃ t, exec (.scrubLine kind .clean) s = .next t ∧ (t.eccKind k).pos = 0 ∧ (t.eccKind k).passes = x.passes + 1)) ∧
    (x.sinceCe = 0 → exec (.eccCe kind) s = .next s) ∧
    (x.sinceCe ≠ 0 → (∀ a, x.ceAt = some a → a.toNat + 1000000 ≤ s.time.now.toNat) →
      exec (.eccCe kind) s = .next ((s.setEccKind k { x with sinceCe := 0, ceAt := some s.time.now }).stamp (srcControl 0) 0x70
      (BitVec.ofNat 3 k ++ BitVec.ofNat 25 (Nat.min x.sinceCe 0x1FFFFFF))))) ∧
  (∀ (s : State) (w : BadWord), s.ecc.bad.find? (fun x => x.kind == 3) = some w →
    ∃ t, exec .mapEntryRebuilt s = .next t ∧ w ∉ t.ecc.bad ∧ (∀ x ∈ s.ecc.bad, x ≠ w → x ∈ t.ecc.bad) ∧ t.ftl = s.ftl)

/-- DMA_CHANNEL_RESTART, TILE_SRAM_RELOAD, TILE_FAILURE, WATCHDOG_EXPIRY and CONTROL_CORE_EXCEPTION (R239, R424, R431, R432, R468, R470): the
channel restarts with its transfers, a unit whose error persists is retired and the object's unit in it gets another location, and an object whose
Tier F copy does not read either turns IMPAIRED; a bank row is reloaded, or the programs that wait on it fail with
DATA_ECC; a tile that fails passes to a spare or is lost, and jobs on one that does not answer stop; a firmware fault flushes, ends the jobs
and sets CSTS.CFS.
Choices of the model in it, by log entry: the places of Tier D units (15); what a failed tile leaves (119). -/
def Obligations.UnitsFail : Prop :=
  (∀ (stack : Fin 2) (ch : Fin 16) (persists : Bool) (s : State),
    let here := (stack.val, ch.val)
    (here ∉ s.obj.halted → exec (.dmaChannelRestart stack ch persists) s = .next s) ∧
    (here ∈ s.obj.halted →
      ∃ t, exec (.dmaChannelRestart stack ch persists) s = .next t ∧ here ∉ t.obj.halted ∧
        (∀ x ∈ t.host.xfers, x.halted ≠ some here) ∧ t.host.xfers.length = s.host.xfers.length ∧
        (∀ u h o v, find (16 * stack.val + ch.val) s.obj.haltUnits = some u → s.ownerInD (65536 * u) = some (h, o, v) →
          s.obj? (BitVec.ofNat 32 h) = some o → o.f.isSome = true → s.restores o v = false →
          ∃ p, t.obj? (BitVec.ofNat 32 h) = some p ∧ p.state = 2 ∧ ∀ d, p.d = some d → v ∈ d.bad) ∧
        (∀ u, persists = true → find (16 * stack.val + ch.val) s.obj.haltUnits = some u →
          (∀ h o v, s.ownerInD (65536 * u) = some (h, o, v) → o.f.isSome = true → s.restores o v = true) →
          (stack.val, u) ∈ t.obj.retiredUnits ∧ getD 0 t.obj.retired stack.val = satInc (getD 0 s.obj.retired stack.val) ∧
          ∀ h o v c, s.ownerInD (65536 * u) = some (h, o, v) → s.obj? (BitVec.ofNat 32 h) = some o → o.d = some c →
            t.obj? (BitVec.ofNat 32 h) = some { o with d := some { c with
              moved := c.moved ++ List.replicate (1 + t.passed (BitVec.ofNat 32 h) v (c.moved.count v + 1)) v } }))) ∧
  (∀ (tile : Fin 256) (s : State) (a : Nat), (s.tile tile.val).halted = some (some a) →
    (∀ row bytes, s.rowCopy tile.val a = some (row, some bytes) →
      ∃ t, exec (.tileSramReload tile false) s = .next t ∧ (t.tile tile.val).halted = none ∧
        (t.tile tile.val).sram.rdBytes row bytes.length = bytes ∧
        (∀ x, (x < row ∨ row + bytes.length ≤ x) → (t.tile tile.val).sram.rd x = (s.tile tile.val).sram.rd x)) ∧
    (s.rowCopy tile.val a = none →
      ∃ t, exec (.tileSramReload tile false) s = .next t ∧ (t.tile tile.val).halted = none ∧ sameSram s t ∧
        ∀ c ∈ s.heldCores tile.val, (t.core tile.val c.val).r.run = .failed ∧ (t.core tile.val c.val).r.tcause = 3)) ∧
  (∀ (tile : Fin 256) (s : State), s.boot.phase = .ready → (s.tile tile.val).lost = false → (s.tile tile.val).spare = none →
    (∀ p, s.spareOf tile.val = some p →
      (∃ t, exec (.tileFailure tile true) s = .next t ∧ (t.tile tile.val).spare = some p ∧ (t.tile tile.val).halted.isSome = true ∧
        sameSram s t ∧ t.host = s.host) ∧
      (∃ t, exec (.tileFailure tile false) s = .next t ∧ (t.tile tile.val).spare = some p ∧ (t.tile tile.val).sram = [] ∧
        (∀ c, c < 4 → (t.core tile.val c).r = {}) ∧
        ∀ n j, s.job? n = some j → j.phase = .admitted → tile.val ∈ j.tiles → ∃ k, t.job? n = some k ∧ k.stop.isSome = true)) ∧
    (s.spareOf tile.val = none → ∃ t, exec (.tileFailure tile true) s = .next t ∧ (t.tile tile.val).lost = true)) ∧
  (∀ i ∈ (List.finRange 8).map Instr.watchdogExpiry ++ (List.finRange 8).map Instr.controlCoreException, ∀ s : State,
    s.boot.phase ≠ .off → s.boot.phase ≠ .faulted → s.boot.phase ≠ .shutDown →
    ∃ t, exec i s = .next t ∧ t.boot.phase = .faulted ∧ (∀ c, (t.ctrl c).cfs = true) ∧ t.host.jobs = [] ∧ t.ftl.flushed.isSome = true ∧
      t.time.epochSaved = s.time.epoch)

/-- LANE_FAILURE, PORT_RETRAIN, MESH_LINK_FAILURE, RING_WRAP, FLIT_FORWARD, LOST_LINK_TRAINS, NACK and PCIE_TRAINING_DONE (R137, R384, R429, R430, R464,
R465): a port runs on 7 lanes and a second failed lane takes it down, with the ring wrapped; failed replays are counted; a flit for another drive
leaves by the other port, or by its own when that one is wrapped; a NACK ends the collective instructions that wait on the member, GTOPK, which merges what has arrived, with MEMBER_MISSING.
Choices of the model in it, by log entry: the errors of a link (146); collectives of which a member is missing (149). -/
def Obligations.LinksChange : Prop :=
  (∀ (port : Fin 2) (s : State),
    let x := s.port port.val
    let y := s.port (1 - port.val)
    (∀ lane : Fin 8, x.lanes.getLsbD lane.val = false → exec (.laneFailure port lane) s = .next s) ∧
    (∀ lane : Fin 8, x.lanes = 0xFF →
      ∃ t, exec (.laneFailure port lane) s = .next t ∧ (t.port port.val).lanes = 0xFF &&& ~~~ bitOf lane.val ∧
        (t.port port.val).uncorr.toNat = Nat.min (x.uncorr.toNat + 1025) 0xFFFFFFFF ∧ (t.port port.val).wrapped = x.wrapped) ∧
    (∀ lane : Fin 8, x.lanes.getLsbD lane.val = true → x.lanes ≠ 0xFF →
      ∃ t, exec (.laneFailure port lane) s = .next t ∧ (t.port port.val).lanes = 0 ∧ (t.port port.val).wrapped = true) ∧
    (∃ t, exec (.portRetrain port) s = .next t ∧ (t.port port.val).retrains = satInc x.retrains ∧
      (t.port port.val).replays.toNat = Nat.min (x.replays.toNat + 8) 0xFFFFFFFF) ∧
    (∃ t again, exec (.ringWrap port) s = .next t ∧ (t.port port.val).wrapped = true ∧ t.port (1 - port.val) = { y with sent := y.sent ++ again } ∧
      ∀ f ∈ again, ∃ g ∈ x.sent, g.1 = f.1 ∧ g.2.1 = f.2.1) ∧
    (x.wrapped = true → ∃ t, exec (.lostLinkTrains port) s = .next t ∧ (t.port port.val).unwrap = true ∧ (t.port port.val).wrapped = true ∧
      (t.port port.val).lanes ≠ 0) ∧
    (∀ (dest : Fin 8) (payload : W64), x.lanes ≠ 0 →
      (dest.val ≠ s.ringPos.toNat →
        let out := if y.wrapped = true ∨ y.lanes = 0 then port.val else 1 - port.val
        ∃ t, exec (.flitForward port dest payload) s = .next t ∧ (t.port out).sent = (s.port out).sent ++ [(dest.val, payload, false)]) ∧
      (dest.val = s.ringPos.toNat → s.chain.record = none →
        ∃ t, exec (.flitForward port dest payload) s = .next t ∧ (t.port port.val).sent = x.sent ++ [(dest.val, payload, true)]))) ∧
  (∀ (link : BitVec 26) (s : State), link.toNat ∉ s.link.mesh →
    ∃ t, exec (.meshLinkFailure link) s = .next t ∧ t.link.mesh = s.link.mesh ++ [link.toNat] ∧ t.link.ports = s.link.ports) ∧
  (∀ (member : Fin 8) (tiles : List (Fin 256)) (s : State), s.host.recs.Pairwise (fun a b => a.id ≠ b.id) →
    ∃ t, exec (.nack member true tiles) s = .next t ∧
      (∀ j ∈ s.host.jobs, j.phase = .admitted →
        j.hasMember (tiles.map (fun t => t.val)) (if member.val = s.ownPos.toNat then none else some member.val) = true →
        ∀ op ∈ s.host.recs, op.job = j.num → op.outcome = none →
          (op.kind.call.isSome = true → (∀ a k n m, op.kind ≠ .gtopk a k n m) →
            (t.host.recs.find? (fun r => r.id == op.id)).map (fun r => r.outcome) = some (some (stPeerReset, 0))) ∧
          (∀ a k n m, op.kind = .gtopk a k n m → s.job? op.job = some j → (∃ r, (r, some op) ∈ s.callOps j op) →
            ∃ v, (t.host.recs.find? (fun r => r.id == op.id)).map (fun r => r.outcome) = some (some (stMemberMissing, v)))) ∧
      t.host.recs.length = s.host.recs.length) ∧
  (∀ (rate : Fin 7) (lanes : Byte) (s : State), s.boot.phase = .ready →
    ∃ t, exec (.pcieTrainingDone rate lanes) s = .next t ∧
      (t.link.pcieRate, t.link.pcieLanes) = (if rate ≠ 0 ∧ (lanes = 16 ∨ lanes = 8) then (BitVec.ofNat 8 rate.val, lanes) else (0, 0)))

/-! ## Chains -/

/-- FORM, PROBE_RETURN, COMMIT_FLIT, PROBE_FLIT_TIMEOUT, LEAVE, DISSOLVE, FIRMWARE, STATUS, JOIN_OFFER, MASTER_CHANGE and OFFER_RECEIVED (R182, R458 to
R463): the probe leaves; a ring that checks becomes a pending record; the commit makes it valid and sets the first chain saddle 12 ms on; a ring that
does not close ends the FORM with MEMBER_MISSING; leaving waits for the chain saddle; a running chain admits a member that its record names; a query that waits for a member no longer present has it missing.
Choices of the model in it, by log entry: when a joining drive is accepted, and what a forming member learns (53); the record of a member (115); when CHAIN FIRMWARE completes (117). -/
def Obligations.ChainMembership : Prop :=
  (∀ (c : HostCmd) (s : State), adminTaken c s = true → c.cdw12 = 0 → c.cdw13 = 0 → c.cdw14 = 0 → c.cdw15 = 0 →
    let u := s.leaveLow
    let valid := s.chain.record.map (fun r => r.valid) = some true
    (c.cdw10 = 0 → 2 ≤ c.cdw11.toNat → c.cdw11.toNat ≤ 8 → s.chain.record = none → s.chain.probing = none →
      exec (.form c) s = .next { u with chain := { u.chain with probing := some (c, c.cdw11.toNat) } }) ∧
    (c.cdw10 = 0 → 2 ≤ c.cdw11.toNat → c.cdw11.toNat ≤ 8 → s.chain.record ≠ none → exec (.form c) s = .next (u.fail c nvSequence)) ∧
    (c.cdw10 = 1 → c.cdw11 = 0 → valid → s.chain.ending = none →
      exec (.leave c) s = .next { u with chain := { u.chain with ending := some (c, false) } }) ∧
    (c.cdw10 = 2 → c.cdw11 = 0 → valid → s.chain.ending = none →
      exec (.dissolve c) s = .next { u with chain := { u.chain with ending := some (c, true) } }) ∧
    (∀ answers : List (Fin 8), c.cdw10 = 3 → c.cdw11 = 0 → s.sec.slot ≠ none → s.chain.sending = none →
      ∃ x : Byte, exec (.firmware c answers) s = .next { u with chain := { u.chain with sending := some (c, x) } } ∧
        ∀ p : Fin 8, x.getLsbD p.val = true ↔ (p ∈ answers ∨ p.val = s.ringPos.toNat) ∧ s.seen.getLsbD p.val = true) ∧
    (c.cdw10 = 4 → c.cdw11 = 0 →
      ∃ bs, exec (.status c) s = .next (u.reply c bs 0) ∧ bs.length = 64 ∧
        bs.take 8 = leBytes 8 ((s.chain.record.map (fun r => r.id.toNat)).getD 0) ∧ bs[8]? = some (s.ringPos.setWidth 8) ∧
        bs[10]? = some s.seen ∧ bs[11]? = some s.recorded ∧ bs[13]? = some (BitVec.ofNat 8 s.chainState))) ∧
  (∀ (ring : List DriveProbe) (s : State) (c : HostCmd) (expect : Nat), s.chain.probing = some (c, expect) → s.chain.record = none →
    (ring.length + 1 = expect → s.liveOf 1 ≠ 0 →
      (∀ d ∈ ring, d.cabled = true ∧ d.atS8 = true ∧ d.holdsRecord = false ∧ d.penlaVersion = s.sec.penlaVersion ∧ d.stepPeriod ≠ 0) →
      ∃ t r, exec (.probeReturn ring) s = .next t ∧ t.chain.record = some r ∧ r.n = expect ∧ r.pos = 0 ∧ r.valid = false ∧
        r.digests = s.ownDigest :: ring.map (fun d => d.digest) ∧ t.chain.probing = some (c, expect) ∧ t.host.out = s.host.out) ∧
    (ring.length + 1 ≠ expect →
      exec (.probeReturn ring) s = .next (({ s with chain := { s.chain with probing := none } }).failSt c stMemberMissing)) ∧
    exec .probeFlitTimeout s = .next (({ s with chain := { s.chain with probing := none } }).failSt c stMemberMissing)) ∧
  (∀ (s : State) (r : ChainRec) (c : HostCmd) (n : Nat), s.chain.record = some r → r.valid = false → s.chain.probing = some (c, n) → calm s = true →
    ∃ t, exec .commitFlit s = .next t ∧ t.chain.record = some { r with valid := true } ∧ t.host.nsChain = some r.nsid ∧
      t.chain.present = BitVec.ofNat 8 (2 ^ r.n - 1) ∧ t.chain.pos = r.pos ∧ t.set.nextSaddle = some (s.time.now + 12000000) ∧
      t.time.choff = 0 ∧ t.chain.probing = none ∧ t.chain.joining.isSome = true) ∧
  (∀ s : State, s.boot.phase = .ready → s.chain.record = none → s.chain.probing = none → s.liveOf 1 ≠ 0 → calm s = true →
    ∃ t r, exec .commitFlit s = .next t ∧ t.chain.record = some r ∧ r.valid = true ∧ 2 ≤ r.n ∧ r.n ≤ 8 ∧ r.pos ≠ 0 ∧ r.pos.toNat < r.n ∧
      r.digests.length = r.n ∧ r.digests[r.pos.toNat]? = some s.ownDigest ∧
      t.host.nsChain = some r.nsid ∧ t.chain.present = BitVec.ofNat 8 (2 ^ r.n - 1) ∧ t.chain.pos = r.pos ∧
      t.set.nextSaddle = some (s.time.now + 12000000) ∧ t.chain.joining.isSome = true) ∧
  (∀ s : State, s.boot.phase = .ready →
    (s.outside = true → exec .joinOffer s = .next { s with chain := { s.chain with offers := s.chain.offers + 1 } }) ∧
    (∀ (present : Byte) (masterTime : W64), s.chain.inChain = true →
      let all := present ||| bitOf s.ringPos.toNat
      let u : State := { s with chain := { s.chain with present := all } }
      (u.master = s.master → exec (.masterChange present masterTime) s = .next (u.missLeft all)) ∧
      (∀ j ∈ (u.missLeft all).host.jobs, ∃ k ∈ s.host.jobs, k.num = j.num ∧
        ∀ p : Fin 8, j.missing.getLsbD p.val = true → k.missing.getLsbD p.val = true ∨ all.getLsbD p.val = false) ∧
      (u.master ≠ s.master → u.master ≠ s.chain.pos.toNat → calm s = true →
        ∃ t, exec (.masterChange present masterTime) s = .next t ∧ t.chain.present = all ∧ t.chain.forwarded = [] ∧
          t.time.choff = masterTime - s.time.now)) ∧
    (∀ (port : Fin 2) (pos : Fin 8) (digest : W128) (r : ChainRec), s.chain.record = some r → s.chain.inChain = true → r.valid = true →
      pos.val < r.n → r.digests[pos.val]? = some digest → pos.val ≠ s.chain.pos.toNat → (s.port port.val).lanes ≠ 0 →
      s.chain.present.getLsbD pos.val = false →
      ∃ t, exec (.offerReceived port r.id pos digest) s = .next t ∧ t.chain.admitting.getLsbD pos.val = true ∧
        t.chain.present = s.chain.present))

/-! ## Bring-up -/

/-- The stages of bring-up (R434, R437, R441 to R453, R458, R461): from its phase each stage leads to the next, or S1 to recovery and S2 to a halt
with CSTS.CFS; S0 starts drive time at 0, S3 trains the channels, S5 writes the engines' text, S6 rebuilds the map and
binds the media key, S7 keeps a valid chain record alone, S8 raises CSTS.RDY and burns the image's SVN.
Choices of the model in it, by log entry: the text of the traversal engines (50); when the clean marker is erased (129); a pending record at S7 and the position outside a chain (142). -/
def Obligations.BringUp : Prop :=
  (∀ (pins : PowerPins) (s : State), s.boot.phase = .off →
    ∃ t, exec (.coldPowerOn pins) s = .next t ∧ t.time.now = 0 ∧ t.time.epoch = s.time.epochSaved ∧ t.time.errors.length = 0 ∧
      t.boot.phase = (if pins.aux12 then .stage 1 else .awaiting) ∧ t.pwr.sense0 = pins.sense0 ∧ t.pwr.sense1 = pins.sense1 ∧
      t.sec.debug = !s.sec.prod ∧ t.boot.cause = 0) ∧
  (∀ s : State, s.boot.phase = .awaiting →
    ∃ t, exec .aux12vPresent s = .next t ∧ t.pwr.aux12 = true ∧ t.boot.phase = (if s.boot.cause = 6 then .recovery else .stage 1)) ∧
  (∀ (found : SlotFound) (s : State), s.boot.phase = .stage 1 →
    let m := s.slotMan found
    (s.slotCause found = 0 →
      ∃ t, exec (.firmwareCheck found) s = .next t ∧ t.boot.phase = .stage 2 ∧ t.sec.imageSvn = m.svn ∧
        t.sec.imageDigest = m.digest ∧ t.sec.keySlot = m.keySlot) ∧
    (s.slotCause found ≠ 0 →
      ∃ t, exec (.firmwareCheck found) s = .next t ∧ t.boot.phase = .recovery ∧ t.rcv.cause = BitVec.ofNat 4 (s.slotCause found) ∧
        t.sec = s.sec) ∧
    (s.sec.slotCut = true → found.header = true → s.slotCause found = 2)) ∧
  (∀ (started : Byte) (s : State), s.boot.phase = .stage 2 →
    ∃ t, exec (.controlCoreStart started) s = .next t ∧ t.boot.phase = (if started = 0xFF then .stage 3 else .halted 2) ∧
      (started ≠ 0xFF → ∀ c, (t.ctrl c).cfs = true ∧ (t.ctrl c).rdy = false)) ∧
  (∀ (x : Training) (s : State), s.boot.phase = .stage 3 → x.dramOk = 3 → (s.boot.cause ≠ 0 ∨ x.mapOk = true) → x.unreachable = false →
    ∃ t, exec (.parallelTraining x) s = .next t ∧ t.boot.phase = .stage 4 ∧ t.obj.trained = 3 ∧ t.time.logUp = true ∧
      (∀ c, c < 32 → (getD {} t.media.chans c).trained = x.channels.getLsbD c) ∧
      (∀ d, d < 512 → x.channels.getLsbD (d / 16) = false → (t.die d).failed = true)) ∧
  (∀ (failed : List (Fin 272)) (s : State), s.boot.phase = .stage 4 → calm s = true →
    let u : State := { s with boot := { s.boot with s4Failed := failed.map (fun p => p.val) } }
    (∀ d, d < 4 → 64 ≤ (u.passing d).length) →
    ∃ t, exec (.tileSelfTest failed) s = .next t ∧ t.boot.phase = .stage 5 ∧ t.boot.s4Failed = failed.map (fun p => p.val) ∧
      ∀ x, x < 256 → s.physOf x ∉ failed.map (fun p => p.val) → s.physOf x ∉ s.boot.failedTiles → t.physOf x = s.physOf x) ∧
  (∀ (b : Broadcast) (s : State), s.boot.phase = .stage 5 → calm s = true → b.failedCores = [] → b.engineFails = false →
    ∃ t, exec (.firmwareBroadcast b) s = .next t ∧ t.boot.phase = .stage 6 ∧
      (∀ e, e < 16 → (t.engine e).text = Config.walkText s.sec.imageDigest) ∧ t.tiles = s.tiles) ∧
  (∀ (r : S6Found) (s : State), s.boot.phase = .stage 6 → calm s = true → r.otpBad = [] → r.calDefault = [] →
    ∃ t, exec (.mapRebuilt r) s = .next t ∧ t.boot.phase = .stage 7 ∧ t.ftl.mapLive = true ∧ t.ftl.flushed = none ∧
      t.sec.mbk = (r.mbk && !s.sec.noBind) ∧ t.media.ledger = s.media.ledgerNext ∧
      (s.mapPath ≠ 2 → t.ftl.map = s.ftl.map ∧ t.ftl.buf = s.ftl.buf ∧ t.ftl.units = s.ftl.units) ∧
      (s.mapPath = 2 → t.ftl.flush = [] ∧ t.ftl.unsafe_ = true)) ∧
  (∀ (f : S7Found) (s : State), s.boot.phase = .stage 7 → calm s = true →
    ∃ t, exec (.chainFormation f) s = .next t ∧ t.boot.phase = .stage 8 ∧ t.chain.record = s.chain.record.filter (fun r => r.valid) ∧
      t.host.nsChain = (s.chain.record.filter (fun r => r.valid)).map (fun r => r.nsid)) ∧
  (∀ s : State, s.boot.phase = .stage 8 →
    ∃ t, exec .ready s = .next t ∧ t.boot.phase = .ready ∧ (∀ c, (t.ctrl c).rdy = (s.ctrl c).en) ∧
      t.sec.fusedSvn.toNat = Max.max s.sec.fusedSvn.toNat s.sec.imageSvn.toNat ∧ t.ftl.clean = false ∧ t.boot.endedJobs = [] ∧
      (s.chain.joining = none → t.set.nextSaddle = if s.liveOf 1 = 0 then none else some (s.time.now + s.liveOf 1)))

/-! ## Resets, recovery and power -/

/-- The drive resets (R466, R471, R473): PERST, HOT_RESET, NVM_SUBSYSTEM_RESET, MANAGEMENT_RESET, RECOVERY_RESET and ENTER end the jobs without
completions, discard the staged changes and the tiles' and Tier D's contents, cut a write of the firmware slot, keep drive time, and start S0 with their cause. The function
and group resets: a PF reset resets every tile and runs S4 and S5 again, a VF reset disables its controller, a group reset resets its
tiles and keeps their SRAM (R467, R468).
Choices of the model in it, by log entry: a group reset takes no time (58); STEPNUM after a reset (112). -/
def Obligations.ResetsHappen : Prop :=
  (∀ (p : MgmtPath) (testN : Bool) (s : State), s.boot.phase ≠ .off → s.boot.phase ≠ .shutDown → s.boot.phase ≠ .faulted →
    s.mayRecover p = true → ∀ x ∈ [(Instr.perst testN, 1), (.hotReset, 2), (.nvmSubsystemReset, 3), (.managementReset, 4), (.recoveryReset p, 5), (.enter, 6)],
    ∃ t, exec x.1 s = .next t ∧ t.boot.cause = BitVec.ofNat 8 x.2 ∧ t.time.now = s.time.now ∧ t.host.jobs = [] ∧ t.host.ctrls = [] ∧
      t.set.pend = [] ∧ t.set.groups = [] ∧ t.set.step = 0 ∧ (∀ n, (t.tile n).sram = [] ∧ ∀ c, (t.core n c).r = {}) ∧ t.engines = [] ∧
      (∀ h o, t.obj? h = some o → o.s = none ∧ o.d = none) ∧ t.sec.mbk = false ∧ t.sec.debug = (s.sec.debug || s.sec.debugNext) ∧
      t.sec.slotWrite = none ∧ (s.sec.slotWrite ≠ none → t.sec.slotCut = true) ∧
      t.boot.phase = (if s.pwr.aux12 = false then .awaiting else if x.2 = 6 then .recovery else .stage 1)) ∧
  (∀ s : State, s.boot.phase = .ready →
    ∃ t, exec .pfFlr s = .next t ∧ t.boot.again = some 4 ∧ (∀ c, (t.ctrl c).en = false ∧ (t.ctrl c).rdy = false) ∧
      (∀ n, n < 256 → (t.tile n).sram = [] ∧ ∀ c, (t.core n c).r = {}) ∧ t.set.pend = [] ∧ t.time.now = s.time.now) ∧
  (∀ (vf : Fin 32) (s : State), s.wedged = false → (∀ j ∈ s.host.jobs, j.ctrl ≠ vf.succ) →
    ∃ t, exec (.vfFlr vf) s = .next t ∧ (t.ctrl vf.succ).en = false ∧ (t.ctrl vf.succ).rdy = false ∧ (t.ctrl vf.succ).sqs = [] ∧
      (∀ c, c ≠ vf.succ → t.ctrl c = s.ctrl c) ∧ t.host.jobs = s.host.jobs ∧ t.set.pend = [] ∧ t.tiles = s.tiles) ∧
  (∀ (gid : W16) (s : State) (ui : UnitInfo), s.boot.phase = .ready → s.reg.busy = false → s.unit? gid = some ui →
    gidLevel gid ≠ 3 → (gidLevel gid = 2 → gidIndex gid < 8 → gidIndex gid = s.ownPos.toNat) → s.host.xfers = [] → ui.tiles.Nodup →
    ∃ t, exec (.grprst (gid.setWidth 64 ||| 0x10000)) s = .next t ∧ t.reg.resetStatus = stOk ∧ t.reg.resets = satInc s.reg.resets ∧
      (∀ n ∈ ui.tiles, (t.tile n).sram = (s.tile n).sram ∧ (t.tile n).texts = (s.tile n).texts ∧ (t.tile n).queue = [] ∧
        ∀ c, (t.core n c).r = {}) ∧
      (∀ n, n ∉ ui.tiles → t.tile n = s.tile n)) ∧
  (∀ (gid : W16) (s : State), s.boot.phase = .ready → s.reg.busy = false → (gidLevel gid = 3 ∨ s.unit? gid = none) →
    exec (.grprst (gid.setWidth 64 ||| 0x10000)) s = .next { s with reg := { s.reg with resetStatus := stInvalidGroup } })

/-- POWER_LOSS, THERMAL_SHUTDOWN, SHUTDOWN_NOTIFICATION and the recovery session, IMGLEN_WRITE, RCVDATA and COMMIT_RECOVERY_IMAGE (R371, R373, R434,
R455 to R457, R473, R481): a loss of power flushes the buffer, cuts a write of the slot, and loses the rest; a clean shutdown marks the map; chunks
are staged, and the writing of an image that checks begins while one that does not leaves the slot.
Choices of the model in it, by log entry: the end of a slot write (104); the events of a recovery COMMIT (135). -/
def Obligations.PowerLossAndRecovery : Prop :=
  (∀ s : State, s.boot.phase ≠ .off → s.boot.phase ≠ .shutDown →
    (∃ t, exec .powerLoss s = .next t ∧ t.boot.phase = .off ∧ t.host.jobs = [] ∧ t.ftl.buf = [] ∧ t.time.now = 0 ∧ t.time.log = [] ∧
      (s.ftl.flushed = none → s.ftl.clean = false → t.ftl.flushed.isSome = true ∧ t.ftl.flush = s.settleDies.flushImages ∧
        t.time.epochSaved = s.time.epoch) ∧
      t.sec.slotWrite = none ∧ (s.sec.slotWrite ≠ none → t.sec.slotCut = true)) ∧
    ((∃ x ∈ s.sensors, x.2.2 ≤ x.1) →
      ∃ t, exec .thermalShutdown s = .next t ∧ t.boot.phase = .shutDown ∧ t.host.jobs = [] ∧ t.ftl.buf = [])) ∧
  (∀ (ctrl : Fin 33) (s : State), s.boot.phase = .ready → (s.ctrl ctrl).rdy = true → s.ftl.buf = [] →
    ∃ t, exec (.shutdownNotification ctrl) s = .next t ∧ t.ftl.clean = true ∧ t.time.epochSaved = s.time.epoch ∧ (t.ctrl ctrl).shst = true) ∧
  (∀ (p : MgmtPath) (s : State), s.boot.phase = .recovery → s.mayRecover p = true →
    (∀ value : W64, ∃ t, exec (.imglenWrite p value) s = .next t ∧ t.rcv.imgLen = hi32 value ∧ t.rcv.chunk = value.extractLsb' 16 16 ∧
      t.rcv.owner = some p) ∧
    (∀ (offset : BitVec 12) (value : W64), offset.toNat % 8 = 0 → offset ≠ 0xFF8 →
      ∃ t, exec (.rcvdata p offset value) s = .next t ∧ t.rcv.buffer.rdBytes offset.toNat 8 = leBytes 8 value.toNat ∧
        t.rcv.received = s.rcv.received) ∧
    (∀ value : W64, ∃ t, exec (.rcvdata p 0xFF8 value) s = .next t ∧ s.rcv.chunk.toNat ∈ t.rcv.received ∧
      t.rcv.staged.rdBytes (4096 * s.rcv.chunk.toNat) 4088 = s.rcv.buffer.rdBytes 0 4088 ∧
      t.rcv.staged.rdBytes (4096 * s.rcv.chunk.toNat + 4088) 8 = leBytes 8 value.toNat ∧ t.rcv.chunk = s.rcv.chunk + 1) ∧
    (∀ man : Manifest, s.sec.slotWrite = none → s.recoveryError man = 0 →
      ∃ t w, exec (.commitRecoveryImage p man) s = .next t ∧ t.sec.slotWrite = some w ∧ w.man = man ∧ w.bytes = s.rcv.staged ∧ w.cmd = none ∧
        t.sec.slot = none ∧ t.rcv.state = 3 ∧ t.rcv.error = 0) ∧
    (∀ man : Manifest, s.sec.slotWrite = none → s.recoveryError man ≠ 0 →
      exec (.commitRecoveryImage p man) s =
        .next { s with rcv := { s.rcv with error := BitVec.ofNat 4 (s.recoveryError man), state := 5 } }))

/-! ## Registers, sensors and power states -/

/-- CLDATA_READ, CHCLR, ECCCLR, STEPCTL_WRITE, REGISTER_WRITE, REGISTER_READ, MI_REGISTER_WRITE and BASIC_MANAGEMENT_COMMAND (R11, R12, R101, R189, R197,
R199, R242, R327, R422, R430, R487, R488); CAP, CC.EN, CSTS and the unimplemented words of the NVMe register window.
Choices of the model in it, by log entry: the numbers and bytes of NVMe-MI (57); the places of the NVMe registers (209). -/
def Obligations.RegistersAnswer : Prop :=
  ∀ s : State, s.boot.phase = .ready →
    (∀ i, s.ringEntry s.time.readAt.toNat = some i →
      ∃ t u, exec (.cldataRead false) s = .next t ∧ t.reg.read = some ((s.logEntry i).setWidth 64) ∧ t.time.readAt = s.time.readAt ∧
        exec (.cldataRead true) s = .next u ∧ u.reg.read = some ((s.logEntry i).extractLsb' 64 64) ∧ u.time.readAt = s.time.readAt + 1 ∧
        u.time.log.map (fun e => e.bits) = s.time.log.map (fun e => e.bits)) ∧
    (∀ value : W64, value.getLsbD 0 = true →
      ∃ t, exec (.chclr value) s = .next t ∧
        getD {} t.media.chans s.media.chsel.toNat = { trained := (getD {} s.media.chans s.media.chsel.toNat).trained } ∧
        ∀ c, c ≠ s.media.chsel.toNat → getD {} t.media.chans c = getD {} s.media.chans c) ∧
    (∀ value : W64, value.getLsbD 0 = true → s.ecc.memsel.toNat < 6 →
      exec (.eccclr value) s = .next (s.setEccKind s.ecc.memsel.toNat { s.eccKind s.ecc.memsel.toNat with ce := 0, ue := 0 })) ∧
    (∀ lo hi : W32, s.chainSync = false → scalarRange 1 lo.toNat = true → scalarRange 2 hi.toNat = true → ¬ (lo = 0 ∧ s.nextOf 3 ≠ 0) →
      ∃ t, exec (.stepctlWrite (hi ++ lo) true true) s = .next t ∧ t.nextOf 1 = lo.setWidth 64 ∧ t.nextOf 2 = hi.setWidth 64 ∧
        t.liveOf 1 = s.liveOf 1 ∧ t.set.refused = s.set.refused) ∧
    (∀ lo hi : W32, s.chainSync = false → scalarRange 1 lo.toNat = false →
      ∃ t, exec (.stepctlWrite (hi ++ lo) true true) s = .next t ∧ t.set.refused = true ∧ t.set.refnum = 1 ∧ t.set.pend = s.set.pend) ∧
    (∀ v : W64,
      exec (.registerWrite 0x300000 v) s = .next { s with reg := { s.reg with tilesel := v.setWidth 9, tilephys := v.getLsbD 15 } } ∧
      exec (.registerWrite 0x200000 v) s = .next { s with reg := { s.reg with stksel := v.setWidth 1 } } ∧
      exec (.registerWrite 0x400000 v) s = .next { s with reg := { s.reg with portsel := v.setWidth 1 } } ∧
      exec (.registerWrite 0x500000 v) s = .next { s with ecc := { s.ecc with memsel := v.setWidth 3 } } ∧
      exec (.registerWrite 0x600010 v) s = .next { s with time := { s.time with readAt := v.setWidth 22 } } ∧
      exec (.registerWrite 0x000208 v) s = .next s) ∧
    (∀ off : W32, miReadable off.toNat = true →
      ∃ t, exec (.registerRead off) s = .next t ∧ t.reg.read = some (s.readBar2 off.toNat) ∧
        t.host.mi = s.host.mi ++ [0 :: leBytes 8 (s.readBar2 off.toNat).toNat]) ∧
    (∀ off : W32, miReadable off.toNat = false → exec (.registerRead off) s = .next { s with host := { s.host with mi := s.host.mi ++ [[4]] } }) ∧
    (∀ v : W64, exec (.miRegisterWrite 0x300000 v) s = .next { s with host := { s.host with mi := s.host.mi ++ [[4]] } } ∧
      ∃ t, exec (.miRegisterWrite 0x700100 (hi32 v ++ (0 : W32))) s = .next t ∧ t.host.mi = s.host.mi ++ [[0]] ∧
        (s.mayRecover .mi = true → t.rcv.imgLen = hi32 v)) ∧
    (∃ t bs, exec .basicManagementCommand s = .next t ∧ t.host.mi = s.host.mi ++ [bs] ∧ bs.length = 32) ∧
    (∀ c : Fin 33, (s.readBar0 c 0).toNat = 0x3FFF + 2 ^ 16 + 120 * 2 ^ 24 ∧ (s.readBar0 c 4).toNat = 2 ^ 4 + 2 ^ 11 + 4 * 2 ^ 20 ∧
      (s.readBar0 c 0x1C).getLsbD 0 = (s.ctrl c).rdy ∧ (s.readBar0 c 0x1C).getLsbD 1 = (s.ctrl c).cfs ∧ (s.readBar0 c 0x14).getLsbD 0 = (s.ctrl c).en ∧
      ∀ off, 0x38 ≤ off → off < (if c = 0 then 0x4000 else 0x2000) → s.readBar0 c off = 0)

/-- PWRBRK_N, POWER_MEASUREMENT, SENSOR_READ, THERMAL and HOLDUP (R478, R479, R481, R482): the limit is at most 150 W while PWRBRK# is asserted; the
sensors' values stand in TEMPS; a sensor at its throttle point takes 25 W off the thermal limit, and 25 W return when every sensor is 5 °C below;
the bank's energy ½ × C × (35² − 14²) over 180 W gives the slots. DEBUG_UNLOCK (R489). POWER_STATE_ENTRY, AUTONOMOUS_POWER_STATE_TRANSITION,
POWER_STATE_EXIT, D3HOT and RETURN_TO_D0 (R417, R418, R472): a committed non-operational state is entered once nothing runs and the buffer is
empty; PS4 loses Tier S and the instruction stores; the exit returns to the last operational state and sends what waited; a function in D3hot
holds its outputs until D0.
Choices of the model in it, by log entry: THERMAL, the limit and the transition in low power states (137); power states and their exit (139). -/
def Obligations.PowerSensorsAndStates : Prop :=
  (∀ s : State, s.boot.phase = .ready →
     (∀ b, ∃ t, exec (.pwrbrkN b) s = .next t ∧ t.pwr.pwrbrk = b ∧ (b = true → t.limit ≤ 150)) ∧
     (∀ w, exec (.powerMeasurement w) s = .next { s with pwr := { s.pwr with input := w } }) ∧
     (∀ r : Readings, ∃ t, exec (.sensorRead r) s = .next t ∧ t.pwr.ctrl = r.ctrl ∧ t.pwr.bank = r.bank ∧ t.pwr.inlet = r.inlet ∧
       t.pwr.outlet = r.outlet ∧ (s.obj.trained = 3 → getD 0 t.obj.temp 0 = r.dram0 ∧ getD 0 t.obj.temp 1 = r.dram1 ∧
         t.pwr.dram.toInt = Max.max r.dram0.toInt r.dram1.toInt) ∧
       (∀ d : Fin 512, ∀ x, r.dies = [(d, x)] → (s.chanOf d.val).trained = true → (s.die d.val).failed = false →
         (t.die d.val).temp = x ∧ t.pwr.flash = x)) ∧
     ((∃ x ∈ s.sensors, x.2.1 ≤ x.1) → 100 < s.pwr.therm → ∃ t, exec .thermal s = .next t ∧ t.pwr.therm = s.pwr.therm - 25) ∧
     ((∀ x ∈ s.sensors, x.1 + 5 ≤ x.2.1) → s.pwr.therm < 300 →
       exec .thermal s = .next { s with pwr := { s.pwr with therm := s.pwr.therm + 25 } }) ∧
     (∀ c : W16,
       let e := c.toNat * (35 * 35 - 14 * 14)
       ∃ t, exec (.holdup c) s = .next t ∧ t.pwr.cap = c ∧ t.pwr.measuring = false ∧
         t.ftl.slots = if 2 * 180 * 25000 ≤ e then 16384 else if 2 * 180 * 12000 ≤ e then 4096 else 256) ∧
     (∀ (slot : Fin 4) (valid : Bool),
       (s.sec.prod = true → valid = true → s.sec.revoked.getLsbD slot.val = false →
         exec (.debugUnlock slot valid) s = .next { s with sec := { s.sec with debugNext := true } }) ∧
       ((s.sec.prod = false ∨ valid = false ∨ s.sec.revoked.getLsbD slot.val = true) → exec (.debugUnlock slot valid) s = .next s))) ∧
  ((∀ (p : Nat) (s : State), s.pwr.entering = some p → s.boot.phase = .ready → s.host.jobs = [] → s.ftl.buf = [] → s.ftl.waiting = [] →
     s.ftl.zeroing = [] → ∃ t, exec .powerStateEntry s = .next t ∧ t.pwr.ps = p ∧ t.pwr.entering = none ∧ t.pwr.lastOp = s.pwr.lastOp ∧
       (p = 4 → t.boot.again = some 4 ∧ ∀ n, n < 256 → (t.tile n).sram = [] ∧ (t.tile n).texts = [])) ∧
   (∀ (ps : Fin 5) (s : State), s.boot.phase = .ready → 3 ≤ ps.val → s.pwr.ps < 3 → s.pwr.entering = none → s.host.jobs = [] →
     exec (.autonomousPowerStateTransition ps) s = .next { s with set := { s.set with pendPower := some ps.val } }) ∧
   (∀ s : State, (s.pwr.exiting = true ∨ 3 ≤ s.pwr.ps) → s.pwr.lastOp < 3 → (∀ c, (s.ctrl c).d3 = false) →
     ∃ t, exec .powerStateExit s = .next t ∧ t.pwr.exiting = false ∧ t.pwr.entering = none ∧
       t.pwr.ps = (if s.pwr.ps < 3 then s.pwr.ps else s.pwr.lastOp) ∧ t.host.out = s.host.out ++ s.host.held ∧ t.host.held = []) ∧
   (∀ (fn : Fin 33) (s : State), s.boot.phase ≠ .off → s.boot.phase ≠ .shutDown →
     (∃ t, exec (.d3hot fn) s = .next t ∧ (t.ctrl fn).d3 = true ∧ (∀ c, c ≠ fn → t.ctrl c = s.ctrl c) ∧
       ∀ o : HostOut, o.ctrl = fn → (t.send o).host.out = s.host.out) ∧
     (∃ t, exec (.returnToD0 fn) s = .next t ∧ (t.ctrl fn).d3 = false ∧
       (s.pwr.exiting = false → ∀ o ∈ s.host.held, o.ctrl = fn → o ∈ t.host.out))))

/-! ## Reset -/

/-- Reset (R184, R186, R189, R197, R199, R201, R204, R389, R422, R440, R441, R446, R456, R473): the card has auxiliary power alone; drive time, the
logs, the steps and the error counts are 0; every setting is at its default; no controller is enabled, no job, group or binding
exists, no command waits, the rings of R188 and R446 are within their capacities, and the invariants of registers (R106), memories, array queues
(R112) and job numbers (R27) hold.
Choices of the model in it, by log entry: the numbering of tiles (8); what manufacture has left in the drive (18). -/
def Obligations.ResetState : Prop :=
  let s := State.reset
  s.boot.phase = .off ∧ s.pending = [] ∧ s.time.now = 0 ∧ s.time.choff = 0 ∧ s.time.written = 0 ∧ s.time.lost = 0 ∧ s.time.readAt = 0 ∧
  s.time.log = [] ∧ s.time.errors = [] ∧ s.time.errHead = 0 ∧ RingsBounded s ∧
  RegistersHardWired s ∧ MemoriesCanonical s ∧ QueuesBounded s ∧ JobNumbersDistinct s ∧
  s.liveOf 1 = 250000 ∧ s.liveOf 2 = 250000 ∧ s.liveOf 3 = 0 ∧ s.liveOf 4 = 300 ∧ s.liveOf 0x10 = 64 ∧ s.liveOf 0x11 = 64 ∧ s.liveOf 0x12 = 64 ∧
  s.liveOf 0x20 = 1024 ∧ s.liveOf 0x21 = 16777216 ∧ s.pendingCount = 0 ∧ s.set.step = 0 ∧ s.set.refused = false ∧ s.set.groups = [] ∧
  s.set.bindings = [] ∧ s.set.replaces = [] ∧ s.host.jobs = [] ∧ (∀ c, (s.ctrl c).en = false ∧ (s.ctrl c).rdy = false ∧ (s.ctrl c).cfs = false) ∧
  (∀ k, (s.eccKind k).ce = 0 ∧ (s.eccKind k).ue = 0 ∧ (s.eccKind k).pos = 0 ∧ (s.eccKind k).passes = 0) ∧
  (∀ n, (s.tile n).queue = [] ∧ (s.tile n).amac = 0 ∧ (s.tile n).form = .standard) ∧
  (∀ n, n < 256 → s.physOf n = 68 * (n / 64) + n % 64) ∧ s.chain.present = 1 ∧ s.chain.pos = 0 ∧ s.chain.record = none ∧
  s.rcv.state = 0 ∧ s.rcv.imgLen = 0 ∧ s.sec.debug = false ∧ s.sec.mbk = false ∧ s.ftl.readOnly = false
end

