-- ==== Sys2Proof/Laws/Maps.lean ====
section
/-! SUPPORT. What reading a sparse map or memory gives after each way of writing it, and that every memory operation keeps
the canonical form. -/
namespace Sys2Proof.Machine

/-! ## Maps -/

@[simp] theorem find_put_same {α : Type} (k : Nat) (v : α) (m : SMap α) : find k (put k v m) = some v := by
  induction m with
  | nil => simp [put, find]
  | cons e m ih =>
    obtain ⟨j, u⟩ := e
    simp only [put]
    split
    · simp [find]
    · split
      · simp [find]
      · next h => simp [find, Ne.symm h, ih]

theorem find_put_other {α : Type} {i k : Nat} (h : i ≠ k) (v : α) (m : SMap α) : find i (put k v m) = find i m := by
  induction m with
  | nil => simp [put, find, Ne.symm h]
  | cons e m ih =>
    obtain ⟨j, u⟩ := e
    simp only [put]
    split
    · simp [find, Ne.symm h]
    · split
      · next e => subst e; simp [find, Ne.symm h]
      · simp only [find, ih]

theorem find_put {α : Type} (i k : Nat) (v : α) (m : SMap α) : find i (put k v m) = if i = k then some v else find i m := by
  split
  · next h => subst h; exact find_put_same i v m
  · next h => exact find_put_other h v m

@[simp] theorem find_remove_same {α : Type} (k : Nat) (m : SMap α) : find k (remove k m) = none := by
  induction m with
  | nil => rfl
  | cons e m ih =>
    obtain ⟨j, u⟩ := e
    by_cases h : j = k
    · subst h
      simpa [remove] using ih
    · simpa [remove, h, find] using ih

theorem find_remove_other {α : Type} {i k : Nat} (h : i ≠ k) (m : SMap α) : find i (remove k m) = find i m := by
  induction m with
  | nil => rfl
  | cons e m ih =>
    obtain ⟨j, u⟩ := e
    by_cases hj : j = k
    · subst hj
      simpa [remove, find, Ne.symm h] using ih
    · by_cases hi : j = i
      · subst hi
        simp [remove, hj, find]
      · simpa [remove, hj, find, hi] using ih

theorem find_remove {α : Type} (i k : Nat) (m : SMap α) : find i (remove k m) = if i = k then none else find i m := by
  split
  · next h => subst h; exact find_remove_same i m
  · next h => exact find_remove_other h m

@[simp] theorem getD_put_same {α : Type} (d : α) (k : Nat) (v : α) (m : SMap α) : getD d (put k v m) k = v := by simp [getD]
theorem getD_put_other {α : Type} (d : α) {i k : Nat} (h : i ≠ k) (v : α) (m : SMap α) : getD d (put k v m) i = getD d m i := by
  simp [getD, find_put_other h]
theorem getD_put {α : Type} (d : α) (i k : Nat) (v : α) (m : SMap α) : getD d (put k v m) i = if i = k then v else getD d m i := by
  unfold getD
  rw [find_put]
  split <;> rfl

@[simp] theorem getD_putD_same {α : Type} [DecidableEq α] (d : α) (k : Nat) (v : α) (m : SMap α) : getD d (putD d m k v) k = v := by
  unfold putD
  split
  · next h => simp [getD, h]
  · simp
theorem getD_putD_other {α : Type} [DecidableEq α] (d : α) {i k : Nat} (h : i ≠ k) (v : α) (m : SMap α) :
    getD d (putD d m k v) i = getD d m i := by
  unfold putD
  split
  · simp [getD, find_remove_other h]
  · exact getD_put_other d h v m
theorem getD_putD {α : Type} [DecidableEq α] (d : α) (i k : Nat) (v : α) (m : SMap α) :
    getD d (putD d m k v) i = if i = k then v else getD d m i := by
  split
  · next h => subst h; exact getD_putD_same d i v m
  · next h => exact getD_putD_other d h v m

theorem mem_put {α : Type} {e : Nat × α} {k : Nat} {v : α} {m : SMap α} (h : e ∈ put k v m) : e = (k, v) ∨ e ∈ m := by
  induction m with
  | nil => exact .inl (List.mem_singleton.mp h)
  | cons x m ih =>
    simp only [put] at h
    split at h
    · exact (List.mem_cons.mp h)
    · split at h
      · exact (List.mem_cons.mp h).imp id (List.mem_cons_of_mem _)
      · exact (List.mem_cons.mp h).elim (fun e => .inr (e ▸ List.mem_cons_self)) (fun h => (ih h).imp id (List.mem_cons_of_mem _))

/-! ## Rising keys -/

/-- Every key of a map is above a bound. -/
def above {α : Type} (b : Nat) (m : SMap α) : Prop := ∀ e ∈ m, b < e.1

theorem rising_cons {α : Type} {j : Nat} {u : α} {m : SMap α} : rising ((j, u) :: m) = true ↔ above j m ∧ rising m = true := by
  induction m generalizing j u with
  | nil => simp [rising, above]
  | cons e m ih =>
    obtain ⟨k, v⟩ := e
    rw [rising, Bool.and_eq_true, decide_eq_true_eq]
    refine ⟨fun ⟨h, r⟩ => ⟨?_, r⟩, fun ⟨h, r⟩ => ⟨h _ List.mem_cons_self, r⟩⟩
    intro x hx
    rcases List.mem_cons.mp hx with hx | hx
    · exact hx ▸ h
    · exact Nat.lt_trans h ((ih.mp r).1 x hx)

theorem rising_put {α : Type} {k : Nat} {v : α} {m : SMap α} (h : rising m = true) : rising (put k v m) = true := by
  induction m with
  | nil => rfl
  | cons e m ih =>
    obtain ⟨j, u⟩ := e
    obtain ⟨ha, hr⟩ := rising_cons.mp h
    simp only [put]
    split
    · next hk => exact rising_cons.mpr ⟨fun x hx => (List.mem_cons.mp hx).elim (fun e => e ▸ hk) (fun hx => Nat.lt_trans hk (ha x hx)), h⟩
    · split
      · next hk => exact rising_cons.mpr ⟨hk ▸ ha, hr⟩
      · next hk hj =>
        refine rising_cons.mpr ⟨fun x hx => ?_, ih hr⟩
        rcases mem_put hx with hx | hx
        · exact hx ▸ Nat.lt_of_le_of_ne (Nat.le_of_not_lt hk) (Ne.symm hj)
        · exact ha x hx

theorem rising_filter {α : Type} {p : Nat × α → Bool} {m : SMap α} (h : rising m = true) : rising (m.filter p) = true := by
  induction m with
  | nil => rfl
  | cons e m ih =>
    obtain ⟨j, u⟩ := e
    obtain ⟨ha, hr⟩ := rising_cons.mp h
    rw [List.filter_cons]
    split
    · exact rising_cons.mpr ⟨fun x hx => ha x (List.mem_filter.mp hx).1, ih hr⟩
    · exact ih hr

/-! ## Memory -/

theorem Mem.wf_wr {m : Mem} (a : Nat) (b : Byte) (h : m.wf = true) : (m.wr a b).wf = true := by
  simp only [Mem.wf, Bool.and_eq_true, List.all_eq_true, bne_iff_ne, ne_eq] at *
  unfold Mem.wr putD
  split
  · exact ⟨rising_filter h.1, fun x hx => h.2 x (List.mem_filter.mp hx).1⟩
  · next hb => exact ⟨rising_put h.1, fun x hx => (mem_put hx).elim (fun e => e ▸ hb) (h.2 x)⟩

theorem Mem.wf_wrBytes {m : Mem} (a : Nat) (bs : List Byte) (h : m.wf = true) : (m.wrBytes a bs).wf = true := by
  induction bs generalizing m a with
  | nil => exact h
  | cons b bs ih => exact ih (a + 1) (Mem.wf_wr a b h)

theorem Mem.wf_wrNat {m : Mem} (a n x : Nat) (h : m.wf = true) : (m.wrNat a n x).wf = true := Mem.wf_wrBytes a _ h
theorem Mem.wf_memOf (bs : List Byte) : (memOf bs).wf = true := Mem.wf_wrBytes 0 bs rfl

@[simp] theorem Mem.rd_wr_same (m : Mem) (a : Nat) (b : Byte) : (m.wr a b).rd a = b := getD_putD_same _ _ _ _
theorem Mem.rd_wr_other (m : Mem) {x a : Nat} (h : x ≠ a) (b : Byte) : (m.wr a b).rd x = m.rd x := getD_putD_other _ h _ _

@[simp] theorem Mem.length_rdBytes (m : Mem) (a n : Nat) : (m.rdBytes a n).length = n := by
  induction n generalizing a with
  | zero => rfl
  | succ n ih => simp [Mem.rdBytes, ih]

theorem Mem.getElem?_rdBytes (m : Mem) (a n i : Nat) (h : i < n) : (m.rdBytes a n)[i]? = some (m.rd (a + i)) := by
  induction n generalizing a i with
  | zero => exact absurd h (Nat.not_lt_zero i)
  | succ n ih =>
    cases i with
    | zero => rfl
    | succ i =>
      rw [Mem.rdBytes, List.getElem?_cons_succ, ih (a + 1) i (Nat.lt_of_succ_lt_succ h)]
      congr 2
      omega

theorem Mem.rdBytes_congr {m n : Mem} {a k : Nat} (h : ∀ x, a ≤ x → x < a + k → m.rd x = n.rd x) : m.rdBytes a k = n.rdBytes a k := by
  induction k generalizing a with
  | zero => rfl
  | succ k ih =>
    rw [Mem.rdBytes, Mem.rdBytes, h a (Nat.le_refl a) (by omega), ih (fun x h1 h2 => h x (by omega) (by omega))]

@[simp] theorem length_leBytes (n x : Nat) : (leBytes n x).length = n := by
  induction n generalizing x with
  | zero => rfl
  | succ n ih => simp [leBytes, ih]

theorem leNat_leBytes (n x : Nat) : leNat (leBytes n x) = x % 256 ^ n := by
  induction n generalizing x with
  | zero => simp [leBytes, leNat, Nat.mod_one]
  | succ n ih =>
    rw [leBytes, leNat, ih, BitVec.toNat_ofNat, Nat.pow_succ 256 n, Nat.mul_comm (256 ^ n) 256]
    exact Nat.mod_mul.symm

end Sys2Proof.Machine
end

