-- ==== Sys2Proof/Laws/Flash.lean ====
section
/-! SUPPORT. What flash holds for itself reads back: the row of manufacture, and the headers of units (11 R341, R342; 12 R357, R358). -/
namespace Sys2Proof.Machine

/-- A row of manufacture checks (R341, R342). -/
theorem otpRow_checks (d : Nat) : otpChecks (otpRow d) = true := by
  unfold otpRow
  generalize hb : (List.range 92).map _ = b
  have len : b.length = 92 := by rw [← hb]; simp
  have a24 : b[24]'(by omega) = 0 := by subst hb; simp
  have a25 : b[25]'(by omega) = 0x10 := by subst hb; simp
  have a26 : b[26]'(by omega) = 120 := by subst hb; simp
  have a27 : b[27]'(by omega) = 1 := by subst hb; simp
  have two : ((b ++ leBytes 4 (crc32c b).toNat).drop 24).take 2 = [0, 0x10] := by
    apply List.ext_getElem
    · simp [len]
    · intro i h _
      simp [len] at h
      match i with
      | 0 => simp [len, a24]
      | 1 => simp [len, a25]
  simp only [otpChecks, List.drop_left' len, List.take_left' len, leNat_leBytes, two]
  have lt := (crc32c b).isLt
  simp [len, a26, a27, leNat]
  exact lt

/-- The header of a unit takes 32 bytes (R358). -/
theorem FUnit.header_length (u : FUnit) : u.header.length = 32 := by simp [FUnit.header]

/-- The metadata of a unit gives its header back (R357). -/
theorem readHeader_metadata (u : FUnit) (tag : List Byte) : readHeader (u.metadata tag) = some u.header := by
  have len := u.header_length
  have one : u.header.drop 28 = leBytes 4 (crc32c (u.header.take 28)).toNat := by
    unfold FUnit.header
    generalize hb : leBytes 4 u.lua ++ _ ++ _ ++ _ ++ _ ++ _ ++ _ ++ _ ++ _ = b
    have lb : b.length = 28 := by rw [← hb]; simp
    simp only [List.drop_left' lb, List.take_left' lb]
  have a : (u.metadata tag).take 32 = u.header := by simp only [FUnit.metadata, List.append_assoc, List.take_left' len]
  have b : ((u.metadata tag).drop 32).take 32 = u.header := by
    simp only [FUnit.metadata, List.append_assoc, List.drop_left' len, List.take_left' len]
  simp only [readHeader, a, b, one, if_true]

end Sys2Proof.Machine
end

