-- ==== Sys2Proof/Laws/State.lean ====
section
/-! SUPPORT. What each named update of the state leaves as it was: one lemma per update and field. -/
namespace Sys2Proof.Machine
variable (s : State)

@[simp] theorem State.setTile_time (t : Nat) (x : Tile) : (s.setTile t x).time = s.time := rfl
@[simp] theorem State.setTile_set (t : Nat) (x : Tile) : (s.setTile t x).set = s.set := rfl
@[simp] theorem State.setTile_host (t : Nat) (x : Tile) : (s.setTile t x).host = s.host := rfl
@[simp] theorem State.setTile_engines (t : Nat) (x : Tile) : (s.setTile t x).engines = s.engines := rfl
@[simp] theorem State.setTile_ecc (t : Nat) (x : Tile) : (s.setTile t x).ecc = s.ecc := rfl
@[simp] theorem State.setTile_obj (t : Nat) (x : Tile) : (s.setTile t x).obj = s.obj := rfl
@[simp] theorem State.setTile_idx (t : Nat) (x : Tile) : (s.setTile t x).idx = s.idx := rfl
@[simp] theorem State.setTile_media (t : Nat) (x : Tile) : (s.setTile t x).media = s.media := rfl
@[simp] theorem State.setTile_ftl (t : Nat) (x : Tile) : (s.setTile t x).ftl = s.ftl := rfl
@[simp] theorem State.setTile_pwr (t : Nat) (x : Tile) : (s.setTile t x).pwr = s.pwr := rfl
@[simp] theorem State.setTile_boot (t : Nat) (x : Tile) : (s.setTile t x).boot = s.boot := rfl
@[simp] theorem State.setTile_rcv (t : Nat) (x : Tile) : (s.setTile t x).rcv = s.rcv := rfl
@[simp] theorem State.setTile_sec (t : Nat) (x : Tile) : (s.setTile t x).sec = s.sec := rfl
@[simp] theorem State.setTile_link (t : Nat) (x : Tile) : (s.setTile t x).link = s.link := rfl
@[simp] theorem State.setTile_reg (t : Nat) (x : Tile) : (s.setTile t x).reg = s.reg := rfl
@[simp] theorem State.setTile_chain (t : Nat) (x : Tile) : (s.setTile t x).chain = s.chain := rfl
@[simp] theorem State.setTile_freeCtr (t : Nat) (x : Tile) : (s.setTile t x).freeCtr = s.freeCtr := rfl
@[simp] theorem State.setTile_pending (t : Nat) (x : Tile) : (s.setTile t x).pending = s.pending := rfl

@[simp] theorem State.setCore_time (t c : Nat) (x : Core) : (s.setCore t c x).time = s.time := rfl
@[simp] theorem State.setCore_set (t c : Nat) (x : Core) : (s.setCore t c x).set = s.set := rfl
@[simp] theorem State.setCore_host (t c : Nat) (x : Core) : (s.setCore t c x).host = s.host := rfl
@[simp] theorem State.setCore_engines (t c : Nat) (x : Core) : (s.setCore t c x).engines = s.engines := rfl
@[simp] theorem State.setCore_ecc (t c : Nat) (x : Core) : (s.setCore t c x).ecc = s.ecc := rfl
@[simp] theorem State.setCore_obj (t c : Nat) (x : Core) : (s.setCore t c x).obj = s.obj := rfl
@[simp] theorem State.setCore_idx (t c : Nat) (x : Core) : (s.setCore t c x).idx = s.idx := rfl
@[simp] theorem State.setCore_media (t c : Nat) (x : Core) : (s.setCore t c x).media = s.media := rfl
@[simp] theorem State.setCore_ftl (t c : Nat) (x : Core) : (s.setCore t c x).ftl = s.ftl := rfl
@[simp] theorem State.setCore_pwr (t c : Nat) (x : Core) : (s.setCore t c x).pwr = s.pwr := rfl
@[simp] theorem State.setCore_boot (t c : Nat) (x : Core) : (s.setCore t c x).boot = s.boot := rfl
@[simp] theorem State.setCore_rcv (t c : Nat) (x : Core) : (s.setCore t c x).rcv = s.rcv := rfl
@[simp] theorem State.setCore_sec (t c : Nat) (x : Core) : (s.setCore t c x).sec = s.sec := rfl
@[simp] theorem State.setCore_link (t c : Nat) (x : Core) : (s.setCore t c x).link = s.link := rfl
@[simp] theorem State.setCore_reg (t c : Nat) (x : Core) : (s.setCore t c x).reg = s.reg := rfl
@[simp] theorem State.setCore_chain (t c : Nat) (x : Core) : (s.setCore t c x).chain = s.chain := rfl
@[simp] theorem State.setCore_freeCtr (t c : Nat) (x : Core) : (s.setCore t c x).freeCtr = s.freeCtr := rfl
@[simp] theorem State.setCore_pending (t c : Nat) (x : Core) : (s.setCore t c x).pending = s.pending := rfl

@[simp] theorem State.setEngine_time (e : Nat) (x : Engine) : (s.setEngine e x).time = s.time := rfl
@[simp] theorem State.setEngine_set (e : Nat) (x : Engine) : (s.setEngine e x).set = s.set := rfl
@[simp] theorem State.setEngine_host (e : Nat) (x : Engine) : (s.setEngine e x).host = s.host := rfl
@[simp] theorem State.setEngine_tiles (e : Nat) (x : Engine) : (s.setEngine e x).tiles = s.tiles := rfl
@[simp] theorem State.setEngine_ecc (e : Nat) (x : Engine) : (s.setEngine e x).ecc = s.ecc := rfl
@[simp] theorem State.setEngine_obj (e : Nat) (x : Engine) : (s.setEngine e x).obj = s.obj := rfl
@[simp] theorem State.setEngine_idx (e : Nat) (x : Engine) : (s.setEngine e x).idx = s.idx := rfl
@[simp] theorem State.setEngine_media (e : Nat) (x : Engine) : (s.setEngine e x).media = s.media := rfl
@[simp] theorem State.setEngine_ftl (e : Nat) (x : Engine) : (s.setEngine e x).ftl = s.ftl := rfl
@[simp] theorem State.setEngine_pwr (e : Nat) (x : Engine) : (s.setEngine e x).pwr = s.pwr := rfl
@[simp] theorem State.setEngine_boot (e : Nat) (x : Engine) : (s.setEngine e x).boot = s.boot := rfl
@[simp] theorem State.setEngine_rcv (e : Nat) (x : Engine) : (s.setEngine e x).rcv = s.rcv := rfl
@[simp] theorem State.setEngine_sec (e : Nat) (x : Engine) : (s.setEngine e x).sec = s.sec := rfl
@[simp] theorem State.setEngine_link (e : Nat) (x : Engine) : (s.setEngine e x).link = s.link := rfl
@[simp] theorem State.setEngine_reg (e : Nat) (x : Engine) : (s.setEngine e x).reg = s.reg := rfl
@[simp] theorem State.setEngine_chain (e : Nat) (x : Engine) : (s.setEngine e x).chain = s.chain := rfl
@[simp] theorem State.setEngine_freeCtr (e : Nat) (x : Engine) : (s.setEngine e x).freeCtr = s.freeCtr := rfl
@[simp] theorem State.setEngine_pending (e : Nat) (x : Engine) : (s.setEngine e x).pending = s.pending := rfl

@[simp] theorem State.setCtx_time (e k : Nat) (x : Ctx) : (s.setCtx e k x).time = s.time := rfl
@[simp] theorem State.setCtx_set (e k : Nat) (x : Ctx) : (s.setCtx e k x).set = s.set := rfl
@[simp] theorem State.setCtx_host (e k : Nat) (x : Ctx) : (s.setCtx e k x).host = s.host := rfl
@[simp] theorem State.setCtx_tiles (e k : Nat) (x : Ctx) : (s.setCtx e k x).tiles = s.tiles := rfl
@[simp] theorem State.setCtx_ecc (e k : Nat) (x : Ctx) : (s.setCtx e k x).ecc = s.ecc := rfl
@[simp] theorem State.setCtx_obj (e k : Nat) (x : Ctx) : (s.setCtx e k x).obj = s.obj := rfl
@[simp] theorem State.setCtx_idx (e k : Nat) (x : Ctx) : (s.setCtx e k x).idx = s.idx := rfl
@[simp] theorem State.setCtx_media (e k : Nat) (x : Ctx) : (s.setCtx e k x).media = s.media := rfl
@[simp] theorem State.setCtx_ftl (e k : Nat) (x : Ctx) : (s.setCtx e k x).ftl = s.ftl := rfl
@[simp] theorem State.setCtx_pwr (e k : Nat) (x : Ctx) : (s.setCtx e k x).pwr = s.pwr := rfl
@[simp] theorem State.setCtx_boot (e k : Nat) (x : Ctx) : (s.setCtx e k x).boot = s.boot := rfl
@[simp] theorem State.setCtx_rcv (e k : Nat) (x : Ctx) : (s.setCtx e k x).rcv = s.rcv := rfl
@[simp] theorem State.setCtx_sec (e k : Nat) (x : Ctx) : (s.setCtx e k x).sec = s.sec := rfl
@[simp] theorem State.setCtx_link (e k : Nat) (x : Ctx) : (s.setCtx e k x).link = s.link := rfl
@[simp] theorem State.setCtx_reg (e k : Nat) (x : Ctx) : (s.setCtx e k x).reg = s.reg := rfl
@[simp] theorem State.setCtx_chain (e k : Nat) (x : Ctx) : (s.setCtx e k x).chain = s.chain := rfl
@[simp] theorem State.setCtx_freeCtr (e k : Nat) (x : Ctx) : (s.setCtx e k x).freeCtr = s.freeCtr := rfl
@[simp] theorem State.setCtx_pending (e k : Nat) (x : Ctx) : (s.setCtx e k x).pending = s.pending := rfl

@[simp] theorem State.setRegs_time (ag : Agent) (r : Regs) : (s.setRegs ag r).time = s.time := by cases ag <;> rfl
@[simp] theorem State.setRegs_set (ag : Agent) (r : Regs) : (s.setRegs ag r).set = s.set := by cases ag <;> rfl
@[simp] theorem State.setRegs_host (ag : Agent) (r : Regs) : (s.setRegs ag r).host = s.host := by cases ag <;> rfl
@[simp] theorem State.setRegs_ecc (ag : Agent) (r : Regs) : (s.setRegs ag r).ecc = s.ecc := by cases ag <;> rfl
@[simp] theorem State.setRegs_obj (ag : Agent) (r : Regs) : (s.setRegs ag r).obj = s.obj := by cases ag <;> rfl
@[simp] theorem State.setRegs_idx (ag : Agent) (r : Regs) : (s.setRegs ag r).idx = s.idx := by cases ag <;> rfl
@[simp] theorem State.setRegs_media (ag : Agent) (r : Regs) : (s.setRegs ag r).media = s.media := by cases ag <;> rfl
@[simp] theorem State.setRegs_ftl (ag : Agent) (r : Regs) : (s.setRegs ag r).ftl = s.ftl := by cases ag <;> rfl
@[simp] theorem State.setRegs_pwr (ag : Agent) (r : Regs) : (s.setRegs ag r).pwr = s.pwr := by cases ag <;> rfl
@[simp] theorem State.setRegs_boot (ag : Agent) (r : Regs) : (s.setRegs ag r).boot = s.boot := by cases ag <;> rfl
@[simp] theorem State.setRegs_rcv (ag : Agent) (r : Regs) : (s.setRegs ag r).rcv = s.rcv := by cases ag <;> rfl
@[simp] theorem State.setRegs_sec (ag : Agent) (r : Regs) : (s.setRegs ag r).sec = s.sec := by cases ag <;> rfl
@[simp] theorem State.setRegs_link (ag : Agent) (r : Regs) : (s.setRegs ag r).link = s.link := by cases ag <;> rfl
@[simp] theorem State.setRegs_reg (ag : Agent) (r : Regs) : (s.setRegs ag r).reg = s.reg := by cases ag <;> rfl
@[simp] theorem State.setRegs_chain (ag : Agent) (r : Regs) : (s.setRegs ag r).chain = s.chain := by cases ag <;> rfl
@[simp] theorem State.setRegs_freeCtr (ag : Agent) (r : Regs) : (s.setRegs ag r).freeCtr = s.freeCtr := by cases ag <;> rfl
@[simp] theorem State.setRegs_pending (ag : Agent) (r : Regs) : (s.setRegs ag r).pending = s.pending := by cases ag <;> rfl

@[simp] theorem State.updRegs_time (ag : Agent) (f : Regs → Regs) : (s.updRegs ag f).time = s.time := by cases ag <;> rfl
@[simp] theorem State.updRegs_set (ag : Agent) (f : Regs → Regs) : (s.updRegs ag f).set = s.set := by cases ag <;> rfl
@[simp] theorem State.updRegs_host (ag : Agent) (f : Regs → Regs) : (s.updRegs ag f).host = s.host := by cases ag <;> rfl
@[simp] theorem State.updRegs_ecc (ag : Agent) (f : Regs → Regs) : (s.updRegs ag f).ecc = s.ecc := by cases ag <;> rfl
@[simp] theorem State.updRegs_obj (ag : Agent) (f : Regs → Regs) : (s.updRegs ag f).obj = s.obj := by cases ag <;> rfl
@[simp] theorem State.updRegs_idx (ag : Agent) (f : Regs → Regs) : (s.updRegs ag f).idx = s.idx := by cases ag <;> rfl
@[simp] theorem State.updRegs_media (ag : Agent) (f : Regs → Regs) : (s.updRegs ag f).media = s.media := by cases ag <;> rfl
@[simp] theorem State.updRegs_ftl (ag : Agent) (f : Regs → Regs) : (s.updRegs ag f).ftl = s.ftl := by cases ag <;> rfl
@[simp] theorem State.updRegs_pwr (ag : Agent) (f : Regs → Regs) : (s.updRegs ag f).pwr = s.pwr := by cases ag <;> rfl
@[simp] theorem State.updRegs_boot (ag : Agent) (f : Regs → Regs) : (s.updRegs ag f).boot = s.boot := by cases ag <;> rfl
@[simp] theorem State.updRegs_rcv (ag : Agent) (f : Regs → Regs) : (s.updRegs ag f).rcv = s.rcv := by cases ag <;> rfl
@[simp] theorem State.updRegs_sec (ag : Agent) (f : Regs → Regs) : (s.updRegs ag f).sec = s.sec := by cases ag <;> rfl
@[simp] theorem State.updRegs_link (ag : Agent) (f : Regs → Regs) : (s.updRegs ag f).link = s.link := by cases ag <;> rfl
@[simp] theorem State.updRegs_reg (ag : Agent) (f : Regs → Regs) : (s.updRegs ag f).reg = s.reg := by cases ag <;> rfl
@[simp] theorem State.updRegs_chain (ag : Agent) (f : Regs → Regs) : (s.updRegs ag f).chain = s.chain := by cases ag <;> rfl
@[simp] theorem State.updRegs_freeCtr (ag : Agent) (f : Regs → Regs) : (s.updRegs ag f).freeCtr = s.freeCtr := by cases ag <;> rfl
@[simp] theorem State.updRegs_pending (ag : Agent) (f : Regs → Regs) : (s.updRegs ag f).pending = s.pending := by cases ag <;> rfl

@[simp] theorem State.updJob_time (n : Nat) (f : Job → Job) : (s.updJob n f).time = s.time := rfl
@[simp] theorem State.updJob_set (n : Nat) (f : Job → Job) : (s.updJob n f).set = s.set := rfl
@[simp] theorem State.updJob_tiles (n : Nat) (f : Job → Job) : (s.updJob n f).tiles = s.tiles := rfl
@[simp] theorem State.updJob_engines (n : Nat) (f : Job → Job) : (s.updJob n f).engines = s.engines := rfl
@[simp] theorem State.updJob_ecc (n : Nat) (f : Job → Job) : (s.updJob n f).ecc = s.ecc := rfl
@[simp] theorem State.updJob_obj (n : Nat) (f : Job → Job) : (s.updJob n f).obj = s.obj := rfl
@[simp] theorem State.updJob_idx (n : Nat) (f : Job → Job) : (s.updJob n f).idx = s.idx := rfl
@[simp] theorem State.updJob_media (n : Nat) (f : Job → Job) : (s.updJob n f).media = s.media := rfl
@[simp] theorem State.updJob_ftl (n : Nat) (f : Job → Job) : (s.updJob n f).ftl = s.ftl := rfl
@[simp] theorem State.updJob_pwr (n : Nat) (f : Job → Job) : (s.updJob n f).pwr = s.pwr := rfl
@[simp] theorem State.updJob_boot (n : Nat) (f : Job → Job) : (s.updJob n f).boot = s.boot := rfl
@[simp] theorem State.updJob_rcv (n : Nat) (f : Job → Job) : (s.updJob n f).rcv = s.rcv := rfl
@[simp] theorem State.updJob_sec (n : Nat) (f : Job → Job) : (s.updJob n f).sec = s.sec := rfl
@[simp] theorem State.updJob_link (n : Nat) (f : Job → Job) : (s.updJob n f).link = s.link := rfl
@[simp] theorem State.updJob_reg (n : Nat) (f : Job → Job) : (s.updJob n f).reg = s.reg := rfl
@[simp] theorem State.updJob_chain (n : Nat) (f : Job → Job) : (s.updJob n f).chain = s.chain := rfl
@[simp] theorem State.updJob_freeCtr (n : Nat) (f : Job → Job) : (s.updJob n f).freeCtr = s.freeCtr := rfl
@[simp] theorem State.updJob_pending (n : Nat) (f : Job → Job) : (s.updJob n f).pending = s.pending := rfl

@[simp] theorem State.updJobQ_time (n : Option Nat) (f : Job → Job) : (s.updJob? n f).time = s.time := by cases n <;> rfl
@[simp] theorem State.updJobQ_set (n : Option Nat) (f : Job → Job) : (s.updJob? n f).set = s.set := by cases n <;> rfl
@[simp] theorem State.updJobQ_tiles (n : Option Nat) (f : Job → Job) : (s.updJob? n f).tiles = s.tiles := by cases n <;> rfl
@[simp] theorem State.updJobQ_engines (n : Option Nat) (f : Job → Job) : (s.updJob? n f).engines = s.engines := by cases n <;> rfl
@[simp] theorem State.updJobQ_ecc (n : Option Nat) (f : Job → Job) : (s.updJob? n f).ecc = s.ecc := by cases n <;> rfl
@[simp] theorem State.updJobQ_obj (n : Option Nat) (f : Job → Job) : (s.updJob? n f).obj = s.obj := by cases n <;> rfl
@[simp] theorem State.updJobQ_idx (n : Option Nat) (f : Job → Job) : (s.updJob? n f).idx = s.idx := by cases n <;> rfl
@[simp] theorem State.updJobQ_media (n : Option Nat) (f : Job → Job) : (s.updJob? n f).media = s.media := by cases n <;> rfl
@[simp] theorem State.updJobQ_ftl (n : Option Nat) (f : Job → Job) : (s.updJob? n f).ftl = s.ftl := by cases n <;> rfl
@[simp] theorem State.updJobQ_pwr (n : Option Nat) (f : Job → Job) : (s.updJob? n f).pwr = s.pwr := by cases n <;> rfl
@[simp] theorem State.updJobQ_boot (n : Option Nat) (f : Job → Job) : (s.updJob? n f).boot = s.boot := by cases n <;> rfl
@[simp] theorem State.updJobQ_rcv (n : Option Nat) (f : Job → Job) : (s.updJob? n f).rcv = s.rcv := by cases n <;> rfl
@[simp] theorem State.updJobQ_sec (n : Option Nat) (f : Job → Job) : (s.updJob? n f).sec = s.sec := by cases n <;> rfl
@[simp] theorem State.updJobQ_link (n : Option Nat) (f : Job → Job) : (s.updJob? n f).link = s.link := by cases n <;> rfl
@[simp] theorem State.updJobQ_reg (n : Option Nat) (f : Job → Job) : (s.updJob? n f).reg = s.reg := by cases n <;> rfl
@[simp] theorem State.updJobQ_chain (n : Option Nat) (f : Job → Job) : (s.updJob? n f).chain = s.chain := by cases n <;> rfl
@[simp] theorem State.updJobQ_freeCtr (n : Option Nat) (f : Job → Job) : (s.updJob? n f).freeCtr = s.freeCtr := by cases n <;> rfl
@[simp] theorem State.updJobQ_pending (n : Option Nat) (f : Job → Job) : (s.updJob? n f).pending = s.pending := by cases n <;> rfl

@[simp] theorem State.setEccKind_time (k : Nat) (x : EccKind) : (s.setEccKind k x).time = s.time := rfl
@[simp] theorem State.setEccKind_set (k : Nat) (x : EccKind) : (s.setEccKind k x).set = s.set := rfl
@[simp] theorem State.setEccKind_host (k : Nat) (x : EccKind) : (s.setEccKind k x).host = s.host := rfl
@[simp] theorem State.setEccKind_tiles (k : Nat) (x : EccKind) : (s.setEccKind k x).tiles = s.tiles := rfl
@[simp] theorem State.setEccKind_engines (k : Nat) (x : EccKind) : (s.setEccKind k x).engines = s.engines := rfl
@[simp] theorem State.setEccKind_obj (k : Nat) (x : EccKind) : (s.setEccKind k x).obj = s.obj := rfl
@[simp] theorem State.setEccKind_idx (k : Nat) (x : EccKind) : (s.setEccKind k x).idx = s.idx := rfl
@[simp] theorem State.setEccKind_media (k : Nat) (x : EccKind) : (s.setEccKind k x).media = s.media := rfl
@[simp] theorem State.setEccKind_ftl (k : Nat) (x : EccKind) : (s.setEccKind k x).ftl = s.ftl := rfl
@[simp] theorem State.setEccKind_pwr (k : Nat) (x : EccKind) : (s.setEccKind k x).pwr = s.pwr := rfl
@[simp] theorem State.setEccKind_boot (k : Nat) (x : EccKind) : (s.setEccKind k x).boot = s.boot := rfl
@[simp] theorem State.setEccKind_rcv (k : Nat) (x : EccKind) : (s.setEccKind k x).rcv = s.rcv := rfl
@[simp] theorem State.setEccKind_sec (k : Nat) (x : EccKind) : (s.setEccKind k x).sec = s.sec := rfl
@[simp] theorem State.setEccKind_link (k : Nat) (x : EccKind) : (s.setEccKind k x).link = s.link := rfl
@[simp] theorem State.setEccKind_reg (k : Nat) (x : EccKind) : (s.setEccKind k x).reg = s.reg := rfl
@[simp] theorem State.setEccKind_chain (k : Nat) (x : EccKind) : (s.setEccKind k x).chain = s.chain := rfl
@[simp] theorem State.setEccKind_freeCtr (k : Nat) (x : EccKind) : (s.setEccKind k x).freeCtr = s.freeCtr := rfl
@[simp] theorem State.setEccKind_pending (k : Nat) (x : EccKind) : (s.setEccKind k x).pending = s.pending := rfl

@[simp] theorem State.noteCe_time (k u c : Nat) (b : BitVec 7) (a : BitVec 40) : (s.noteCe k u c b a).time = s.time := rfl
@[simp] theorem State.noteCe_set (k u c : Nat) (b : BitVec 7) (a : BitVec 40) : (s.noteCe k u c b a).set = s.set := rfl
@[simp] theorem State.noteCe_host (k u c : Nat) (b : BitVec 7) (a : BitVec 40) : (s.noteCe k u c b a).host = s.host := rfl
@[simp] theorem State.noteCe_tiles (k u c : Nat) (b : BitVec 7) (a : BitVec 40) : (s.noteCe k u c b a).tiles = s.tiles := rfl
@[simp] theorem State.noteCe_engines (k u c : Nat) (b : BitVec 7) (a : BitVec 40) : (s.noteCe k u c b a).engines = s.engines := rfl
@[simp] theorem State.noteCe_obj (k u c : Nat) (b : BitVec 7) (a : BitVec 40) : (s.noteCe k u c b a).obj = s.obj := rfl
@[simp] theorem State.noteCe_idx (k u c : Nat) (b : BitVec 7) (a : BitVec 40) : (s.noteCe k u c b a).idx = s.idx := rfl
@[simp] theorem State.noteCe_media (k u c : Nat) (b : BitVec 7) (a : BitVec 40) : (s.noteCe k u c b a).media = s.media := rfl
@[simp] theorem State.noteCe_ftl (k u c : Nat) (b : BitVec 7) (a : BitVec 40) : (s.noteCe k u c b a).ftl = s.ftl := rfl
@[simp] theorem State.noteCe_pwr (k u c : Nat) (b : BitVec 7) (a : BitVec 40) : (s.noteCe k u c b a).pwr = s.pwr := rfl
@[simp] theorem State.noteCe_boot (k u c : Nat) (b : BitVec 7) (a : BitVec 40) : (s.noteCe k u c b a).boot = s.boot := rfl
@[simp] theorem State.noteCe_rcv (k u c : Nat) (b : BitVec 7) (a : BitVec 40) : (s.noteCe k u c b a).rcv = s.rcv := rfl
@[simp] theorem State.noteCe_sec (k u c : Nat) (b : BitVec 7) (a : BitVec 40) : (s.noteCe k u c b a).sec = s.sec := rfl
@[simp] theorem State.noteCe_link (k u c : Nat) (b : BitVec 7) (a : BitVec 40) : (s.noteCe k u c b a).link = s.link := rfl
@[simp] theorem State.noteCe_reg (k u c : Nat) (b : BitVec 7) (a : BitVec 40) : (s.noteCe k u c b a).reg = s.reg := rfl
@[simp] theorem State.noteCe_chain (k u c : Nat) (b : BitVec 7) (a : BitVec 40) : (s.noteCe k u c b a).chain = s.chain := rfl
@[simp] theorem State.noteCe_freeCtr (k u c : Nat) (b : BitVec 7) (a : BitVec 40) : (s.noteCe k u c b a).freeCtr = s.freeCtr := rfl
@[simp] theorem State.noteCe_pending (k u c : Nat) (b : BitVec 7) (a : BitVec 40) : (s.noteCe k u c b a).pending = s.pending := rfl

@[simp] theorem State.sramWrite_time (t a : Nat) (bs : List Byte) : (s.sramWrite t a bs).time = s.time := rfl
@[simp] theorem State.sramWrite_set (t a : Nat) (bs : List Byte) : (s.sramWrite t a bs).set = s.set := rfl
@[simp] theorem State.sramWrite_host (t a : Nat) (bs : List Byte) : (s.sramWrite t a bs).host = s.host := rfl
@[simp] theorem State.sramWrite_engines (t a : Nat) (bs : List Byte) : (s.sramWrite t a bs).engines = s.engines := rfl
@[simp] theorem State.sramWrite_obj (t a : Nat) (bs : List Byte) : (s.sramWrite t a bs).obj = s.obj := rfl
@[simp] theorem State.sramWrite_idx (t a : Nat) (bs : List Byte) : (s.sramWrite t a bs).idx = s.idx := rfl
@[simp] theorem State.sramWrite_media (t a : Nat) (bs : List Byte) : (s.sramWrite t a bs).media = s.media := rfl
@[simp] theorem State.sramWrite_ftl (t a : Nat) (bs : List Byte) : (s.sramWrite t a bs).ftl = s.ftl := rfl
@[simp] theorem State.sramWrite_pwr (t a : Nat) (bs : List Byte) : (s.sramWrite t a bs).pwr = s.pwr := rfl
@[simp] theorem State.sramWrite_boot (t a : Nat) (bs : List Byte) : (s.sramWrite t a bs).boot = s.boot := rfl
@[simp] theorem State.sramWrite_rcv (t a : Nat) (bs : List Byte) : (s.sramWrite t a bs).rcv = s.rcv := rfl
@[simp] theorem State.sramWrite_sec (t a : Nat) (bs : List Byte) : (s.sramWrite t a bs).sec = s.sec := rfl
@[simp] theorem State.sramWrite_link (t a : Nat) (bs : List Byte) : (s.sramWrite t a bs).link = s.link := rfl
@[simp] theorem State.sramWrite_reg (t a : Nat) (bs : List Byte) : (s.sramWrite t a bs).reg = s.reg := rfl
@[simp] theorem State.sramWrite_chain (t a : Nat) (bs : List Byte) : (s.sramWrite t a bs).chain = s.chain := rfl
@[simp] theorem State.sramWrite_freeCtr (t a : Nat) (bs : List Byte) : (s.sramWrite t a bs).freeCtr = s.freeCtr := rfl
@[simp] theorem State.sramWrite_pending (t a : Nat) (bs : List Byte) : (s.sramWrite t a bs).pending = s.pending := rfl

@[simp] theorem State.count_time (n : Option Nat) (c : Counts) : (s.count n c).time = s.time := by cases n <;> rfl
@[simp] theorem State.count_set (n : Option Nat) (c : Counts) : (s.count n c).set = s.set := by cases n <;> rfl
@[simp] theorem State.count_tiles (n : Option Nat) (c : Counts) : (s.count n c).tiles = s.tiles := by cases n <;> rfl
@[simp] theorem State.count_engines (n : Option Nat) (c : Counts) : (s.count n c).engines = s.engines := by cases n <;> rfl
@[simp] theorem State.count_ecc (n : Option Nat) (c : Counts) : (s.count n c).ecc = s.ecc := by cases n <;> rfl
@[simp] theorem State.count_obj (n : Option Nat) (c : Counts) : (s.count n c).obj = s.obj := by cases n <;> rfl
@[simp] theorem State.count_idx (n : Option Nat) (c : Counts) : (s.count n c).idx = s.idx := by cases n <;> rfl
@[simp] theorem State.count_media (n : Option Nat) (c : Counts) : (s.count n c).media = s.media := by cases n <;> rfl
@[simp] theorem State.count_ftl (n : Option Nat) (c : Counts) : (s.count n c).ftl = s.ftl := by cases n <;> rfl
@[simp] theorem State.count_pwr (n : Option Nat) (c : Counts) : (s.count n c).pwr = s.pwr := by cases n <;> rfl
@[simp] theorem State.count_boot (n : Option Nat) (c : Counts) : (s.count n c).boot = s.boot := by cases n <;> rfl
@[simp] theorem State.count_rcv (n : Option Nat) (c : Counts) : (s.count n c).rcv = s.rcv := by cases n <;> rfl
@[simp] theorem State.count_sec (n : Option Nat) (c : Counts) : (s.count n c).sec = s.sec := by cases n <;> rfl
@[simp] theorem State.count_link (n : Option Nat) (c : Counts) : (s.count n c).link = s.link := by cases n <;> rfl
@[simp] theorem State.count_reg (n : Option Nat) (c : Counts) : (s.count n c).reg = s.reg := by cases n <;> rfl
@[simp] theorem State.count_chain (n : Option Nat) (c : Counts) : (s.count n c).chain = s.chain := by cases n <;> rfl
@[simp] theorem State.count_freeCtr (n : Option Nat) (c : Counts) : (s.count n c).freeCtr = s.freeCtr := by cases n <;> rfl
@[simp] theorem State.count_pending (n : Option Nat) (c : Counts) : (s.count n c).pending = s.pending := by cases n <;> rfl

@[simp] theorem State.stampNow_set (src : BitVec 9) (k : Byte) (d : BitVec 28) (a : List W128) : ((s.stampNow src k d a).2).set = s.set := rfl
@[simp] theorem State.stampNow_host (src : BitVec 9) (k : Byte) (d : BitVec 28) (a : List W128) : ((s.stampNow src k d a).2).host = s.host := rfl
@[simp] theorem State.stampNow_tiles (src : BitVec 9) (k : Byte) (d : BitVec 28) (a : List W128) : ((s.stampNow src k d a).2).tiles = s.tiles := rfl
@[simp] theorem State.stampNow_engines (src : BitVec 9) (k : Byte) (d : BitVec 28) (a : List W128) : ((s.stampNow src k d a).2).engines = s.engines := rfl
@[simp] theorem State.stampNow_ecc (src : BitVec 9) (k : Byte) (d : BitVec 28) (a : List W128) : ((s.stampNow src k d a).2).ecc = s.ecc := rfl
@[simp] theorem State.stampNow_obj (src : BitVec 9) (k : Byte) (d : BitVec 28) (a : List W128) : ((s.stampNow src k d a).2).obj = s.obj := rfl
@[simp] theorem State.stampNow_idx (src : BitVec 9) (k : Byte) (d : BitVec 28) (a : List W128) : ((s.stampNow src k d a).2).idx = s.idx := rfl
@[simp] theorem State.stampNow_media (src : BitVec 9) (k : Byte) (d : BitVec 28) (a : List W128) : ((s.stampNow src k d a).2).media = s.media := rfl
@[simp] theorem State.stampNow_ftl (src : BitVec 9) (k : Byte) (d : BitVec 28) (a : List W128) : ((s.stampNow src k d a).2).ftl = s.ftl := rfl
@[simp] theorem State.stampNow_pwr (src : BitVec 9) (k : Byte) (d : BitVec 28) (a : List W128) : ((s.stampNow src k d a).2).pwr = s.pwr := rfl
@[simp] theorem State.stampNow_boot (src : BitVec 9) (k : Byte) (d : BitVec 28) (a : List W128) : ((s.stampNow src k d a).2).boot = s.boot := rfl
@[simp] theorem State.stampNow_rcv (src : BitVec 9) (k : Byte) (d : BitVec 28) (a : List W128) : ((s.stampNow src k d a).2).rcv = s.rcv := rfl
@[simp] theorem State.stampNow_sec (src : BitVec 9) (k : Byte) (d : BitVec 28) (a : List W128) : ((s.stampNow src k d a).2).sec = s.sec := rfl
@[simp] theorem State.stampNow_link (src : BitVec 9) (k : Byte) (d : BitVec 28) (a : List W128) : ((s.stampNow src k d a).2).link = s.link := rfl
@[simp] theorem State.stampNow_reg (src : BitVec 9) (k : Byte) (d : BitVec 28) (a : List W128) : ((s.stampNow src k d a).2).reg = s.reg := rfl
@[simp] theorem State.stampNow_chain (src : BitVec 9) (k : Byte) (d : BitVec 28) (a : List W128) : ((s.stampNow src k d a).2).chain = s.chain := rfl
@[simp] theorem State.stampNow_freeCtr (src : BitVec 9) (k : Byte) (d : BitVec 28) (a : List W128) : ((s.stampNow src k d a).2).freeCtr = s.freeCtr := rfl
@[simp] theorem State.stampNow_pending (src : BitVec 9) (k : Byte) (d : BitVec 28) (a : List W128) : ((s.stampNow src k d a).2).pending = s.pending := rfl

@[simp] theorem State.stampAt_set (src : BitVec 9) (k : Byte) (d : BitVec 28) (a : List W128) : (s.stampAt src k d a).set = s.set := by unfold State.stampAt State.stampOf; split <;> rfl
@[simp] theorem State.stampAt_host (src : BitVec 9) (k : Byte) (d : BitVec 28) (a : List W128) : (s.stampAt src k d a).host = s.host := by unfold State.stampAt State.stampOf; split <;> rfl
@[simp] theorem State.stampAt_tiles (src : BitVec 9) (k : Byte) (d : BitVec 28) (a : List W128) : (s.stampAt src k d a).tiles = s.tiles := by unfold State.stampAt State.stampOf; split <;> rfl
@[simp] theorem State.stampAt_engines (src : BitVec 9) (k : Byte) (d : BitVec 28) (a : List W128) : (s.stampAt src k d a).engines = s.engines := by unfold State.stampAt State.stampOf; split <;> rfl
@[simp] theorem State.stampAt_ecc (src : BitVec 9) (k : Byte) (d : BitVec 28) (a : List W128) : (s.stampAt src k d a).ecc = s.ecc := by unfold State.stampAt State.stampOf; split <;> rfl
@[simp] theorem State.stampAt_obj (src : BitVec 9) (k : Byte) (d : BitVec 28) (a : List W128) : (s.stampAt src k d a).obj = s.obj := by unfold State.stampAt State.stampOf; split <;> rfl
@[simp] theorem State.stampAt_idx (src : BitVec 9) (k : Byte) (d : BitVec 28) (a : List W128) : (s.stampAt src k d a).idx = s.idx := by unfold State.stampAt State.stampOf; split <;> rfl
@[simp] theorem State.stampAt_media (src : BitVec 9) (k : Byte) (d : BitVec 28) (a : List W128) : (s.stampAt src k d a).media = s.media := by unfold State.stampAt State.stampOf; split <;> rfl
@[simp] theorem State.stampAt_ftl (src : BitVec 9) (k : Byte) (d : BitVec 28) (a : List W128) : (s.stampAt src k d a).ftl = s.ftl := by unfold State.stampAt State.stampOf; split <;> rfl
@[simp] theorem State.stampAt_pwr (src : BitVec 9) (k : Byte) (d : BitVec 28) (a : List W128) : (s.stampAt src k d a).pwr = s.pwr := by unfold State.stampAt State.stampOf; split <;> rfl
@[simp] theorem State.stampAt_boot (src : BitVec 9) (k : Byte) (d : BitVec 28) (a : List W128) : (s.stampAt src k d a).boot = s.boot := by unfold State.stampAt State.stampOf; split <;> rfl
@[simp] theorem State.stampAt_rcv (src : BitVec 9) (k : Byte) (d : BitVec 28) (a : List W128) : (s.stampAt src k d a).rcv = s.rcv := by unfold State.stampAt State.stampOf; split <;> rfl
@[simp] theorem State.stampAt_sec (src : BitVec 9) (k : Byte) (d : BitVec 28) (a : List W128) : (s.stampAt src k d a).sec = s.sec := by unfold State.stampAt State.stampOf; split <;> rfl
@[simp] theorem State.stampAt_link (src : BitVec 9) (k : Byte) (d : BitVec 28) (a : List W128) : (s.stampAt src k d a).link = s.link := by unfold State.stampAt State.stampOf; split <;> rfl
@[simp] theorem State.stampAt_reg (src : BitVec 9) (k : Byte) (d : BitVec 28) (a : List W128) : (s.stampAt src k d a).reg = s.reg := by unfold State.stampAt State.stampOf; split <;> rfl
@[simp] theorem State.stampAt_chain (src : BitVec 9) (k : Byte) (d : BitVec 28) (a : List W128) : (s.stampAt src k d a).chain = s.chain := by unfold State.stampAt State.stampOf; split <;> rfl
@[simp] theorem State.stampAt_freeCtr (src : BitVec 9) (k : Byte) (d : BitVec 28) (a : List W128) : (s.stampAt src k d a).freeCtr = s.freeCtr := by unfold State.stampAt State.stampOf; split <;> rfl
@[simp] theorem State.stampAt_pending (src : BitVec 9) (k : Byte) (d : BitVec 28) (a : List W128) : (s.stampAt src k d a).pending = s.pending := by unfold State.stampAt State.stampOf; split <;> rfl

@[simp] theorem State.stamp_set (src : BitVec 9) (k : Byte) (d : BitVec 28) : (s.stamp src k d).set = s.set := by unfold State.stamp State.stampAt State.stampOf; split <;> rfl
@[simp] theorem State.stamp_host (src : BitVec 9) (k : Byte) (d : BitVec 28) : (s.stamp src k d).host = s.host := by unfold State.stamp State.stampAt State.stampOf; split <;> rfl
@[simp] theorem State.stamp_tiles (src : BitVec 9) (k : Byte) (d : BitVec 28) : (s.stamp src k d).tiles = s.tiles := by unfold State.stamp State.stampAt State.stampOf; split <;> rfl
@[simp] theorem State.stamp_engines (src : BitVec 9) (k : Byte) (d : BitVec 28) : (s.stamp src k d).engines = s.engines := by unfold State.stamp State.stampAt State.stampOf; split <;> rfl
@[simp] theorem State.stamp_ecc (src : BitVec 9) (k : Byte) (d : BitVec 28) : (s.stamp src k d).ecc = s.ecc := by unfold State.stamp State.stampAt State.stampOf; split <;> rfl
@[simp] theorem State.stamp_obj (src : BitVec 9) (k : Byte) (d : BitVec 28) : (s.stamp src k d).obj = s.obj := by unfold State.stamp State.stampAt State.stampOf; split <;> rfl
@[simp] theorem State.stamp_idx (src : BitVec 9) (k : Byte) (d : BitVec 28) : (s.stamp src k d).idx = s.idx := by unfold State.stamp State.stampAt State.stampOf; split <;> rfl
@[simp] theorem State.stamp_media (src : BitVec 9) (k : Byte) (d : BitVec 28) : (s.stamp src k d).media = s.media := by unfold State.stamp State.stampAt State.stampOf; split <;> rfl
@[simp] theorem State.stamp_ftl (src : BitVec 9) (k : Byte) (d : BitVec 28) : (s.stamp src k d).ftl = s.ftl := by unfold State.stamp State.stampAt State.stampOf; split <;> rfl
@[simp] theorem State.stamp_pwr (src : BitVec 9) (k : Byte) (d : BitVec 28) : (s.stamp src k d).pwr = s.pwr := by unfold State.stamp State.stampAt State.stampOf; split <;> rfl
@[simp] theorem State.stamp_boot (src : BitVec 9) (k : Byte) (d : BitVec 28) : (s.stamp src k d).boot = s.boot := by unfold State.stamp State.stampAt State.stampOf; split <;> rfl
@[simp] theorem State.stamp_rcv (src : BitVec 9) (k : Byte) (d : BitVec 28) : (s.stamp src k d).rcv = s.rcv := by unfold State.stamp State.stampAt State.stampOf; split <;> rfl
@[simp] theorem State.stamp_sec (src : BitVec 9) (k : Byte) (d : BitVec 28) : (s.stamp src k d).sec = s.sec := by unfold State.stamp State.stampAt State.stampOf; split <;> rfl
@[simp] theorem State.stamp_link (src : BitVec 9) (k : Byte) (d : BitVec 28) : (s.stamp src k d).link = s.link := by unfold State.stamp State.stampAt State.stampOf; split <;> rfl
@[simp] theorem State.stamp_reg (src : BitVec 9) (k : Byte) (d : BitVec 28) : (s.stamp src k d).reg = s.reg := by unfold State.stamp State.stampAt State.stampOf; split <;> rfl
@[simp] theorem State.stamp_chain (src : BitVec 9) (k : Byte) (d : BitVec 28) : (s.stamp src k d).chain = s.chain := by unfold State.stamp State.stampAt State.stampOf; split <;> rfl
@[simp] theorem State.stamp_freeCtr (src : BitVec 9) (k : Byte) (d : BitVec 28) : (s.stamp src k d).freeCtr = s.freeCtr := by unfold State.stamp State.stampAt State.stampOf; split <;> rfl
@[simp] theorem State.stamp_pending (src : BitVec 9) (k : Byte) (d : BitVec 28) : (s.stamp src k d).pending = s.pending := by unfold State.stamp State.stampAt State.stampOf; split <;> rfl

@[simp] theorem State.stampIf_set (b : Bool) (ag : Agent) (pc : W64) : (s.stampIf b ag pc).set = s.set := by unfold State.stampIf; split <;> simp
@[simp] theorem State.stampIf_host (b : Bool) (ag : Agent) (pc : W64) : (s.stampIf b ag pc).host = s.host := by unfold State.stampIf; split <;> simp
@[simp] theorem State.stampIf_tiles (b : Bool) (ag : Agent) (pc : W64) : (s.stampIf b ag pc).tiles = s.tiles := by unfold State.stampIf; split <;> simp
@[simp] theorem State.stampIf_engines (b : Bool) (ag : Agent) (pc : W64) : (s.stampIf b ag pc).engines = s.engines := by unfold State.stampIf; split <;> simp
@[simp] theorem State.stampIf_ecc (b : Bool) (ag : Agent) (pc : W64) : (s.stampIf b ag pc).ecc = s.ecc := by unfold State.stampIf; split <;> simp
@[simp] theorem State.stampIf_obj (b : Bool) (ag : Agent) (pc : W64) : (s.stampIf b ag pc).obj = s.obj := by unfold State.stampIf; split <;> simp
@[simp] theorem State.stampIf_idx (b : Bool) (ag : Agent) (pc : W64) : (s.stampIf b ag pc).idx = s.idx := by unfold State.stampIf; split <;> simp
@[simp] theorem State.stampIf_media (b : Bool) (ag : Agent) (pc : W64) : (s.stampIf b ag pc).media = s.media := by unfold State.stampIf; split <;> simp
@[simp] theorem State.stampIf_ftl (b : Bool) (ag : Agent) (pc : W64) : (s.stampIf b ag pc).ftl = s.ftl := by unfold State.stampIf; split <;> simp
@[simp] theorem State.stampIf_pwr (b : Bool) (ag : Agent) (pc : W64) : (s.stampIf b ag pc).pwr = s.pwr := by unfold State.stampIf; split <;> simp
@[simp] theorem State.stampIf_boot (b : Bool) (ag : Agent) (pc : W64) : (s.stampIf b ag pc).boot = s.boot := by unfold State.stampIf; split <;> simp
@[simp] theorem State.stampIf_rcv (b : Bool) (ag : Agent) (pc : W64) : (s.stampIf b ag pc).rcv = s.rcv := by unfold State.stampIf; split <;> simp
@[simp] theorem State.stampIf_sec (b : Bool) (ag : Agent) (pc : W64) : (s.stampIf b ag pc).sec = s.sec := by unfold State.stampIf; split <;> simp
@[simp] theorem State.stampIf_link (b : Bool) (ag : Agent) (pc : W64) : (s.stampIf b ag pc).link = s.link := by unfold State.stampIf; split <;> simp
@[simp] theorem State.stampIf_reg (b : Bool) (ag : Agent) (pc : W64) : (s.stampIf b ag pc).reg = s.reg := by unfold State.stampIf; split <;> simp
@[simp] theorem State.stampIf_chain (b : Bool) (ag : Agent) (pc : W64) : (s.stampIf b ag pc).chain = s.chain := by unfold State.stampIf; split <;> simp
@[simp] theorem State.stampIf_freeCtr (b : Bool) (ag : Agent) (pc : W64) : (s.stampIf b ag pc).freeCtr = s.freeCtr := by unfold State.stampIf; split <;> simp
@[simp] theorem State.stampIf_pending (b : Bool) (ag : Agent) (pc : W64) : (s.stampIf b ag pc).pending = s.pending := by unfold State.stampIf; split <;> simp

@[simp] theorem State.accepted_time (o : Op) (ag : Agent) : (s.accepted o ag).time = s.time := by unfold State.accepted; split <;> simp
@[simp] theorem State.accepted_set (o : Op) (ag : Agent) : (s.accepted o ag).set = s.set := by unfold State.accepted; split <;> simp
@[simp] theorem State.accepted_host (o : Op) (ag : Agent) : (s.accepted o ag).host = s.host := by unfold State.accepted; split <;> simp
@[simp] theorem State.accepted_ecc (o : Op) (ag : Agent) : (s.accepted o ag).ecc = s.ecc := by unfold State.accepted; split <;> simp
@[simp] theorem State.accepted_obj (o : Op) (ag : Agent) : (s.accepted o ag).obj = s.obj := by unfold State.accepted; split <;> simp
@[simp] theorem State.accepted_idx (o : Op) (ag : Agent) : (s.accepted o ag).idx = s.idx := by unfold State.accepted; split <;> simp
@[simp] theorem State.accepted_media (o : Op) (ag : Agent) : (s.accepted o ag).media = s.media := by unfold State.accepted; split <;> simp
@[simp] theorem State.accepted_ftl (o : Op) (ag : Agent) : (s.accepted o ag).ftl = s.ftl := by unfold State.accepted; split <;> simp
@[simp] theorem State.accepted_pwr (o : Op) (ag : Agent) : (s.accepted o ag).pwr = s.pwr := by unfold State.accepted; split <;> simp
@[simp] theorem State.accepted_boot (o : Op) (ag : Agent) : (s.accepted o ag).boot = s.boot := by unfold State.accepted; split <;> simp
@[simp] theorem State.accepted_rcv (o : Op) (ag : Agent) : (s.accepted o ag).rcv = s.rcv := by unfold State.accepted; split <;> simp
@[simp] theorem State.accepted_sec (o : Op) (ag : Agent) : (s.accepted o ag).sec = s.sec := by unfold State.accepted; split <;> simp
@[simp] theorem State.accepted_link (o : Op) (ag : Agent) : (s.accepted o ag).link = s.link := by unfold State.accepted; split <;> simp
@[simp] theorem State.accepted_reg (o : Op) (ag : Agent) : (s.accepted o ag).reg = s.reg := by unfold State.accepted; split <;> simp
@[simp] theorem State.accepted_chain (o : Op) (ag : Agent) : (s.accepted o ag).chain = s.chain := by unfold State.accepted; split <;> simp
@[simp] theorem State.accepted_freeCtr (o : Op) (ag : Agent) : (s.accepted o ag).freeCtr = s.freeCtr := by unfold State.accepted; split <;> simp
@[simp] theorem State.accepted_pending (o : Op) (ag : Agent) : (s.accepted o ag).pending = s.pending := by unfold State.accepted; split <;> simp

@[simp] theorem State.noteUe_set (src : BitVec 9) (k u c : Nat) (a : BitVec 40) : (s.noteUe src k u c a).set = s.set := by simp only [State.noteUe]; split <;> simp
@[simp] theorem State.noteUe_host (src : BitVec 9) (k u c : Nat) (a : BitVec 40) : (s.noteUe src k u c a).host = s.host := by simp only [State.noteUe]; split <;> simp
@[simp] theorem State.noteUe_tiles (src : BitVec 9) (k u c : Nat) (a : BitVec 40) : (s.noteUe src k u c a).tiles = s.tiles := by simp only [State.noteUe]; split <;> simp
@[simp] theorem State.noteUe_engines (src : BitVec 9) (k u c : Nat) (a : BitVec 40) : (s.noteUe src k u c a).engines = s.engines := by simp only [State.noteUe]; split <;> simp
@[simp] theorem State.noteUe_obj (src : BitVec 9) (k u c : Nat) (a : BitVec 40) : (s.noteUe src k u c a).obj = s.obj := by simp only [State.noteUe]; split <;> simp
@[simp] theorem State.noteUe_idx (src : BitVec 9) (k u c : Nat) (a : BitVec 40) : (s.noteUe src k u c a).idx = s.idx := by simp only [State.noteUe]; split <;> simp
@[simp] theorem State.noteUe_media (src : BitVec 9) (k u c : Nat) (a : BitVec 40) : (s.noteUe src k u c a).media = s.media := by simp only [State.noteUe]; split <;> simp
@[simp] theorem State.noteUe_ftl (src : BitVec 9) (k u c : Nat) (a : BitVec 40) : (s.noteUe src k u c a).ftl = s.ftl := by simp only [State.noteUe]; split <;> simp
@[simp] theorem State.noteUe_pwr (src : BitVec 9) (k u c : Nat) (a : BitVec 40) : (s.noteUe src k u c a).pwr = s.pwr := by simp only [State.noteUe]; split <;> simp
@[simp] theorem State.noteUe_boot (src : BitVec 9) (k u c : Nat) (a : BitVec 40) : (s.noteUe src k u c a).boot = s.boot := by simp only [State.noteUe]; split <;> simp
@[simp] theorem State.noteUe_rcv (src : BitVec 9) (k u c : Nat) (a : BitVec 40) : (s.noteUe src k u c a).rcv = s.rcv := by simp only [State.noteUe]; split <;> simp
@[simp] theorem State.noteUe_sec (src : BitVec 9) (k u c : Nat) (a : BitVec 40) : (s.noteUe src k u c a).sec = s.sec := by simp only [State.noteUe]; split <;> simp
@[simp] theorem State.noteUe_link (src : BitVec 9) (k u c : Nat) (a : BitVec 40) : (s.noteUe src k u c a).link = s.link := by simp only [State.noteUe]; split <;> simp
@[simp] theorem State.noteUe_reg (src : BitVec 9) (k u c : Nat) (a : BitVec 40) : (s.noteUe src k u c a).reg = s.reg := by simp only [State.noteUe]; split <;> simp
@[simp] theorem State.noteUe_chain (src : BitVec 9) (k u c : Nat) (a : BitVec 40) : (s.noteUe src k u c a).chain = s.chain := by simp only [State.noteUe]; split <;> simp
@[simp] theorem State.noteUe_freeCtr (src : BitVec 9) (k u c : Nat) (a : BitVec 40) : (s.noteUe src k u c a).freeCtr = s.freeCtr := by simp only [State.noteUe]; split <;> simp
@[simp] theorem State.noteUe_pending (src : BitVec 9) (k u c : Nat) (a : BitVec 40) : (s.noteUe src k u c a).pending = s.pending := by simp only [State.noteUe]; split <;> simp

@[simp] theorem State.takeTrap_set (ag : Agent) (v : Nat) (x : W64) (b : Bool) : (s.takeTrap ag v x b).set = s.set := by simp only [State.takeTrap]; split <;> simp
@[simp] theorem State.takeTrap_ecc (ag : Agent) (v : Nat) (x : W64) (b : Bool) : (s.takeTrap ag v x b).ecc = s.ecc := by simp only [State.takeTrap]; split <;> simp
@[simp] theorem State.takeTrap_obj (ag : Agent) (v : Nat) (x : W64) (b : Bool) : (s.takeTrap ag v x b).obj = s.obj := by simp only [State.takeTrap]; split <;> simp
@[simp] theorem State.takeTrap_idx (ag : Agent) (v : Nat) (x : W64) (b : Bool) : (s.takeTrap ag v x b).idx = s.idx := by simp only [State.takeTrap]; split <;> simp
@[simp] theorem State.takeTrap_media (ag : Agent) (v : Nat) (x : W64) (b : Bool) : (s.takeTrap ag v x b).media = s.media := by simp only [State.takeTrap]; split <;> simp
@[simp] theorem State.takeTrap_ftl (ag : Agent) (v : Nat) (x : W64) (b : Bool) : (s.takeTrap ag v x b).ftl = s.ftl := by simp only [State.takeTrap]; split <;> simp
@[simp] theorem State.takeTrap_pwr (ag : Agent) (v : Nat) (x : W64) (b : Bool) : (s.takeTrap ag v x b).pwr = s.pwr := by simp only [State.takeTrap]; split <;> simp
@[simp] theorem State.takeTrap_boot (ag : Agent) (v : Nat) (x : W64) (b : Bool) : (s.takeTrap ag v x b).boot = s.boot := by simp only [State.takeTrap]; split <;> simp
@[simp] theorem State.takeTrap_rcv (ag : Agent) (v : Nat) (x : W64) (b : Bool) : (s.takeTrap ag v x b).rcv = s.rcv := by simp only [State.takeTrap]; split <;> simp
@[simp] theorem State.takeTrap_sec (ag : Agent) (v : Nat) (x : W64) (b : Bool) : (s.takeTrap ag v x b).sec = s.sec := by simp only [State.takeTrap]; split <;> simp
@[simp] theorem State.takeTrap_link (ag : Agent) (v : Nat) (x : W64) (b : Bool) : (s.takeTrap ag v x b).link = s.link := by simp only [State.takeTrap]; split <;> simp
@[simp] theorem State.takeTrap_reg (ag : Agent) (v : Nat) (x : W64) (b : Bool) : (s.takeTrap ag v x b).reg = s.reg := by simp only [State.takeTrap]; split <;> simp
@[simp] theorem State.takeTrap_chain (ag : Agent) (v : Nat) (x : W64) (b : Bool) : (s.takeTrap ag v x b).chain = s.chain := by simp only [State.takeTrap]; split <;> simp
@[simp] theorem State.takeTrap_freeCtr (ag : Agent) (v : Nat) (x : W64) (b : Bool) : (s.takeTrap ag v x b).freeCtr = s.freeCtr := by simp only [State.takeTrap]; split <;> simp
@[simp] theorem State.takeTrap_pending (ag : Agent) (v : Nat) (x : W64) (b : Bool) : (s.takeTrap ag v x b).pending = s.pending := by simp only [State.takeTrap]; split <;> simp

@[simp] theorem State.refused_set (ag : Agent) (w : IWord) (c : W16) : (s.refused ag w c).set = s.set := by simp only [State.refused]; split <;> simp
@[simp] theorem State.refused_ecc (ag : Agent) (w : IWord) (c : W16) : (s.refused ag w c).ecc = s.ecc := by simp only [State.refused]; split <;> simp
@[simp] theorem State.refused_obj (ag : Agent) (w : IWord) (c : W16) : (s.refused ag w c).obj = s.obj := by simp only [State.refused]; split <;> simp
@[simp] theorem State.refused_idx (ag : Agent) (w : IWord) (c : W16) : (s.refused ag w c).idx = s.idx := by simp only [State.refused]; split <;> simp
@[simp] theorem State.refused_media (ag : Agent) (w : IWord) (c : W16) : (s.refused ag w c).media = s.media := by simp only [State.refused]; split <;> simp
@[simp] theorem State.refused_ftl (ag : Agent) (w : IWord) (c : W16) : (s.refused ag w c).ftl = s.ftl := by simp only [State.refused]; split <;> simp
@[simp] theorem State.refused_pwr (ag : Agent) (w : IWord) (c : W16) : (s.refused ag w c).pwr = s.pwr := by simp only [State.refused]; split <;> simp
@[simp] theorem State.refused_boot (ag : Agent) (w : IWord) (c : W16) : (s.refused ag w c).boot = s.boot := by simp only [State.refused]; split <;> simp
@[simp] theorem State.refused_rcv (ag : Agent) (w : IWord) (c : W16) : (s.refused ag w c).rcv = s.rcv := by simp only [State.refused]; split <;> simp
@[simp] theorem State.refused_sec (ag : Agent) (w : IWord) (c : W16) : (s.refused ag w c).sec = s.sec := by simp only [State.refused]; split <;> simp
@[simp] theorem State.refused_link (ag : Agent) (w : IWord) (c : W16) : (s.refused ag w c).link = s.link := by simp only [State.refused]; split <;> simp
@[simp] theorem State.refused_reg (ag : Agent) (w : IWord) (c : W16) : (s.refused ag w c).reg = s.reg := by simp only [State.refused]; split <;> simp
@[simp] theorem State.refused_chain (ag : Agent) (w : IWord) (c : W16) : (s.refused ag w c).chain = s.chain := by simp only [State.refused]; split <;> simp
@[simp] theorem State.refused_freeCtr (ag : Agent) (w : IWord) (c : W16) : (s.refused ag w c).freeCtr = s.freeCtr := by simp only [State.refused]; split <;> simp
@[simp] theorem State.refused_pending (ag : Agent) (w : IWord) (c : W16) : (s.refused ag w c).pending = s.pending := by simp only [State.refused]; split <;> simp

@[simp] theorem State.wake_set (ag : Agent) : (s.wake ag).set = s.set := by unfold State.wake; split <;> simp
@[simp] theorem State.wake_host (ag : Agent) : (s.wake ag).host = s.host := by unfold State.wake; split <;> simp
@[simp] theorem State.wake_ecc (ag : Agent) : (s.wake ag).ecc = s.ecc := by unfold State.wake; split <;> simp
@[simp] theorem State.wake_obj (ag : Agent) : (s.wake ag).obj = s.obj := by unfold State.wake; split <;> simp
@[simp] theorem State.wake_idx (ag : Agent) : (s.wake ag).idx = s.idx := by unfold State.wake; split <;> simp
@[simp] theorem State.wake_media (ag : Agent) : (s.wake ag).media = s.media := by unfold State.wake; split <;> simp
@[simp] theorem State.wake_ftl (ag : Agent) : (s.wake ag).ftl = s.ftl := by unfold State.wake; split <;> simp
@[simp] theorem State.wake_pwr (ag : Agent) : (s.wake ag).pwr = s.pwr := by unfold State.wake; split <;> simp
@[simp] theorem State.wake_boot (ag : Agent) : (s.wake ag).boot = s.boot := by unfold State.wake; split <;> simp
@[simp] theorem State.wake_rcv (ag : Agent) : (s.wake ag).rcv = s.rcv := by unfold State.wake; split <;> simp
@[simp] theorem State.wake_sec (ag : Agent) : (s.wake ag).sec = s.sec := by unfold State.wake; split <;> simp
@[simp] theorem State.wake_link (ag : Agent) : (s.wake ag).link = s.link := by unfold State.wake; split <;> simp
@[simp] theorem State.wake_reg (ag : Agent) : (s.wake ag).reg = s.reg := by unfold State.wake; split <;> simp
@[simp] theorem State.wake_chain (ag : Agent) : (s.wake ag).chain = s.chain := by unfold State.wake; split <;> simp
@[simp] theorem State.wake_freeCtr (ag : Agent) : (s.wake ag).freeCtr = s.freeCtr := by unfold State.wake; split <;> simp
@[simp] theorem State.wake_pending (ag : Agent) : (s.wake ag).pending = s.pending := by unfold State.wake; split <;> simp

@[simp] theorem State.setFlags_time (t : Fin 256) (j : Nat) (x : W16) : (s.setFlags t j x).time = s.time := rfl
@[simp] theorem State.setFlags_set (t : Fin 256) (j : Nat) (x : W16) : (s.setFlags t j x).set = s.set := rfl
@[simp] theorem State.setFlags_host (t : Fin 256) (j : Nat) (x : W16) : (s.setFlags t j x).host = s.host := rfl
@[simp] theorem State.setFlags_engines (t : Fin 256) (j : Nat) (x : W16) : (s.setFlags t j x).engines = s.engines := rfl
@[simp] theorem State.setFlags_ecc (t : Fin 256) (j : Nat) (x : W16) : (s.setFlags t j x).ecc = s.ecc := rfl
@[simp] theorem State.setFlags_obj (t : Fin 256) (j : Nat) (x : W16) : (s.setFlags t j x).obj = s.obj := rfl
@[simp] theorem State.setFlags_idx (t : Fin 256) (j : Nat) (x : W16) : (s.setFlags t j x).idx = s.idx := rfl
@[simp] theorem State.setFlags_media (t : Fin 256) (j : Nat) (x : W16) : (s.setFlags t j x).media = s.media := rfl
@[simp] theorem State.setFlags_ftl (t : Fin 256) (j : Nat) (x : W16) : (s.setFlags t j x).ftl = s.ftl := rfl
@[simp] theorem State.setFlags_pwr (t : Fin 256) (j : Nat) (x : W16) : (s.setFlags t j x).pwr = s.pwr := rfl
@[simp] theorem State.setFlags_boot (t : Fin 256) (j : Nat) (x : W16) : (s.setFlags t j x).boot = s.boot := rfl
@[simp] theorem State.setFlags_rcv (t : Fin 256) (j : Nat) (x : W16) : (s.setFlags t j x).rcv = s.rcv := rfl
@[simp] theorem State.setFlags_sec (t : Fin 256) (j : Nat) (x : W16) : (s.setFlags t j x).sec = s.sec := rfl
@[simp] theorem State.setFlags_link (t : Fin 256) (j : Nat) (x : W16) : (s.setFlags t j x).link = s.link := rfl
@[simp] theorem State.setFlags_reg (t : Fin 256) (j : Nat) (x : W16) : (s.setFlags t j x).reg = s.reg := rfl
@[simp] theorem State.setFlags_chain (t : Fin 256) (j : Nat) (x : W16) : (s.setFlags t j x).chain = s.chain := rfl
@[simp] theorem State.setFlags_freeCtr (t : Fin 256) (j : Nat) (x : W16) : (s.setFlags t j x).freeCtr = s.freeCtr := rfl
@[simp] theorem State.setFlags_pending (t : Fin 256) (j : Nat) (x : W16) : (s.setFlags t j x).pending = s.pending := rfl

@[simp] theorem State.setObj_time (h : W32) (o : Obj) : (s.setObj h o).time = s.time := rfl
@[simp] theorem State.setObj_set (h : W32) (o : Obj) : (s.setObj h o).set = s.set := rfl
@[simp] theorem State.setObj_host (h : W32) (o : Obj) : (s.setObj h o).host = s.host := rfl
@[simp] theorem State.setObj_tiles (h : W32) (o : Obj) : (s.setObj h o).tiles = s.tiles := rfl
@[simp] theorem State.setObj_engines (h : W32) (o : Obj) : (s.setObj h o).engines = s.engines := rfl
@[simp] theorem State.setObj_ecc (h : W32) (o : Obj) : (s.setObj h o).ecc = s.ecc := rfl
@[simp] theorem State.setObj_idx (h : W32) (o : Obj) : (s.setObj h o).idx = s.idx := rfl
@[simp] theorem State.setObj_media (h : W32) (o : Obj) : (s.setObj h o).media = s.media := rfl
@[simp] theorem State.setObj_ftl (h : W32) (o : Obj) : (s.setObj h o).ftl = s.ftl := rfl
@[simp] theorem State.setObj_pwr (h : W32) (o : Obj) : (s.setObj h o).pwr = s.pwr := rfl
@[simp] theorem State.setObj_boot (h : W32) (o : Obj) : (s.setObj h o).boot = s.boot := rfl
@[simp] theorem State.setObj_rcv (h : W32) (o : Obj) : (s.setObj h o).rcv = s.rcv := rfl
@[simp] theorem State.setObj_sec (h : W32) (o : Obj) : (s.setObj h o).sec = s.sec := rfl
@[simp] theorem State.setObj_link (h : W32) (o : Obj) : (s.setObj h o).link = s.link := rfl
@[simp] theorem State.setObj_reg (h : W32) (o : Obj) : (s.setObj h o).reg = s.reg := rfl
@[simp] theorem State.setObj_chain (h : W32) (o : Obj) : (s.setObj h o).chain = s.chain := rfl
@[simp] theorem State.setObj_freeCtr (h : W32) (o : Obj) : (s.setObj h o).freeCtr = s.freeCtr := rfl
@[simp] theorem State.setObj_pending (h : W32) (o : Obj) : (s.setObj h o).pending = s.pending := rfl

@[simp] theorem State.forget_time (h : W32) : (s.forget h).time = s.time := rfl
@[simp] theorem State.forget_set (h : W32) : (s.forget h).set = s.set := rfl
@[simp] theorem State.forget_host (h : W32) : (s.forget h).host = s.host := rfl
@[simp] theorem State.forget_tiles (h : W32) : (s.forget h).tiles = s.tiles := rfl
@[simp] theorem State.forget_engines (h : W32) : (s.forget h).engines = s.engines := rfl
@[simp] theorem State.forget_ecc (h : W32) : (s.forget h).ecc = s.ecc := rfl
@[simp] theorem State.forget_idx (h : W32) : (s.forget h).idx = s.idx := rfl
@[simp] theorem State.forget_media (h : W32) : (s.forget h).media = s.media := rfl
@[simp] theorem State.forget_ftl (h : W32) : (s.forget h).ftl = s.ftl := rfl
@[simp] theorem State.forget_pwr (h : W32) : (s.forget h).pwr = s.pwr := rfl
@[simp] theorem State.forget_boot (h : W32) : (s.forget h).boot = s.boot := rfl
@[simp] theorem State.forget_rcv (h : W32) : (s.forget h).rcv = s.rcv := rfl
@[simp] theorem State.forget_sec (h : W32) : (s.forget h).sec = s.sec := rfl
@[simp] theorem State.forget_link (h : W32) : (s.forget h).link = s.link := rfl
@[simp] theorem State.forget_reg (h : W32) : (s.forget h).reg = s.reg := rfl
@[simp] theorem State.forget_chain (h : W32) : (s.forget h).chain = s.chain := rfl
@[simp] theorem State.forget_freeCtr (h : W32) : (s.forget h).freeCtr = s.freeCtr := rfl
@[simp] theorem State.forget_pending (h : W32) : (s.forget h).pending = s.pending := rfl

@[simp] theorem State.setDie_time (d : Nat) (x : Die) : (s.setDie d x).time = s.time := rfl
@[simp] theorem State.setDie_set (d : Nat) (x : Die) : (s.setDie d x).set = s.set := rfl
@[simp] theorem State.setDie_host (d : Nat) (x : Die) : (s.setDie d x).host = s.host := rfl
@[simp] theorem State.setDie_tiles (d : Nat) (x : Die) : (s.setDie d x).tiles = s.tiles := rfl
@[simp] theorem State.setDie_engines (d : Nat) (x : Die) : (s.setDie d x).engines = s.engines := rfl
@[simp] theorem State.setDie_ecc (d : Nat) (x : Die) : (s.setDie d x).ecc = s.ecc := rfl
@[simp] theorem State.setDie_obj (d : Nat) (x : Die) : (s.setDie d x).obj = s.obj := rfl
@[simp] theorem State.setDie_idx (d : Nat) (x : Die) : (s.setDie d x).idx = s.idx := rfl
@[simp] theorem State.setDie_ftl (d : Nat) (x : Die) : (s.setDie d x).ftl = s.ftl := rfl
@[simp] theorem State.setDie_pwr (d : Nat) (x : Die) : (s.setDie d x).pwr = s.pwr := rfl
@[simp] theorem State.setDie_boot (d : Nat) (x : Die) : (s.setDie d x).boot = s.boot := rfl
@[simp] theorem State.setDie_rcv (d : Nat) (x : Die) : (s.setDie d x).rcv = s.rcv := rfl
@[simp] theorem State.setDie_sec (d : Nat) (x : Die) : (s.setDie d x).sec = s.sec := rfl
@[simp] theorem State.setDie_link (d : Nat) (x : Die) : (s.setDie d x).link = s.link := rfl
@[simp] theorem State.setDie_reg (d : Nat) (x : Die) : (s.setDie d x).reg = s.reg := rfl
@[simp] theorem State.setDie_chain (d : Nat) (x : Die) : (s.setDie d x).chain = s.chain := rfl
@[simp] theorem State.setDie_freeCtr (d : Nat) (x : Die) : (s.setDie d x).freeCtr = s.freeCtr := rfl
@[simp] theorem State.setDie_pending (d : Nat) (x : Die) : (s.setDie d x).pending = s.pending := rfl

@[simp] theorem State.updDie_time (d : Nat) (f : Die → Die) : (s.updDie d f).time = s.time := rfl
@[simp] theorem State.updDie_set (d : Nat) (f : Die → Die) : (s.updDie d f).set = s.set := rfl
@[simp] theorem State.updDie_host (d : Nat) (f : Die → Die) : (s.updDie d f).host = s.host := rfl
@[simp] theorem State.updDie_tiles (d : Nat) (f : Die → Die) : (s.updDie d f).tiles = s.tiles := rfl
@[simp] theorem State.updDie_engines (d : Nat) (f : Die → Die) : (s.updDie d f).engines = s.engines := rfl
@[simp] theorem State.updDie_ecc (d : Nat) (f : Die → Die) : (s.updDie d f).ecc = s.ecc := rfl
@[simp] theorem State.updDie_obj (d : Nat) (f : Die → Die) : (s.updDie d f).obj = s.obj := rfl
@[simp] theorem State.updDie_idx (d : Nat) (f : Die → Die) : (s.updDie d f).idx = s.idx := rfl
@[simp] theorem State.updDie_ftl (d : Nat) (f : Die → Die) : (s.updDie d f).ftl = s.ftl := rfl
@[simp] theorem State.updDie_pwr (d : Nat) (f : Die → Die) : (s.updDie d f).pwr = s.pwr := rfl
@[simp] theorem State.updDie_boot (d : Nat) (f : Die → Die) : (s.updDie d f).boot = s.boot := rfl
@[simp] theorem State.updDie_rcv (d : Nat) (f : Die → Die) : (s.updDie d f).rcv = s.rcv := rfl
@[simp] theorem State.updDie_sec (d : Nat) (f : Die → Die) : (s.updDie d f).sec = s.sec := rfl
@[simp] theorem State.updDie_link (d : Nat) (f : Die → Die) : (s.updDie d f).link = s.link := rfl
@[simp] theorem State.updDie_reg (d : Nat) (f : Die → Die) : (s.updDie d f).reg = s.reg := rfl
@[simp] theorem State.updDie_chain (d : Nat) (f : Die → Die) : (s.updDie d f).chain = s.chain := rfl
@[simp] theorem State.updDie_freeCtr (d : Nat) (f : Die → Die) : (s.updDie d f).freeCtr = s.freeCtr := rfl
@[simp] theorem State.updDie_pending (d : Nat) (f : Die → Die) : (s.updDie d f).pending = s.pending := rfl

@[simp] theorem State.updBlk_time (d p : Nat) (f : Blk → Blk) : (s.updBlk d p f).time = s.time := rfl
@[simp] theorem State.updBlk_set (d p : Nat) (f : Blk → Blk) : (s.updBlk d p f).set = s.set := rfl
@[simp] theorem State.updBlk_host (d p : Nat) (f : Blk → Blk) : (s.updBlk d p f).host = s.host := rfl
@[simp] theorem State.updBlk_tiles (d p : Nat) (f : Blk → Blk) : (s.updBlk d p f).tiles = s.tiles := rfl
@[simp] theorem State.updBlk_engines (d p : Nat) (f : Blk → Blk) : (s.updBlk d p f).engines = s.engines := rfl
@[simp] theorem State.updBlk_ecc (d p : Nat) (f : Blk → Blk) : (s.updBlk d p f).ecc = s.ecc := rfl
@[simp] theorem State.updBlk_obj (d p : Nat) (f : Blk → Blk) : (s.updBlk d p f).obj = s.obj := rfl
@[simp] theorem State.updBlk_idx (d p : Nat) (f : Blk → Blk) : (s.updBlk d p f).idx = s.idx := rfl
@[simp] theorem State.updBlk_ftl (d p : Nat) (f : Blk → Blk) : (s.updBlk d p f).ftl = s.ftl := rfl
@[simp] theorem State.updBlk_pwr (d p : Nat) (f : Blk → Blk) : (s.updBlk d p f).pwr = s.pwr := rfl
@[simp] theorem State.updBlk_boot (d p : Nat) (f : Blk → Blk) : (s.updBlk d p f).boot = s.boot := rfl
@[simp] theorem State.updBlk_rcv (d p : Nat) (f : Blk → Blk) : (s.updBlk d p f).rcv = s.rcv := rfl
@[simp] theorem State.updBlk_sec (d p : Nat) (f : Blk → Blk) : (s.updBlk d p f).sec = s.sec := rfl
@[simp] theorem State.updBlk_link (d p : Nat) (f : Blk → Blk) : (s.updBlk d p f).link = s.link := rfl
@[simp] theorem State.updBlk_reg (d p : Nat) (f : Blk → Blk) : (s.updBlk d p f).reg = s.reg := rfl
@[simp] theorem State.updBlk_chain (d p : Nat) (f : Blk → Blk) : (s.updBlk d p f).chain = s.chain := rfl
@[simp] theorem State.updBlk_freeCtr (d p : Nat) (f : Blk → Blk) : (s.updBlk d p f).freeCtr = s.freeCtr := rfl
@[simp] theorem State.updBlk_pending (d p : Nat) (f : Blk → Blk) : (s.updBlk d p f).pending = s.pending := rfl

@[simp] theorem State.updChan_time (d : Nat) (f : Chan → Chan) : (s.updChan d f).time = s.time := rfl
@[simp] theorem State.updChan_set (d : Nat) (f : Chan → Chan) : (s.updChan d f).set = s.set := rfl
@[simp] theorem State.updChan_host (d : Nat) (f : Chan → Chan) : (s.updChan d f).host = s.host := rfl
@[simp] theorem State.updChan_tiles (d : Nat) (f : Chan → Chan) : (s.updChan d f).tiles = s.tiles := rfl
@[simp] theorem State.updChan_engines (d : Nat) (f : Chan → Chan) : (s.updChan d f).engines = s.engines := rfl
@[simp] theorem State.updChan_ecc (d : Nat) (f : Chan → Chan) : (s.updChan d f).ecc = s.ecc := rfl
@[simp] theorem State.updChan_obj (d : Nat) (f : Chan → Chan) : (s.updChan d f).obj = s.obj := rfl
@[simp] theorem State.updChan_idx (d : Nat) (f : Chan → Chan) : (s.updChan d f).idx = s.idx := rfl
@[simp] theorem State.updChan_ftl (d : Nat) (f : Chan → Chan) : (s.updChan d f).ftl = s.ftl := rfl
@[simp] theorem State.updChan_pwr (d : Nat) (f : Chan → Chan) : (s.updChan d f).pwr = s.pwr := rfl
@[simp] theorem State.updChan_boot (d : Nat) (f : Chan → Chan) : (s.updChan d f).boot = s.boot := rfl
@[simp] theorem State.updChan_rcv (d : Nat) (f : Chan → Chan) : (s.updChan d f).rcv = s.rcv := rfl
@[simp] theorem State.updChan_sec (d : Nat) (f : Chan → Chan) : (s.updChan d f).sec = s.sec := rfl
@[simp] theorem State.updChan_link (d : Nat) (f : Chan → Chan) : (s.updChan d f).link = s.link := rfl
@[simp] theorem State.updChan_reg (d : Nat) (f : Chan → Chan) : (s.updChan d f).reg = s.reg := rfl
@[simp] theorem State.updChan_chain (d : Nat) (f : Chan → Chan) : (s.updChan d f).chain = s.chain := rfl
@[simp] theorem State.updChan_freeCtr (d : Nat) (f : Chan → Chan) : (s.updChan d f).freeCtr = s.freeCtr := rfl
@[simp] theorem State.updChan_pending (d : Nat) (f : Chan → Chan) : (s.updChan d f).pending = s.pending := rfl

@[simp] theorem State.setCtrl_time (c : Fin 33) (x : Ctrl) : (s.setCtrl c x).time = s.time := rfl
@[simp] theorem State.setCtrl_set (c : Fin 33) (x : Ctrl) : (s.setCtrl c x).set = s.set := rfl
@[simp] theorem State.setCtrl_tiles (c : Fin 33) (x : Ctrl) : (s.setCtrl c x).tiles = s.tiles := rfl
@[simp] theorem State.setCtrl_engines (c : Fin 33) (x : Ctrl) : (s.setCtrl c x).engines = s.engines := rfl
@[simp] theorem State.setCtrl_ecc (c : Fin 33) (x : Ctrl) : (s.setCtrl c x).ecc = s.ecc := rfl
@[simp] theorem State.setCtrl_obj (c : Fin 33) (x : Ctrl) : (s.setCtrl c x).obj = s.obj := rfl
@[simp] theorem State.setCtrl_idx (c : Fin 33) (x : Ctrl) : (s.setCtrl c x).idx = s.idx := rfl
@[simp] theorem State.setCtrl_media (c : Fin 33) (x : Ctrl) : (s.setCtrl c x).media = s.media := rfl
@[simp] theorem State.setCtrl_ftl (c : Fin 33) (x : Ctrl) : (s.setCtrl c x).ftl = s.ftl := rfl
@[simp] theorem State.setCtrl_pwr (c : Fin 33) (x : Ctrl) : (s.setCtrl c x).pwr = s.pwr := rfl
@[simp] theorem State.setCtrl_boot (c : Fin 33) (x : Ctrl) : (s.setCtrl c x).boot = s.boot := rfl
@[simp] theorem State.setCtrl_rcv (c : Fin 33) (x : Ctrl) : (s.setCtrl c x).rcv = s.rcv := rfl
@[simp] theorem State.setCtrl_sec (c : Fin 33) (x : Ctrl) : (s.setCtrl c x).sec = s.sec := rfl
@[simp] theorem State.setCtrl_link (c : Fin 33) (x : Ctrl) : (s.setCtrl c x).link = s.link := rfl
@[simp] theorem State.setCtrl_reg (c : Fin 33) (x : Ctrl) : (s.setCtrl c x).reg = s.reg := rfl
@[simp] theorem State.setCtrl_chain (c : Fin 33) (x : Ctrl) : (s.setCtrl c x).chain = s.chain := rfl
@[simp] theorem State.setCtrl_freeCtr (c : Fin 33) (x : Ctrl) : (s.setCtrl c x).freeCtr = s.freeCtr := rfl
@[simp] theorem State.setCtrl_pending (c : Fin 33) (x : Ctrl) : (s.setCtrl c x).pending = s.pending := rfl

@[simp] theorem State.updSq_time (c : Fin 33) (q : W16) (f : Sq → Sq) : (s.updSq c q f).time = s.time := by unfold State.updSq; split <;> rfl
@[simp] theorem State.updSq_set (c : Fin 33) (q : W16) (f : Sq → Sq) : (s.updSq c q f).set = s.set := by unfold State.updSq; split <;> rfl
@[simp] theorem State.updSq_tiles (c : Fin 33) (q : W16) (f : Sq → Sq) : (s.updSq c q f).tiles = s.tiles := by unfold State.updSq; split <;> rfl
@[simp] theorem State.updSq_engines (c : Fin 33) (q : W16) (f : Sq → Sq) : (s.updSq c q f).engines = s.engines := by unfold State.updSq; split <;> rfl
@[simp] theorem State.updSq_ecc (c : Fin 33) (q : W16) (f : Sq → Sq) : (s.updSq c q f).ecc = s.ecc := by unfold State.updSq; split <;> rfl
@[simp] theorem State.updSq_obj (c : Fin 33) (q : W16) (f : Sq → Sq) : (s.updSq c q f).obj = s.obj := by unfold State.updSq; split <;> rfl
@[simp] theorem State.updSq_idx (c : Fin 33) (q : W16) (f : Sq → Sq) : (s.updSq c q f).idx = s.idx := by unfold State.updSq; split <;> rfl
@[simp] theorem State.updSq_media (c : Fin 33) (q : W16) (f : Sq → Sq) : (s.updSq c q f).media = s.media := by unfold State.updSq; split <;> rfl
@[simp] theorem State.updSq_ftl (c : Fin 33) (q : W16) (f : Sq → Sq) : (s.updSq c q f).ftl = s.ftl := by unfold State.updSq; split <;> rfl
@[simp] theorem State.updSq_pwr (c : Fin 33) (q : W16) (f : Sq → Sq) : (s.updSq c q f).pwr = s.pwr := by unfold State.updSq; split <;> rfl
@[simp] theorem State.updSq_boot (c : Fin 33) (q : W16) (f : Sq → Sq) : (s.updSq c q f).boot = s.boot := by unfold State.updSq; split <;> rfl
@[simp] theorem State.updSq_rcv (c : Fin 33) (q : W16) (f : Sq → Sq) : (s.updSq c q f).rcv = s.rcv := by unfold State.updSq; split <;> rfl
@[simp] theorem State.updSq_sec (c : Fin 33) (q : W16) (f : Sq → Sq) : (s.updSq c q f).sec = s.sec := by unfold State.updSq; split <;> rfl
@[simp] theorem State.updSq_link (c : Fin 33) (q : W16) (f : Sq → Sq) : (s.updSq c q f).link = s.link := by unfold State.updSq; split <;> rfl
@[simp] theorem State.updSq_reg (c : Fin 33) (q : W16) (f : Sq → Sq) : (s.updSq c q f).reg = s.reg := by unfold State.updSq; split <;> rfl
@[simp] theorem State.updSq_chain (c : Fin 33) (q : W16) (f : Sq → Sq) : (s.updSq c q f).chain = s.chain := by unfold State.updSq; split <;> rfl
@[simp] theorem State.updSq_freeCtr (c : Fin 33) (q : W16) (f : Sq → Sq) : (s.updSq c q f).freeCtr = s.freeCtr := by unfold State.updSq; split <;> rfl
@[simp] theorem State.updSq_pending (c : Fin 33) (q : W16) (f : Sq → Sq) : (s.updSq c q f).pending = s.pending := by unfold State.updSq; split <;> rfl

@[simp] theorem State.send_time (o : HostOut) : (s.send o).time = s.time := by unfold State.send; split <;> rfl
@[simp] theorem State.send_set (o : HostOut) : (s.send o).set = s.set := by unfold State.send; split <;> rfl
@[simp] theorem State.send_tiles (o : HostOut) : (s.send o).tiles = s.tiles := by unfold State.send; split <;> rfl
@[simp] theorem State.send_engines (o : HostOut) : (s.send o).engines = s.engines := by unfold State.send; split <;> rfl
@[simp] theorem State.send_ecc (o : HostOut) : (s.send o).ecc = s.ecc := by unfold State.send; split <;> rfl
@[simp] theorem State.send_obj (o : HostOut) : (s.send o).obj = s.obj := by unfold State.send; split <;> rfl
@[simp] theorem State.send_idx (o : HostOut) : (s.send o).idx = s.idx := by unfold State.send; split <;> rfl
@[simp] theorem State.send_media (o : HostOut) : (s.send o).media = s.media := by unfold State.send; split <;> rfl
@[simp] theorem State.send_ftl (o : HostOut) : (s.send o).ftl = s.ftl := by unfold State.send; split <;> rfl
@[simp] theorem State.send_pwr (o : HostOut) : (s.send o).pwr = s.pwr := by unfold State.send; split <;> rfl
@[simp] theorem State.send_boot (o : HostOut) : (s.send o).boot = s.boot := by unfold State.send; split <;> rfl
@[simp] theorem State.send_rcv (o : HostOut) : (s.send o).rcv = s.rcv := by unfold State.send; split <;> rfl
@[simp] theorem State.send_sec (o : HostOut) : (s.send o).sec = s.sec := by unfold State.send; split <;> rfl
@[simp] theorem State.send_link (o : HostOut) : (s.send o).link = s.link := by unfold State.send; split <;> rfl
@[simp] theorem State.send_reg (o : HostOut) : (s.send o).reg = s.reg := by unfold State.send; split <;> rfl
@[simp] theorem State.send_chain (o : HostOut) : (s.send o).chain = s.chain := by unfold State.send; split <;> rfl
@[simp] theorem State.send_freeCtr (o : HostOut) : (s.send o).freeCtr = s.freeCtr := by unfold State.send; split <;> rfl
@[simp] theorem State.send_pending (o : HostOut) : (s.send o).pending = s.pending := by unfold State.send; split <;> rfl

@[simp] theorem State.sendMsix_time (c : Fin 33) (q : W16) : (s.sendMsix c q).time = s.time := by unfold State.sendMsix; (repeat' split) <;> simp
@[simp] theorem State.sendMsix_set (c : Fin 33) (q : W16) : (s.sendMsix c q).set = s.set := by unfold State.sendMsix; (repeat' split) <;> simp
@[simp] theorem State.sendMsix_tiles (c : Fin 33) (q : W16) : (s.sendMsix c q).tiles = s.tiles := by unfold State.sendMsix; (repeat' split) <;> simp
@[simp] theorem State.sendMsix_engines (c : Fin 33) (q : W16) : (s.sendMsix c q).engines = s.engines := by unfold State.sendMsix; (repeat' split) <;> simp
@[simp] theorem State.sendMsix_ecc (c : Fin 33) (q : W16) : (s.sendMsix c q).ecc = s.ecc := by unfold State.sendMsix; (repeat' split) <;> simp
@[simp] theorem State.sendMsix_obj (c : Fin 33) (q : W16) : (s.sendMsix c q).obj = s.obj := by unfold State.sendMsix; (repeat' split) <;> simp
@[simp] theorem State.sendMsix_idx (c : Fin 33) (q : W16) : (s.sendMsix c q).idx = s.idx := by unfold State.sendMsix; (repeat' split) <;> simp
@[simp] theorem State.sendMsix_media (c : Fin 33) (q : W16) : (s.sendMsix c q).media = s.media := by unfold State.sendMsix; (repeat' split) <;> simp
@[simp] theorem State.sendMsix_ftl (c : Fin 33) (q : W16) : (s.sendMsix c q).ftl = s.ftl := by unfold State.sendMsix; (repeat' split) <;> simp
@[simp] theorem State.sendMsix_pwr (c : Fin 33) (q : W16) : (s.sendMsix c q).pwr = s.pwr := by unfold State.sendMsix; (repeat' split) <;> simp
@[simp] theorem State.sendMsix_boot (c : Fin 33) (q : W16) : (s.sendMsix c q).boot = s.boot := by unfold State.sendMsix; (repeat' split) <;> simp
@[simp] theorem State.sendMsix_rcv (c : Fin 33) (q : W16) : (s.sendMsix c q).rcv = s.rcv := by unfold State.sendMsix; (repeat' split) <;> simp
@[simp] theorem State.sendMsix_sec (c : Fin 33) (q : W16) : (s.sendMsix c q).sec = s.sec := by unfold State.sendMsix; (repeat' split) <;> simp
@[simp] theorem State.sendMsix_link (c : Fin 33) (q : W16) : (s.sendMsix c q).link = s.link := by unfold State.sendMsix; (repeat' split) <;> simp
@[simp] theorem State.sendMsix_reg (c : Fin 33) (q : W16) : (s.sendMsix c q).reg = s.reg := by unfold State.sendMsix; (repeat' split) <;> simp
@[simp] theorem State.sendMsix_chain (c : Fin 33) (q : W16) : (s.sendMsix c q).chain = s.chain := by unfold State.sendMsix; (repeat' split) <;> simp
@[simp] theorem State.sendMsix_freeCtr (c : Fin 33) (q : W16) : (s.sendMsix c q).freeCtr = s.freeCtr := by unfold State.sendMsix; (repeat' split) <;> simp
@[simp] theorem State.sendMsix_pending (c : Fin 33) (q : W16) : (s.sendMsix c q).pending = s.pending := by unfold State.sendMsix; (repeat' split) <;> simp

@[simp] theorem State.complete_time (c : HostCmd) (x y : W32) (st : NvStatus) : (s.complete c x y st).time = s.time := by simp [State.complete]
@[simp] theorem State.complete_set (c : HostCmd) (x y : W32) (st : NvStatus) : (s.complete c x y st).set = s.set := by simp [State.complete]
@[simp] theorem State.complete_tiles (c : HostCmd) (x y : W32) (st : NvStatus) : (s.complete c x y st).tiles = s.tiles := by simp [State.complete]
@[simp] theorem State.complete_engines (c : HostCmd) (x y : W32) (st : NvStatus) : (s.complete c x y st).engines = s.engines := by simp [State.complete]
@[simp] theorem State.complete_ecc (c : HostCmd) (x y : W32) (st : NvStatus) : (s.complete c x y st).ecc = s.ecc := by simp [State.complete]
@[simp] theorem State.complete_obj (c : HostCmd) (x y : W32) (st : NvStatus) : (s.complete c x y st).obj = s.obj := by simp [State.complete]
@[simp] theorem State.complete_idx (c : HostCmd) (x y : W32) (st : NvStatus) : (s.complete c x y st).idx = s.idx := by simp [State.complete]
@[simp] theorem State.complete_media (c : HostCmd) (x y : W32) (st : NvStatus) : (s.complete c x y st).media = s.media := by simp [State.complete]
@[simp] theorem State.complete_ftl (c : HostCmd) (x y : W32) (st : NvStatus) : (s.complete c x y st).ftl = s.ftl := by simp [State.complete]
@[simp] theorem State.complete_pwr (c : HostCmd) (x y : W32) (st : NvStatus) : (s.complete c x y st).pwr = s.pwr := by simp [State.complete]
@[simp] theorem State.complete_boot (c : HostCmd) (x y : W32) (st : NvStatus) : (s.complete c x y st).boot = s.boot := by simp [State.complete]
@[simp] theorem State.complete_rcv (c : HostCmd) (x y : W32) (st : NvStatus) : (s.complete c x y st).rcv = s.rcv := by simp [State.complete]
@[simp] theorem State.complete_sec (c : HostCmd) (x y : W32) (st : NvStatus) : (s.complete c x y st).sec = s.sec := by simp [State.complete]
@[simp] theorem State.complete_link (c : HostCmd) (x y : W32) (st : NvStatus) : (s.complete c x y st).link = s.link := by simp [State.complete]
@[simp] theorem State.complete_reg (c : HostCmd) (x y : W32) (st : NvStatus) : (s.complete c x y st).reg = s.reg := by simp [State.complete]
@[simp] theorem State.complete_chain (c : HostCmd) (x y : W32) (st : NvStatus) : (s.complete c x y st).chain = s.chain := by simp [State.complete]
@[simp] theorem State.complete_freeCtr (c : HostCmd) (x y : W32) (st : NvStatus) : (s.complete c x y st).freeCtr = s.freeCtr := by simp [State.complete]
@[simp] theorem State.complete_pending (c : HostCmd) (x y : W32) (st : NvStatus) : (s.complete c x y st).pending = s.pending := by simp [State.complete]

@[simp] theorem State.fail_time (c : HostCmd) (st : NvStatus) : (s.fail c st).time = s.time := by simp [State.fail]
@[simp] theorem State.fail_set (c : HostCmd) (st : NvStatus) : (s.fail c st).set = s.set := by simp [State.fail]
@[simp] theorem State.fail_tiles (c : HostCmd) (st : NvStatus) : (s.fail c st).tiles = s.tiles := by simp [State.fail]
@[simp] theorem State.fail_engines (c : HostCmd) (st : NvStatus) : (s.fail c st).engines = s.engines := by simp [State.fail]
@[simp] theorem State.fail_ecc (c : HostCmd) (st : NvStatus) : (s.fail c st).ecc = s.ecc := by simp [State.fail]
@[simp] theorem State.fail_obj (c : HostCmd) (st : NvStatus) : (s.fail c st).obj = s.obj := by simp [State.fail]
@[simp] theorem State.fail_idx (c : HostCmd) (st : NvStatus) : (s.fail c st).idx = s.idx := by simp [State.fail]
@[simp] theorem State.fail_media (c : HostCmd) (st : NvStatus) : (s.fail c st).media = s.media := by simp [State.fail]
@[simp] theorem State.fail_ftl (c : HostCmd) (st : NvStatus) : (s.fail c st).ftl = s.ftl := by simp [State.fail]
@[simp] theorem State.fail_pwr (c : HostCmd) (st : NvStatus) : (s.fail c st).pwr = s.pwr := by simp [State.fail]
@[simp] theorem State.fail_boot (c : HostCmd) (st : NvStatus) : (s.fail c st).boot = s.boot := by simp [State.fail]
@[simp] theorem State.fail_rcv (c : HostCmd) (st : NvStatus) : (s.fail c st).rcv = s.rcv := by simp [State.fail]
@[simp] theorem State.fail_sec (c : HostCmd) (st : NvStatus) : (s.fail c st).sec = s.sec := by simp [State.fail]
@[simp] theorem State.fail_link (c : HostCmd) (st : NvStatus) : (s.fail c st).link = s.link := by simp [State.fail]
@[simp] theorem State.fail_reg (c : HostCmd) (st : NvStatus) : (s.fail c st).reg = s.reg := by simp [State.fail]
@[simp] theorem State.fail_chain (c : HostCmd) (st : NvStatus) : (s.fail c st).chain = s.chain := by simp [State.fail]
@[simp] theorem State.fail_freeCtr (c : HostCmd) (st : NvStatus) : (s.fail c st).freeCtr = s.freeCtr := by simp [State.fail]
@[simp] theorem State.fail_pending (c : HostCmd) (st : NvStatus) : (s.fail c st).pending = s.pending := by simp [State.fail]

@[simp] theorem State.failSt_time (c : HostCmd) (st : W16) : (s.failSt c st).time = s.time := by simp [State.failSt]
@[simp] theorem State.failSt_set (c : HostCmd) (st : W16) : (s.failSt c st).set = s.set := by simp [State.failSt]
@[simp] theorem State.failSt_tiles (c : HostCmd) (st : W16) : (s.failSt c st).tiles = s.tiles := by simp [State.failSt]
@[simp] theorem State.failSt_engines (c : HostCmd) (st : W16) : (s.failSt c st).engines = s.engines := by simp [State.failSt]
@[simp] theorem State.failSt_ecc (c : HostCmd) (st : W16) : (s.failSt c st).ecc = s.ecc := by simp [State.failSt]
@[simp] theorem State.failSt_obj (c : HostCmd) (st : W16) : (s.failSt c st).obj = s.obj := by simp [State.failSt]
@[simp] theorem State.failSt_idx (c : HostCmd) (st : W16) : (s.failSt c st).idx = s.idx := by simp [State.failSt]
@[simp] theorem State.failSt_media (c : HostCmd) (st : W16) : (s.failSt c st).media = s.media := by simp [State.failSt]
@[simp] theorem State.failSt_ftl (c : HostCmd) (st : W16) : (s.failSt c st).ftl = s.ftl := by simp [State.failSt]
@[simp] theorem State.failSt_pwr (c : HostCmd) (st : W16) : (s.failSt c st).pwr = s.pwr := by simp [State.failSt]
@[simp] theorem State.failSt_boot (c : HostCmd) (st : W16) : (s.failSt c st).boot = s.boot := by simp [State.failSt]
@[simp] theorem State.failSt_rcv (c : HostCmd) (st : W16) : (s.failSt c st).rcv = s.rcv := by simp [State.failSt]
@[simp] theorem State.failSt_sec (c : HostCmd) (st : W16) : (s.failSt c st).sec = s.sec := by simp [State.failSt]
@[simp] theorem State.failSt_link (c : HostCmd) (st : W16) : (s.failSt c st).link = s.link := by simp [State.failSt]
@[simp] theorem State.failSt_reg (c : HostCmd) (st : W16) : (s.failSt c st).reg = s.reg := by simp [State.failSt]
@[simp] theorem State.failSt_chain (c : HostCmd) (st : W16) : (s.failSt c st).chain = s.chain := by simp [State.failSt]
@[simp] theorem State.failSt_freeCtr (c : HostCmd) (st : W16) : (s.failSt c st).freeCtr = s.freeCtr := by simp [State.failSt]
@[simp] theorem State.failSt_pending (c : HostCmd) (st : W16) : (s.failSt c st).pending = s.pending := by simp [State.failSt]

@[simp] theorem State.ok_time (c : HostCmd) (x : W32) : (s.ok c x).time = s.time := by simp [State.ok]
@[simp] theorem State.ok_set (c : HostCmd) (x : W32) : (s.ok c x).set = s.set := by simp [State.ok]
@[simp] theorem State.ok_tiles (c : HostCmd) (x : W32) : (s.ok c x).tiles = s.tiles := by simp [State.ok]
@[simp] theorem State.ok_engines (c : HostCmd) (x : W32) : (s.ok c x).engines = s.engines := by simp [State.ok]
@[simp] theorem State.ok_ecc (c : HostCmd) (x : W32) : (s.ok c x).ecc = s.ecc := by simp [State.ok]
@[simp] theorem State.ok_obj (c : HostCmd) (x : W32) : (s.ok c x).obj = s.obj := by simp [State.ok]
@[simp] theorem State.ok_idx (c : HostCmd) (x : W32) : (s.ok c x).idx = s.idx := by simp [State.ok]
@[simp] theorem State.ok_media (c : HostCmd) (x : W32) : (s.ok c x).media = s.media := by simp [State.ok]
@[simp] theorem State.ok_ftl (c : HostCmd) (x : W32) : (s.ok c x).ftl = s.ftl := by simp [State.ok]
@[simp] theorem State.ok_pwr (c : HostCmd) (x : W32) : (s.ok c x).pwr = s.pwr := by simp [State.ok]
@[simp] theorem State.ok_boot (c : HostCmd) (x : W32) : (s.ok c x).boot = s.boot := by simp [State.ok]
@[simp] theorem State.ok_rcv (c : HostCmd) (x : W32) : (s.ok c x).rcv = s.rcv := by simp [State.ok]
@[simp] theorem State.ok_sec (c : HostCmd) (x : W32) : (s.ok c x).sec = s.sec := by simp [State.ok]
@[simp] theorem State.ok_link (c : HostCmd) (x : W32) : (s.ok c x).link = s.link := by simp [State.ok]
@[simp] theorem State.ok_reg (c : HostCmd) (x : W32) : (s.ok c x).reg = s.reg := by simp [State.ok]
@[simp] theorem State.ok_chain (c : HostCmd) (x : W32) : (s.ok c x).chain = s.chain := by simp [State.ok]
@[simp] theorem State.ok_freeCtr (c : HostCmd) (x : W32) : (s.ok c x).freeCtr = s.freeCtr := by simp [State.ok]
@[simp] theorem State.ok_pending (c : HostCmd) (x : W32) : (s.ok c x).pending = s.pending := by simp [State.ok]

@[simp] theorem State.reply_time (c : HostCmd) (bs : List Byte) (x : W32) : (s.reply c bs x).time = s.time := by simp [State.reply]
@[simp] theorem State.reply_set (c : HostCmd) (bs : List Byte) (x : W32) : (s.reply c bs x).set = s.set := by simp [State.reply]
@[simp] theorem State.reply_tiles (c : HostCmd) (bs : List Byte) (x : W32) : (s.reply c bs x).tiles = s.tiles := by simp [State.reply]
@[simp] theorem State.reply_engines (c : HostCmd) (bs : List Byte) (x : W32) : (s.reply c bs x).engines = s.engines := by simp [State.reply]
@[simp] theorem State.reply_ecc (c : HostCmd) (bs : List Byte) (x : W32) : (s.reply c bs x).ecc = s.ecc := by simp [State.reply]
@[simp] theorem State.reply_obj (c : HostCmd) (bs : List Byte) (x : W32) : (s.reply c bs x).obj = s.obj := by simp [State.reply]
@[simp] theorem State.reply_idx (c : HostCmd) (bs : List Byte) (x : W32) : (s.reply c bs x).idx = s.idx := by simp [State.reply]
@[simp] theorem State.reply_media (c : HostCmd) (bs : List Byte) (x : W32) : (s.reply c bs x).media = s.media := by simp [State.reply]
@[simp] theorem State.reply_ftl (c : HostCmd) (bs : List Byte) (x : W32) : (s.reply c bs x).ftl = s.ftl := by simp [State.reply]
@[simp] theorem State.reply_pwr (c : HostCmd) (bs : List Byte) (x : W32) : (s.reply c bs x).pwr = s.pwr := by simp [State.reply]
@[simp] theorem State.reply_boot (c : HostCmd) (bs : List Byte) (x : W32) : (s.reply c bs x).boot = s.boot := by simp [State.reply]
@[simp] theorem State.reply_rcv (c : HostCmd) (bs : List Byte) (x : W32) : (s.reply c bs x).rcv = s.rcv := by simp [State.reply]
@[simp] theorem State.reply_sec (c : HostCmd) (bs : List Byte) (x : W32) : (s.reply c bs x).sec = s.sec := by simp [State.reply]
@[simp] theorem State.reply_link (c : HostCmd) (bs : List Byte) (x : W32) : (s.reply c bs x).link = s.link := by simp [State.reply]
@[simp] theorem State.reply_reg (c : HostCmd) (bs : List Byte) (x : W32) : (s.reply c bs x).reg = s.reg := by simp [State.reply]
@[simp] theorem State.reply_chain (c : HostCmd) (bs : List Byte) (x : W32) : (s.reply c bs x).chain = s.chain := by simp [State.reply]
@[simp] theorem State.reply_freeCtr (c : HostCmd) (bs : List Byte) (x : W32) : (s.reply c bs x).freeCtr = s.freeCtr := by simp [State.reply]
@[simp] theorem State.reply_pending (c : HostCmd) (bs : List Byte) (x : W32) : (s.reply c bs x).pending = s.pending := by simp [State.reply]

@[simp] theorem State.leaveLow_time : (s.leaveLow).time = s.time := by unfold State.leaveLow; split <;> rfl
@[simp] theorem State.leaveLow_set : (s.leaveLow).set = s.set := by unfold State.leaveLow; split <;> rfl
@[simp] theorem State.leaveLow_host : (s.leaveLow).host = s.host := by unfold State.leaveLow; split <;> rfl
@[simp] theorem State.leaveLow_tiles : (s.leaveLow).tiles = s.tiles := by unfold State.leaveLow; split <;> rfl
@[simp] theorem State.leaveLow_engines : (s.leaveLow).engines = s.engines := by unfold State.leaveLow; split <;> rfl
@[simp] theorem State.leaveLow_ecc : (s.leaveLow).ecc = s.ecc := by unfold State.leaveLow; split <;> rfl
@[simp] theorem State.leaveLow_obj : (s.leaveLow).obj = s.obj := by unfold State.leaveLow; split <;> rfl
@[simp] theorem State.leaveLow_idx : (s.leaveLow).idx = s.idx := by unfold State.leaveLow; split <;> rfl
@[simp] theorem State.leaveLow_media : (s.leaveLow).media = s.media := by unfold State.leaveLow; split <;> rfl
@[simp] theorem State.leaveLow_ftl : (s.leaveLow).ftl = s.ftl := by unfold State.leaveLow; split <;> rfl
@[simp] theorem State.leaveLow_boot : (s.leaveLow).boot = s.boot := by unfold State.leaveLow; split <;> rfl
@[simp] theorem State.leaveLow_rcv : (s.leaveLow).rcv = s.rcv := by unfold State.leaveLow; split <;> rfl
@[simp] theorem State.leaveLow_sec : (s.leaveLow).sec = s.sec := by unfold State.leaveLow; split <;> rfl
@[simp] theorem State.leaveLow_link : (s.leaveLow).link = s.link := by unfold State.leaveLow; split <;> rfl
@[simp] theorem State.leaveLow_reg : (s.leaveLow).reg = s.reg := by unfold State.leaveLow; split <;> rfl
@[simp] theorem State.leaveLow_chain : (s.leaveLow).chain = s.chain := by unfold State.leaveLow; split <;> rfl
@[simp] theorem State.leaveLow_freeCtr : (s.leaveLow).freeCtr = s.freeCtr := by unfold State.leaveLow; split <;> rfl
@[simp] theorem State.leaveLow_pending : (s.leaveLow).pending = s.pending := by unfold State.leaveLow; split <;> rfl

end Sys2Proof.Machine
end

