-- ==== Sys2Proof/Laws/Ops.lean ====
section
/-! SUPPORT. What the shared operations do, said once: registers and tiles after a write, jobs, the rings of the logs, and the issue of
an Abasel instruction. -/
namespace Sys2Proof.Machine

/-! ## Tiles, cores, engines and contexts -/

@[simp] theorem State.tile_setTile_same (s : State) (t : Nat) (x : Tile) : (s.setTile t x).tile t = x := by simp [State.tile, State.setTile]
theorem State.tile_setTile_other (s : State) {n t : Nat} (h : n ≠ t) (x : Tile) : (s.setTile t x).tile n = s.tile n := by
  simp [State.tile, State.setTile, getD_put_other _ h]
@[simp] theorem State.engine_setEngine_same (s : State) (e : Nat) (x : Engine) : (s.setEngine e x).engine e = x := by
  simp [State.engine, State.setEngine]
theorem State.engine_setEngine_other (s : State) {n e : Nat} (h : n ≠ e) (x : Engine) : (s.setEngine e x).engine n = s.engine n := by
  simp [State.engine, State.setEngine, getD_put_other _ h]

@[simp] theorem State.core_setCore_same (s : State) (t c : Nat) (x : Core) : (s.setCore t c x).core t c = x := by
  simp [State.core, State.setCore]
theorem State.core_setCore_other (s : State) {m t n c : Nat} (h : m ≠ t ∨ n ≠ c) (x : Core) : (s.setCore t c x).core m n = s.core m n := by
  unfold State.core State.setCore
  by_cases ht : m = t
  · subst ht
    rw [State.tile_setTile_same]
    exact getD_put_other _ (h.resolve_left (fun n => n rfl)) _ _
  · rw [State.tile_setTile_other _ ht]
@[simp] theorem State.ctx_setCtx_same (s : State) (e k : Nat) (x : Ctx) : (s.setCtx e k x).ctx e k = x := by
  simp [State.ctx, State.setCtx]
theorem State.ctx_setCtx_other (s : State) {m e n k : Nat} (h : m ≠ e ∨ n ≠ k) (x : Ctx) : (s.setCtx e k x).ctx m n = s.ctx m n := by
  unfold State.ctx State.setCtx
  by_cases he : m = e
  · subst he
    rw [State.engine_setEngine_same]
    exact getD_put_other _ (h.resolve_left (fun n => n rfl)) _ _
  · rw [State.engine_setEngine_other _ he]

/-- A write of a core keeps everything of every tile but its cores. -/
@[simp] theorem State.setCore_sram (s : State) (t c : Nat) (x : Core) (n : Nat) : ((s.setCore t c x).tile n).sram = (s.tile n).sram := by
  by_cases h : n = t
  · subst h; simp [State.setCore]
  · rw [State.setCore, State.tile_setTile_other _ h]
@[simp] theorem State.setCore_texts (s : State) (t c : Nat) (x : Core) (n : Nat) : ((s.setCore t c x).tile n).texts = (s.tile n).texts := by
  by_cases h : n = t
  · subst h; simp [State.setCore]
  · rw [State.setCore, State.tile_setTile_other _ h]

/-! ## The scalar side of an agent -/

@[simp] theorem State.regs_setRegs_same (s : State) (ag : Agent) (r : Regs) : (s.setRegs ag r).regs ag = r := by
  cases ag <;> simp [State.regs, State.setRegs]

theorem State.regs_setRegs_other (s : State) {b ag : Agent} (h : b ≠ ag) (r : Regs) : (s.setRegs ag r).regs b = s.regs b := by
  cases ag with
  | core t c =>
    cases b with
    | core u d =>
      have : u.val ≠ t.val ∨ d.val ≠ c.val := by
        rcases Decidable.em (u = t) with e | e
        · exact .inr (fun hd => h (by rw [e, Fin.ext hd]))
        · exact .inl (fun hu => e (Fin.ext hu))
      simp only [State.regs, State.setRegs]
      rw [State.core_setCore_other _ this]
    | ctx e k => rfl
  | ctx e k =>
    cases b with
    | core u d => rfl
    | ctx f l =>
      have : f.val ≠ e.val ∨ l.val ≠ k.val := by
        rcases Decidable.em (f = e) with g | g
        · exact .inr (fun hd => h (by rw [g, Fin.ext hd]))
        · exact .inl (fun hu => g (Fin.ext hu))
      simp only [State.regs, State.setRegs]
      rw [State.ctx_setCtx_other _ this]

@[simp] theorem State.regs_updRegs_same (s : State) (ag : Agent) (f : Regs → Regs) : (s.updRegs ag f).regs ag = f (s.regs ag) :=
  State.regs_setRegs_same s ag _
theorem State.regs_updRegs_other (s : State) {b ag : Agent} (h : b ≠ ag) (f : Regs → Regs) : (s.updRegs ag f).regs b = s.regs b :=
  State.regs_setRegs_other s h _

@[simp] theorem Regs.pc_setPc (r : Regs) (x : W64) : (r.setPc x).pc = x := by
  unfold Regs.pc Regs.setPc
  apply BitVec.eq_of_getLsbD_eq
  intro i hi
  rw [BitVec.getLsbD_append]
  by_cases h : i < 13
  · simp [h, hi]
  · have h2 : i - 13 < 51 := by omega
    have h3 : 13 + (i - 13) = i := by omega
    simp [h, h2, h3]
@[simp] theorem Regs.s_setPc (r : Regs) (x : W64) : (r.setPc x).s = r.s := rfl
@[simp] theorem Regs.p_setPc (r : Regs) (x : W64) : (r.setPc x).p = r.p := rfl
@[simp] theorem Regs.run_setPc (r : Regs) (x : W64) : (r.setPc x).run = r.run := rfl
@[simp] theorem Regs.job_setPc (r : Regs) (x : W64) : (r.setPc x).job = r.job := rfl
@[simp] theorem Regs.status_setPc (r : Regs) (x : W64) : (r.setPc x).status = r.status := rfl
@[simp] theorem Regs.tctl_setPc (r : Regs) (x : W64) : (r.setPc x).tctl = r.tctl := rfl

/-- The registers of every agent depend on the tiles and the engines alone. -/
theorem State.regs_congr {s t : State} (h1 : t.tiles = s.tiles) (h2 : t.engines = s.engines) (ag : Agent) : t.regs ag = s.regs ag := by
  cases ag <;> simp [State.regs, State.core, State.tile, State.ctx, State.engine, h1, h2]
@[simp] theorem State.regs_stampAt (s : State) (src : BitVec 9) (k : Byte) (d : BitVec 28) (a : List W128) (ag : Agent) :
    (s.stampAt src k d a).regs ag = s.regs ag := State.regs_congr (by simp) (by simp) ag
@[simp] theorem State.regs_stamp (s : State) (src : BitVec 9) (k : Byte) (d : BitVec 28) (ag : Agent) : (s.stamp src k d).regs ag = s.regs ag :=
  State.regs_congr (by simp) (by simp) ag
@[simp] theorem State.regs_stampIf (s : State) (b : Bool) (g : Agent) (pc : W64) (ag : Agent) : (s.stampIf b g pc).regs ag = s.regs ag :=
  State.regs_congr (by simp) (by simp) ag
@[simp] theorem State.regs_updJobQ (s : State) (n : Option Nat) (f : Job → Job) (ag : Agent) : (s.updJob? n f).regs ag = s.regs ag :=
  State.regs_congr (by simp) (by simp) ag
@[simp] theorem State.regs_noteCe (s : State) (k u c : Nat) (b : BitVec 7) (a : BitVec 40) (ag : Agent) : (s.noteCe k u c b a).regs ag = s.regs ag :=
  State.regs_congr (by simp) (by simp) ag
@[simp] theorem State.regs_noteUe (s : State) (src : BitVec 9) (k u c : Nat) (a : BitVec 40) (ag : Agent) : (s.noteUe src k u c a).regs ag = s.regs ag :=
  State.regs_congr (by simp) (by simp) ag

/-! ## Register files -/

@[simp] theorem Regs.rs_zero (r : Regs) : r.rs 0 = 0 := rfl
@[simp] theorem Regs.rp_zero (r : Regs) : r.rp 0 = BitVec.allOnes 64 := rfl
@[simp] theorem Regs.ws_zero (r : Regs) (v : W64) : r.ws 0 v = r := rfl
@[simp] theorem Regs.wp_zero (r : Regs) (v : W64) : r.wp 0 v = r := rfl
theorem Regs.rs_ws (r : Regs) (m n : BitVec 5) (v : W64) : (r.ws n v).rs m = if m = n ∧ n ≠ 0 then v else r.rs m := by
  unfold Regs.ws Regs.rs
  by_cases hn : n = 0
  · simp [hn]
  · simp only [hn, if_false, ne_eq, not_false_eq_true, and_true]
    rw [getD_putD]
    by_cases h : m = n
    · subst h; simpa using fun e => absurd e hn
    · have : m.toNat ≠ n.toNat := fun e => h (BitVec.eq_of_toNat_eq e)
      simp [h, this]
theorem Regs.rp_wp (r : Regs) (m n : BitVec 5) (v : W64) : (r.wp n v).rp m = if m = n ∧ n ≠ 0 then v else r.rp m := by
  unfold Regs.wp Regs.rp
  by_cases hn : n = 0
  · simp [hn]
  · simp only [hn, if_false, ne_eq, not_false_eq_true, and_true]
    rw [getD_putD]
    by_cases h : m = n
    · subst h; simpa using fun e => absurd e hn
    · have : m.toNat ≠ n.toNat := fun e => h (BitVec.eq_of_toNat_eq e)
      simp [h, this]

/-! ## Jobs -/

/-- A change of job `n` that keeps its number is what `job?` finds. -/
theorem State.job?_updJob_same (s : State) (n : Nat) (f : Job → Job) (h : ∀ j, (f j).num = j.num) : (s.updJob n f).job? n = (s.job? n).map f := by
  show List.find? (fun j => j.num == n) (List.map (fun j => if j.num == n then f j else j) s.host.jobs) = (List.find? (fun j => j.num == n) s.host.jobs).map f
  induction s.host.jobs with
  | nil => rfl
  | cons j js ih =>
    by_cases e : j.num = n
    · simp [e, h]
    · simpa [e] using ih

/-! ## The rings of the logs (R188, R446) -/

theorem length_trimLog (cap : Nat) (l : List LogEntry) : (trimLog cap l).1.length ≤ cap := by
  unfold trimLog
  split
  · next h => exact List.drop_eq_nil_iff.mp h
  · rw [List.length_append, List.length_map, List.length_drop, List.length_take]
    have : (List.take cap l).length ≤ cap := by rw [List.length_take]; exact Nat.min_le_left _ _
    omega
theorem TimeSt.length_logCairn (t : TimeSt) (b : W128) (a : List W128) (h : t.log.length ≤ logCap) : (t.logCairn b a).log.length ≤ logCap := by
  unfold TimeSt.logCairn
  split
  · exact length_trimLog _ _
  · exact h
@[simp] theorem TimeSt.errors_logCairn (t : TimeSt) (b : W128) (a : List W128) : (t.logCairn b a).errors = t.errors := by
  unfold TimeSt.logCairn
  split <;> rfl
theorem TimeSt.length_errCairn (t : TimeSt) (b : W128) : (t.errCairn b).errors.length ≤ 256 := by
  exact Nat.le_trans (Nat.le_of_eq List.length_take) (Nat.min_le_left _ _)
/-- A cairn keeps both rings within their capacities. -/
theorem State.rings_stampAt (s : State) (src : BitVec 9) (k : Byte) (d : BitVec 28) (a : List W128)
    (h : s.time.log.length ≤ logCap ∧ s.time.errors.length ≤ 256) :
    (s.stampAt src k d a).time.log.length ≤ logCap ∧ (s.stampAt src k d a).time.errors.length ≤ 256 := by
  unfold State.stampAt State.stampOf
  split
  · simp only [State.stampTimed]
    split
    · exact ⟨TimeSt.length_logCairn _ _ _ h.1, TimeSt.length_errCairn _ _⟩
    · exact ⟨TimeSt.length_logCairn _ _ _ h.1, by rw [TimeSt.errors_logCairn]; exact h.2⟩
  · exact h

/-! ## The issue of an Abasel instruction -/

@[simp] theorem regs_fetched (g : Agent) (w : IWord) (s : State) (ag : Agent) : (fetched g w s).regs ag = s.regs ag := by
  unfold fetched
  split
  · exact State.regs_noteCe _ _ _ _ _ _ _
  · rfl

/-- What becomes of an action that stamps no cairn which has to wait: the action. -/
theorem State.orStall_of_le {s t : State} (h : t.time.stalled.length ≤ s.time.stalled.length) : s.orStall t = t := by
  simp [State.orStall, Nat.not_lt.mpr h]

/-- An action comes to itself, or to nothing yet (R180, R188). -/
theorem State.orStall_cases (s t : State) : s.orStall t = s ∨ s.orStall t = t := by
  unfold State.orStall
  split <;> simp

/-- An action that comes to nothing stays so. -/
@[simp] theorem State.orStall_self (s : State) : s.orStall s = s := by simp [State.orStall]

/-- An action keeps the queue of commands when its effect does. -/
theorem State.orStall_pending {s t : State} (h : t.pending = s.pending) : (s.orStall t).pending = s.pending := by
  rcases s.orStall_cases t with e | e <;> rw [e]
  exact h

/-- An agent that issues no instruction stays as it is. -/
theorem State.issue_idle {s : State} {ag : Agent} (h : s.issues ag = false) (o : Op) (w : IWord) (body : State → Act) : s.issue o ag w body = s := by
  simp [State.issue, State.issueNow, h]

/-- An instruction that may take effect (R110): the issue is what its own effect comes to, after the fetch. -/
theorem State.issueNow_effect {s : State} {ag : Agent} {w : IWord} {o : Op} (body : State → Act) (hf : fetches ag w s = true)
    (hl : w.legal o ag = true) (hp : (o.lanes || ((s.regs ag).active w).getLsbD 0) = true) :
    s.issueNow o ag w body = finish o ag w (fetched ag w s) (body (fetched ag w s)) := by
  simp only [fetches, Bool.and_eq_true, decide_eq_true_eq, Option.isNone_iff_eq_none] at hf
  obtain ⟨⟨⟨hi, ha⟩, hn⟩, hh⟩ := hf
  have h1 : ¬ (s.textOf ag).length ≤ (s.regs ag).pc.toNat := by split at hn <;> omega
  have h2 : (w.isLong && decide ((s.textOf ag).length ≤ (s.regs ag).pc.toNat + 1)) = false := by
    cases hw : w.isLong
    · rfl
    · simp [hw] at hn ⊢
      omega
  have hp' : (!o.lanes && !((s.regs ag).active w).getLsbD 0) = false := by
    cases h : o.lanes <;> simp_all
  have exec1 (u : State) : State.issueNow.exec1 o ag w body u (s.regs ag) = finish o ag w u (body u) := by
    simp only [State.issueNow.exec1, hl, hp', Bool.not_true, Bool.false_eq_true, if_false]
  unfold State.issueNow
  simp only [hi, ha, h1, h2, Bool.not_true, Bool.false_eq_true, if_false]
  unfold fetched
  simp only [fetchHit] at hh ⊢
  cases he : s.eccOf 1 (s.fetchUnit ag) (8 * (s.regs ag).pc.toNat) (8 * w.words.toNat) w.fetch with
  | clean => exact exec1 s
  | correctable b a => exact exec1 _
  | uncorrectable a => rw [he] at hh; cases hh

/-- An instruction that may take effect, and whose cairns need not wait (R180, R188): what its own effect comes to. -/
theorem State.issue_effect {s : State} {ag : Agent} {w : IWord} {o : Op} (body : State → Act) (hf : fetches ag w s = true)
    (hl : w.legal o ag = true) (hp : (o.lanes || ((s.regs ag).active w).getLsbD 0) = true)
    (hs : (finish o ag w (fetched ag w s) (body (fetched ag w s))).time.stalled.length ≤ s.time.stalled.length) :
    s.issue o ag w body = finish o ag w (fetched ag w s) (body (fetched ag w s)) := by
  unfold State.issue
  rw [State.issueNow_effect body hf hl hp]
  exact State.orStall_of_le hs

/-- The state that an instruction's own effect leaves, before it is finished; the state before when it has none of its own. -/
def Act.left (s : State) : Act → State
  | .done t => t
  | .jump t _ => t
  | .async t => t
  | .park t _ => t
  | .stopped t => t
  | .trapIn t _ _ => t
  | .hold => s
  | .await t _ => t
  | .trap _ _ => s
  | .refuse _ => s

/-- A wait for transfers or the array keeps the queue of commands. -/
@[simp] theorem State.awaits_pending (s : State) (ag : Agent) (ds : List Nat) : (s.awaits ag ds).pending = s.pending := by
  cases ag <;> simp [State.awaits]

/-- Finishing an instruction keeps the queue of commands when its effect does. -/
theorem finish_pending (o : Op) (ag : Agent) (w : IWord) (s : State) (a : Act) (h : (a.left s).pending = s.pending) :
    (finish o ag w s a).pending = s.pending := by
  cases a <;> simp_all [finish, Act.left]

/-- The issue of an instruction keeps the queue of commands when its effect does. -/
theorem State.issue_pending (s : State) (o : Op) (ag : Agent) (w : IWord) (body : State → Act)
    (h : ∀ u, ((body u).left u).pending = u.pending) : (s.issue o ag w body).pending = s.pending := by
  have exec1 (u : State) (hu : u.pending = s.pending) : (State.issueNow.exec1 o ag w body u (s.regs ag)).pending = s.pending := by
    unfold State.issueNow.exec1
    (repeat' split) <;> simp [hu, finish_pending, h]
  refine State.orStall_pending ?_
  simp only [State.issueNow]
  split
  · rfl
  · split
    · simp
    · split
      · simp
      · split
        · simp
        · split
          · simp
          · exact exec1 _ (by simp)
          · exact exec1 _ rfl

end Sys2Proof.Machine
end

