-- ==== Sys2Proof/Tests/Slice0.lean ====
section
/-! SUPPORT. Tests of the model, and a witness for the hypotheses of every statement. The expected results come from the spec's
rules and worked examples, named beside each test. -/
namespace Sys2Proof.Tests
set_option Elab.async false
open Machine Claims

/-! ## Small states -/

/-- Core 0 of logical tile 0. -/
def ag0 : Agent := .core 0 0
/-- Context 0 of engine 0. -/
def cx0 : Agent := .ctx 0 0

/-- A word without predicate in the short form. -/
def word (imm : W32 := 0) (d a b : BitVec 5 := 0) : IWord := ⟨d, a, b, 0, false, false, imm, .short, .clean⟩

/-- Every island is locked and cairns reach the log. -/
def lockedTime : TimeSt := { islands := islandIds.map (fun k => (k, { locked := true })), logUp := true }

theorem find_same {α : Type} (c : α) (l : List Nat) (x : Nat) (h : x ∈ l) : find x (l.map (fun k => (k, c))) = some c := by
  induction l with
  | nil => cases h
  | cons y l ih =>
    simp only [List.map_cons, find]
    split
    · rfl
    · next hy => exact ih ((List.mem_cons.mp h).resolve_left (fun e => hy e.symm))
/-- A state with those islands is calm, and an instruction is ready in it when the rest of its conditions hold. -/
theorem calm_locked (s : State) (h : s.time = lockedTime) : calm s = true := by
  rw [calm, h]
  refine (Bool.and_eq_true _ _).mpr ⟨rfl, List.all_eq_true.mpr fun k hk => ?_⟩
  rw [show lockedTime.islands = islandIds.map (fun k => (k, ({ locked := true } : Island))) from rfl, getD, find_same _ _ _ hk]
  rfl
def readyBut (i : Instr) (s : State) : Bool :=
  match opOf i with
  | none => false
  | some (ag, w, o) => fetches ag w s && w.legal o ag && (o.lanes || ((s.regs ag).active w).getLsbD 0)
theorem ready_locked (i : Instr) (s : State) (h : s.time = lockedTime) : ready i s = readyBut i s := by
  unfold ready readyBut
  cases opOf i with
  | none => rfl
  | some x => exact (congrArg _ (calm_locked s h)).trans (Bool.and_true _)

/-- A job on tile 0. -/
def jobOf (kind : JobKind) (phase : JobPhase) : Job :=
  { num := 5, client := 1, ctrl := 0, sqid := 1, cid := 9, opcode := 0x94, outOff := 0, outLen := 65536, kind := kind, phase := phase,
    tiles := [0], nmem := 1 }

/-- A program job. -/
def progJob : Job := jobOf (.program 7 0 1 [] []) .admitted

/-- A drive at S8 whose tile 0 has core 0 as given, with a text of 32 words, and SRAM as given. -/
def onCore (k : Core) (sram : Mem := []) : State :=
  { boot := { phase := .ready }, time := lockedTime, host := { jobs := [progJob] },
    tiles := [(0, { cores := [(0, { k with prog := 7 })], texts := [(7, List.replicate 32 0)], sram := sram })] }

/-- Registers of a running core: s1, s2, … as given. -/
def runRegs (ss : List W64 := []) : Regs :=
  { run := .running, job := some 5, s := ss.zipIdx.map (fun x => (x.2 + 1, x.1)) }

/-- A running core. -/
def core (ss : List W64 := []) : Core := { r := runRegs ss }

/-- The state that a command leaves. -/
def after (c : Instr) (s : State) : State :=
  match exec c s with
  | .next t => t
  | _ => State.reset

/-! ## Well-formedness: each check refuses something -/

theorem refused_ecc_bit : (EccHit.correctable 72 0).wf = false := by decide
theorem refused_long_imm : (Instr.li64 ag0 { word 1 with form := .long 0 0 0 }).wf = false := by decide
theorem refused_sram_addr : (Instr.streamTransferComplete 0 0 0 (.sram 2097152)).wf = false := by decide
theorem refused_job : (Instr.walkDone 4194304).wf = false := by decide
theorem refused_vector : (Instr.queryEmbedded 0 0 (List.replicate 4097 0)).wf = false := by decide +kernel
theorem refused_slot : (Instr.subUnitMerge 16384 true).wf = false := by decide +kernel
theorem refused_block : (Instr.mediaCheck 1 2097152).wf = false := by decide +kernel
theorem refused_line : (Instr.qlcWordLineProgram 1 0 512).wf = false := by decide +kernel
theorem refused_ring : (Instr.probeReturn (List.replicate 8 ⟨0, true, false, 0, 250000, true⟩)).wf = false := by decide +kernel
theorem refused_drift : (Instr.timeSync [(512, 1)]).wf = false := by decide +kernel
theorem refused_answer : (Instr.chainMemberAnswer 0 0 true (List.replicate 4097 0)).wf = false := by decide +kernel

/-! ## Words of the encoding (R118, R119; opcodes of R141 to R176), written out field by field -/

/-- ADD s3, s1, s2: MAJOR 0x00, MINOR 0x00, DST 3, SRCA 1, SRCB 2. -/
theorem word_add : decodeAbasel ag0 0b000000_000000_00011_00001_00010_000_0_0_00000000000000000000000000000000#64 0 .clean .clean =
    some (.add ag0 (word 0 3 1 2)) := by decide +kernel
/-- ADDI s3, s1, −1 with predicate NOT p2 and STAMP: MAJOR 0x01, MINOR 0x00. -/
theorem word_addi : decodeAbasel ag0 0b000001_000000_00011_00001_00000_010_1_1_11111111111111111111111111111111#64 0 .clean .clean =
    some (.addi ag0 { word 0xFFFFFFFF 3 1 with pred := 2, pneg := true, stamp := true }) := by decide +kernel
/-- LI64 s4, word 1: MAJOR 0x3F, XMAJOR 0x01, MINOR 0x09 in bits 31:26. -/
theorem word_li64 : decodeAbasel ag0 0b111111_000001_00100_00000_00000_000_0_0_001001_00000_000000000000000000000#64 0xDEAD .clean .clean =
    some (.li64 ag0 { word 0 4 with form := .long 0 0 0xDEAD }) := by decide +kernel
/-- LD.HS s3, [s1 + 4]: MAJOR 0x02, MINOR 0x05. -/
theorem word_ldHs : decodeAbasel ag0 0b000010_000101_00011_00001_00000_000_0_0_00000000000000000000000000000100#64 0 .clean .clean =
    some (.ldHs ag0 (word 4 3 1) .clean) := by decide +kernel
/-- SRD s3, 0x023: MAJOR 0x03, MINOR 0x00. -/
theorem word_srd : decodeAbasel ag0 0b000011_000000_00011_00000_00000_000_0_0_00000000000000000000000000100011#64 0 .clean .clean =
    some (.srd ag0 (word 0x23 3)) := by decide +kernel
/-- BAR 0b0011: MAJOR 0x09, MINOR 0x04. -/
theorem word_bar : decodeAbasel ag0 0b001001_000100_00000_00000_00000_000_0_0_00000000000000000000000000000011#64 0 .clean .clean =
    some (.bar ag0 (word 3)) := by decide +kernel
/-- CMP.LTU p3, s1, s2: MAJOR 0x0C, MINOR 0x03. -/
theorem word_cmpLtu : decodeAbasel ag0 0b001100_000011_00011_00001_00010_000_0_0_00000000000000000000000000000000#64 0 .clean .clean =
    some (.cmpLtu ag0 (word 0 3 1 2)) := by decide +kernel
/-- VFMA v3, v1, v2: MAJOR 0x10, MINOR 0x03. -/
theorem word_vfma : decodeAbasel ag0 0b010000_000011_00011_00001_00010_000_0_0_00000000000000000000000000000000#64 0 .clean .clean =
    some (.vfma ag0 (word 0 3 1 2)) := by decide +kernel
/-- MMA.TERN acc2, s1: MAJOR 0x1C, MINOR 0x02. -/
theorem word_mmaTern : decodeAbasel ag0 0b011100_000010_00010_00001_00000_000_0_0_00000000000000000000000001000000#64 0 .clean .clean =
    some (.mmaTern ag0 (word 0x40 2 1)) := by decide +kernel
/-- DSC.WR d15, s1, field 4: MAJOR 0x20, MINOR 0x02. -/
theorem word_dscWr : decodeAbasel ag0 0b100000_000010_01111_00001_00000_000_0_0_00000000000000000000000000000100#64 0 .clean .clean =
    some (.dscWr ag0 (word 4 15 1)) := by decide +kernel
/-- TIME.CAIRN s1, 0x80: MAJOR 0x34, MINOR 0x01. -/
theorem word_timeCairn : decodeAbasel ag0 0b110100_000001_00000_00001_00000_000_0_0_00000000000000000000000010000000#64 0 .clean .clean =
    some (.timeCairn ag0 (word 0x80 0 1)) := by decide +kernel
/-- R120: a MINOR that no instruction of MAJOR 0x00 has spells a word that its agent takes as ILLEGAL_INSTR. -/
theorem word_reserved : decodeAbasel ag0 0b000000_111111_00000_00000_00000_000_0_0_00000000000000000000000000000000#64 0 .clean .clean =
    some (.nop ag0 { word with form := .reserved 0x03F0000000000000 }) := by decide +kernel

/-! ## The machine as a whole -/

theorem witness_StepRunsFront : State.reset.pending = [] := rfl
theorem witness_QueueKept : exec .epochSave State.reset = .next State.reset := rfl
theorem witness_RingsStayBounded : RingsBounded State.reset ∧ step State.reset = .next State.reset :=
  ⟨⟨by decide, by decide⟩, rfl⟩
theorem witness_RegistersStayHardWired :
    let s := onCore (core [7, 9])
    RegistersHardWired s ∧ step s = .next s := by
  refine ⟨fun ag => ?_, rfl⟩
  cases ag with
  | core t c => rcases Nat.eq_zero_or_pos t.val with ht | ht <;> rcases Nat.eq_zero_or_pos c.val with hc | hc <;>
      simp [State.regs, State.core, State.tile, onCore, core, runRegs, getD, find, ht, hc, Nat.pos_iff_ne_zero.mp, eq_comm, List.zipIdx]
  | ctx e k => exact ⟨rfl, rfl⟩
theorem witness_MemoriesStayCanonical :
    let s : State := { tiles := [(0, { sram := [(3, 7)] })], obj := { dir := [(1, { typ := 8, owner := 1, size := 4, state := 0, data := [(0, 9)] })] } }
    MemoriesCanonical s ∧ step s = .next s := ⟨⟨by decide, by decide⟩, rfl⟩
theorem witness_QueuesStayBounded :
    let s : State := { tiles := [(0, { amac := 4 }), (1, {})] }
    QueuesBounded s ∧ step s = .next s := ⟨by simp [QueuesBounded], rfl⟩
theorem witness_JobNumbersStayDistinct :
    let s : State := { host := { jobs := [{ progJob with num := 4194303 }, { progJob with num := 0 }] } }
    JobNumbersDistinct s ∧ s.host.jobs.length + s.idx.all.length < 1048576 ∧ step s = .next s := ⟨⟨by decide, by decide⟩, by decide, rfl⟩
theorem witness_MemoryWritesCanonical : Mem.wf [(3, 7), (9, 1)] = true := by decide
theorem witness_AbaselWordsRoundTrip :
    (let w : IWord := { word 0 31 with form := .long 0 0 0xFFFFFFFFFFFFFFFF }
     (opOf (.li64 ag0 w)).isSome = true ∧ (Instr.li64 ag0 w).wf = true ∧ ∀ o, opOf (.li64 ag0 w) = some (ag0, w, o) → w.legal o ag0 = true) ∧
    (let w : IWord := { word 0xFFFFFFFF 31 31 with pred := 7, pneg := true, stamp := true }
     (Instr.addi cx0 w).wf = true ∧ ∀ o, opOf (.addi cx0 w) = some (cx0, w, o) → w.legal o cx0 = true) := by
  refine ⟨⟨by decide +kernel, by decide +kernel, ?_⟩, by decide +kernel, ?_⟩ <;>
    · intro o h
      injection h with h
      injection h with _ h
      injection h with _ h
      subst h
      decide +kernel

/-! ## Issue -/

/-- A core that issues the operation of ADD. -/
def addOp : Op := { major := 0, minor := 0, dst := .s, a := .s, b := .s }

theorem witness_IssueChecks :
    opOf (.add ag0 (word 0 3 1 2)) = some (ag0, word 0 3 1 2, addOp) ∧
    (onCore {}).issues ag0 = false ∧
    (let s := onCore { r := { runRegs with asyncRefused := some stQuotaExceeded } }
     s.issues ag0 = true ∧ calm s = true ∧ (s.regs ag0).asyncRefused = some stQuotaExceeded) ∧
    (let s := onCore { r := runRegs.setPc 32 }
     s.issues ag0 = true ∧ calm s = true ∧ (s.regs ag0).asyncRefused = none ∧ (s.textOf ag0).length ≤ (s.regs ag0).pc.toNat) ∧
    (let s := onCore { r := runRegs.setPc 31 }
     s.issues ag0 = true ∧ calm s = true ∧ (s.regs ag0).pc.toNat + 1 = (s.textOf ag0).length ∧
       ({ word with form := .long 0 0 0 } : IWord).isLong = true) ∧
    (let s := onCore { r := runRegs.setPc 30 }
     let w : IWord := { word with form := .long 0 0 0, fetch := .uncorrectable 248 }
     s.issues ag0 = true ∧ calm s = true ∧ (s.regs ag0).pc.toNat + 1 < (s.textOf ag0).length ∧ fetchHit ag0 w s = .uncorrectable 248 ∧
       248 / 8 = (s.regs ag0).pc.toNat + 1) ∧
    (fetches ag0 (word 1) (onCore core) = true ∧ (word 1).legal addOp ag0 = false ∧ calm (onCore core) = true ∧
      (let s := { onCore core with time := {} }
       fetches ag0 (word 1) s = true ∧ s.canStamp (s.srcOf ag0) = false)) ∧
    (let w : IWord := { word with pred := 1 }
     fetches ag0 w (onCore core) = true ∧ w.legal addOp ag0 = true ∧ ((((onCore core).regs ag0).active w).getLsbD 0) = false) ∧
    (let w : IWord := { word with stamp := true }
     let s := { onCore core with time := {} }
     fetches ag0 w s = true ∧ w.legal addOp ag0 = true ∧ ((s.regs ag0).active w).getLsbD 0 = true ∧
       s.canStamp (s.srcOf ag0) = false) := by
  try dsimp only
  repeat first | rw [ready_locked _ _ rfl] | rw [calm_locked _ rfl]
  all_goals decide +kernel

/-- R120: a reserved word takes ILLEGAL_INSTR (vector 0) with the word in TVAL. -/
theorem test_reserved :
    let t := after (.nop ag0 { word with form := .reserved 0x03F0000000000000 }) (onCore core)
    (t.regs ag0).tcause = 0 ∧ (t.regs ag0).tval = 0x03F0000000000000 ∧ (t.regs ag0).run = .failed := by decide +kernel
/-- R125: a word past the text takes FETCH_RANGE (vector 2), and without a handler the core fails. -/
theorem test_fetch_range :
    ((after (.add ag0 word) (onCore { r := runRegs.setPc 32 })).regs ag0).tcause = 2 ∧
    ((after (.add ag0 word) (onCore { r := runRegs.setPc 32 })).regs ag0).run = .failed := by decide +kernel

/-! ## Scalar group -/

theorem witness_ScalarAndPredicateResults :
    ready (.add ag0 (word 0 3 1 2)) (onCore (core [1, 2])) = true ∧ ready (.add ag0 (word 0 0 1 2)) (onCore (core [1, 2])) = true ∧
    ready (.shli ag0 (word 63 3 1)) (onCore (core [1])) = true ∧
    ready (.li64 ag0 { word 0 3 with form := .long 0 0 5 }) (onCore core) = true ∧
    ready (.cmpEq ag0 (word 0 7 1 2)) (onCore core) = true ∧ ready (.pfirst ag0 (word 0 3 7)) (onCore core) = true := by
  try dsimp only
  repeat first | rw [ready_locked _ _ rfl] | rw [calm_locked _ rfl]
  all_goals decide +kernel
theorem witness_ScalarAndPredicateResults_frame : exec (.add ag0 (word 0 3 1 2)) (onCore {}) = .next (onCore {}) := rfl

/-- R141: an addition wraps. -/
theorem test_add : ((after (.add ag0 (word 0 3 1 2)) (onCore (core [0xFFFFFFFFFFFFFFFF, 2]))).regs ag0).rs 3 = 1 := by decide +kernel
/-- R106: a write to s0 is discarded. -/
theorem test_add_s0 : ((after (.add ag0 (word 0 0 1 2)) (onCore (core [1, 2]))).regs ag0).s =
    ((onCore (core [1, 2])).regs ag0).s := by decide +kernel
/-- R141: the arithmetic shift keeps the sign, and takes the low 6 bits of the amount. -/
theorem test_sra : ((after (.sra ag0 (word 0 3 1 2)) (onCore (core [0x8000000000000000, 65]))).regs ag0).rs 3 = 0xC000000000000000 := by
  decide +kernel
/-- R141: LIH keeps the low half. -/
theorem test_lih : ((after (.lih ag0 (word 0xABCD0001 1)) (onCore (core [0x1111111122222222]))).regs ag0).rs 1 = 0xABCD000122222222 := by
  decide +kernel
/-- R145: a signed compare of −1 and 0 holds, the unsigned one does not. -/
theorem test_cmp :
    ((after (.cmpLt ag0 (word 0 3 1 2)) (onCore (core [0xFFFFFFFFFFFFFFFF]))).regs ag0).rp 3 = 0xFFFFFFFFFFFFFFFF ∧
    ((after (.cmpLtu ag0 (word 0 3 1 2)) (onCore (core [0xFFFFFFFFFFFFFFFF]))).regs ag0).rp 3 = 0 := by decide +kernel

/-- SRAM whose byte 5 is 0xFE and byte 4 is 0x01. -/
def sram5 : Mem := [(4, 0x01), (5, 0xFE)]

theorem witness_LoadsAndStores_loads :
    (let s := onCore (core [4])
     ready (.ldH ag0 (word 0 3 1) .clean) s = true ∧ accessOk 0 0 (addrOf ag0 (word 0 3 1) s) 2 (fetched ag0 (word 0 3 1) s) = true ∧
       sramGood 0 (addrOf ag0 (word 0 3 1) s) 2 .clean (fetched ag0 (word 0 3 1) s) = true) ∧
    (let s := onCore (core [2097144])
     ready (.ldD ag0 (word 0 3 1) .clean) s = true ∧ accessOk 0 0 (addrOf ag0 (word 0 3 1) s) 8 (fetched ag0 (word 0 3 1) s) = true) := by
  try dsimp only
  repeat first | rw [ready_locked _ _ rfl] | rw [calm_locked _ rfl]
  all_goals decide +kernel
theorem witness_LoadsAndStores_stores :
    (let s := onCore (core [2097144, 9])
     ready (.stD ag0 (word 0 0 1 2)) s = true ∧ accessOk 0 0 (addrOf ag0 (word 0 0 1 2) s) 8 (fetched ag0 (word 0 0 1 2) s) = true) ∧
    (let s := onCore (core [2097145])
     ready (.ldB ag0 (word 7 3 1) .clean) s = true ∧ 2097152 < (addrOf ag0 (word 7 3 1) s).toNat + 1) ∧
    (let s := onCore (core [2097145])
     ready (.ldH ag0 (word 0 3 1) .clean) s = true ∧ (addrOf ag0 (word 0 3 1) s).toNat + 2 ≤ 2097152 ∧
       (addrOf ag0 (word 0 3 1) s).toNat % 2 ≠ 0) := by
  try dsimp only
  repeat first | rw [ready_locked _ _ rfl] | rw [calm_locked _ rfl]
  all_goals decide +kernel

/-- R141, R8: a half word is little-endian; LD.HS extends its sign. -/
theorem test_loads :
    ((after (.ldH ag0 (word 0 3 1) .clean) (onCore (core [4]) sram5)).regs ag0).rs 3 = 0xFE01 ∧
    ((after (.ldHs ag0 (word 0 3 1) .clean) (onCore (core [4]) sram5)).regs ag0).rs 3 = 0xFFFFFFFFFFFFFE01 := by decide +kernel
/-- R141: an address both misaligned and outside SRAM takes ACCESS (vector 5). -/
theorem test_access : ((after (.ldW ag0 (word 0 3 1) .clean) (onCore (core [2097151]))).regs ag0).tcause = 5 := by decide +kernel
/-- R141: ST.W stores the low four bytes. -/
theorem test_store : (after (.stW ag0 (word 0 0 1 2) .clean) (onCore (core [8, 0x8877665544332211]))).sramNat 0 8 8 = 0x44332211 := by
  decide +kernel

theorem witness_SpecialRegisters :
    (let s := onCore (core [5])
     ready (.srd ag0 (word 0x023 3)) s = true ∧ s.readSpecial ag0 0x023 = some 0) ∧
    (let s := onCore core
     ready (.srd ag0 (word 0x027 3)) s = true ∧ s.readSpecial ag0 0x027 = none) ∧
    (let s := onCore (core [5])
     ready (.swr ag0 (word 0x011 0 1)) s = true ∧ (s.readSpecial ag0 0x011).isSome = true) ∧
    (let s := onCore core
     ready (.swr ag0 (word 0x00E 0 1)) s = true ∧ s.readSpecial ag0 0x00E = none) := by
  try dsimp only
  repeat first | rw [ready_locked _ _ rfl] | rw [calm_locked _ rfl]
  all_goals decide +kernel

/-! ## Branch and control group -/

theorem witness_ControlFlow :
    ready (.nop ag0 word) (onCore core) = true ∧ ready (.j ag0 (word 0xFFFFFFFF)) (onCore core) = true ∧
    ready (.jr ag0 (word 0 0 1)) (onCore (core [17])) = true ∧
    (ready (.jr ag0 (word 0 0 1)) (onCore (core [8192])) = true ∧ 8192 ≤ (((onCore (core [8192])).regs ag0).rs 1).toNat) ∧ ready (.jal ag0 (word 3 1)) (onCore core) = true ∧
    (let s := onCore { r := { runRegs with tctl := 2, tpc := 20 } }
     ready (.tret ag0 word) s = true ∧ (s.regs ag0).inh = true) ∧
    (ready (.tret ag0 word) (onCore core) = true ∧ ((onCore core).regs ag0).inh = false) := by
  try dsimp only
  repeat first | rw [ready_locked _ _ rfl] | rw [calm_locked _ rfl]
  all_goals decide +kernel
/-- R143: JAL saves the index of the next word. -/
theorem test_jal : ((after (.jal ag0 (word 3 1)) (onCore core)).regs ag0).rs 1 = 17 ∧
    ((after (.jal ag0 (word 3 1)) (onCore core)).regs ag0).pc = 19 := by decide +kernel

/-- A second core of the program. -/
def twoCores (k0 k1 : Core) : State :=
  { onCore k0 with tiles := [(0, { cores := [(0, { k0 with prog := 7 }), (1, { k1 with prog := 7 })], texts := [(7, List.replicate 32 0)] })] }

theorem witness_ControlFlow_end :
    (let s := { onCore core with host := { jobs := [progJob], recs := [⟨0, 0, 0, 5, 16, false, 0, none, .gbar 0, false, [], false, none⟩] } }
     ready (.endProg ag0 word) s = true ∧ s.outstanding 0 0 = true) ∧
    (ready (.endProg ag0 word) (onCore core) = true ∧ (onCore core).outstanding 0 0 = false) ∧
    ((onCore { r := { runRegs with job := none } }).regs ag0).job = none ∧
    (let s := twoCores core core
     let e := ((fetched ag0 word s).updRegs ag0 (fun r => { r with run := .ended })).stampIf false ag0 16
     (s.regs ag0).job = some 5 ∧ e.job? 5 = some progJob ∧ e.coresDone progJob ≠ (true, false)) ∧
    (let s := onCore core
     let e := ((fetched ag0 word s).updRegs ag0 (fun r => { r with run := .ended })).stampIf false ag0 16
     (s.regs ag0).job = some 5 ∧ e.job? 5 = some progJob ∧ e.coresDone progJob = (true, false) ∧ progJob.stop = none) ∧
    (let j := { progJob with stop := some stAborted }
     let s := { onCore core with host := { jobs := [j] } }
     let e := ((fetched ag0 word s).updRegs ag0 (fun r => { r with run := .ended })).stampIf false ag0 16
     ready (.endProg ag0 word) s = true ∧ (s.regs ag0).job = some 5 ∧ e.job? 5 = some j ∧ e.coresDone j = (true, false) ∧ j.stop.isSome = true) := by
  try dsimp only
  repeat first | rw [ready_locked _ _ rfl] | rw [calm_locked _ rfl]
  all_goals decide +kernel

/-- A running context of engine 0, with its walk. -/
def onCtx (c : Ctx) (w : Walk) (jobs : List Job := []) : State :=
  { boot := { phase := .ready }, time := lockedTime, host := { jobs := jobs },
    engines := [(0, { text := List.replicate 32 0, ctxs := [(0, c)], walks := [(5, w)] })] }

theorem witness_ControlFlow_end_ctx :
    (ready (.endProg cx0 word) (onCtx { r := runRegs } {}) = true ∧ ((onCtx { r := runRegs } {}).regs cx0).job = some 5) ∧
    (let s := onCtx { r := { runRegs with job := none } } {}
     ready (.endProg cx0 word) s = true ∧ (s.regs cx0).job = none) := by
  try dsimp only
  repeat first | rw [ready_locked _ _ rfl] | rw [calm_locked _ rfl]
  all_goals decide +kernel

theorem witness_EventFlagsAndBarriers :
    (let s := onCore core
     ready (.fset ag0 (word 15)) s = true ∧ s.flagWaiters 0 5 15 true = [] ∧ ready (.fclr ag0 (word 15)) s = true ∧
       ready (.fwait ag0 (word 15)) s = true ∧ (s.flags 0 5).getLsbD 15 = false ∧ ready (.fwaitc ag0 (word 15)) s = true) ∧
    (let s := twoCores core { r := { runRegs with run := .waiting (.flag 15 true) false } }
     ready (.fset ag0 (word 15)) s = true ∧ s.flagWaiters 0 5 15 true ≠ []) ∧
    (let s := (onCore core).setFlags 0 5 0x8000
     ready (.fwait ag0 (word 15)) s = true ∧ (s.flags 0 5).getLsbD 15 = true) ∧
    (let s := onCore core
     ready (.bar ag0 (word 3)) s = true ∧ ¬ (∀ x : Fin 4, (3#4).getLsbD x.val = true → (s.regs (.core 0 x)).job = some 5)) ∧
    ready (.bar ag0 word) (onCore core) = true ∧
    (let s := twoCores core { r := { runRegs with run := .waiting (.barrier 3) false } }
     ready (.bar ag0 (word 3)) s = true ∧ (∀ x : Fin 4, (3#4).getLsbD x.val = true → (s.regs (.core 0 x)).job = some 5) ∧
       (∀ x : Fin 4, (3#4).getLsbD x.val = true → x = 0 ∨ x ∈ s.atBarrier 0 (some 5) 3)) ∧
    (let s := twoCores core core
     ready (.bar ag0 (word 3)) s = true ∧ (∀ x : Fin 4, (3#4).getLsbD x.val = true → (s.regs (.core 0 x)).job = some 5) ∧
       ∃ x : Fin 4, (3#4).getLsbD x.val = true ∧ x ≠ 0 ∧ x ∉ s.atBarrier 0 (some 5) 3) := by
  try dsimp only
  repeat first | rw [ready_locked _ _ rfl] | rw [calm_locked _ rfl]
  all_goals decide +kernel

/-- R116: when a core waits and clears, the flag is left clear and the core runs on. -/
theorem test_fset_fwaitc :
    let t := after (.fset ag0 (word 15)) (twoCores core { r := { runRegs with run := .waiting (.flag 15 true) false } })
    t.flags 0 5 = 0 ∧ (t.regs (.core 0 1)).run = .running ∧ (t.regs (.core 0 1)).pc = 17 := by decide +kernel

theorem witness_TrapsTaken :
    ready (.brk ag0 (word 0xFFFFFFFF)) (onCore core) = true ∧ ready (.trap cx0 (word 1)) (onCtx { r := runRegs } {}) = true ∧
    (let s := onCore { r := { runRegs with asyncRefused := some stTierFull } }
     s.issues ag0 = true ∧ calm s = true ∧ (s.regs ag0).asyncRefused = some stTierFull) := by
  try dsimp only
  repeat first | rw [ready_locked _ _ rfl] | rw [calm_locked _ rfl]
  all_goals decide +kernel
/-- R127: a handler in the vector's text word takes control, TPC holds the trapped word, and INH is set. -/
theorem test_brk_handler :
    let s : State := { onCore core with tiles := [(0, { cores := [(0, { core with prog := 7 })], texts := [(7, (List.replicate 32 0).set 7 24)] })] }
    let t := after (.brk ag0 (word 9)) s
    (t.regs ag0).pc = 24 ∧ (t.regs ag0).tpc = 16 ∧ (t.regs ag0).tval = 9 ∧ (t.regs ag0).inh = true := by decide +kernel

/-! ## Vector and convert groups -/

theorem witness_LaneResults :
    ready (.vadd ag0 (word 0 3 1 2)) (onCore core) = true ∧ ready (.vabs ag0 (word 0 31 31)) (onCore core) = true ∧
    ready (.vmov ag0 { word 0 3 1 with pred := 1 }) (onCore core) = true ∧
    ready (.vbcast ag0 (word 0 3 1)) (onCore core) = true := by
  try dsimp only
  repeat first | rw [ready_locked _ _ rfl] | rw [calm_locked _ rfl]
  all_goals decide +kernel
/-- R146, R148: 1.0 + 2.0 = 3.0 in lane 0; an inactive lane keeps its value. -/
theorem test_vadd :
    let k : Core := { r := { runRegs with p := [(1, 1)] }, v := [(64, 0x3F800000), (65, 0x3F800000), (128, 0x40000000), (193, 7)] }
    let t := after (.vadd ag0 { word 0 3 1 2 with pred := 1 }) (onCore k)
    (t.core 0 0).rv 3 0 = 0x40400000 ∧ (t.core 0 0).rv 3 1 = 7 := by decide +kernel
/-- R146: the maximum of −0 and +0 is +0. -/
theorem test_vmax_zero : fMax 0x80000000 0 = 0 ∧ fMin 0 0x80000000 = 0x80000000 := by decide +kernel

theorem witness_VectorMoves :
    (let s := onCore (core [2096896])
     ready (.vld ag0 (word 0 3 1) .clean) s = true ∧ accessOk 0 0 (addrOf ag0 (word 0 3 1) s) 256 (fetched ag0 (word 0 3 1) s) = true ∧
       sramGood 0 (addrOf ag0 (word 0 3 1) s) 256 .clean (fetched ag0 (word 0 3 1) s) = true) ∧
    (let s := onCore (core [256])
     ready (.vst ag0 (word 0 0 1 2) .clean) s = true ∧ accessOk 0 0 (addrOf ag0 (word 0 0 1 2) s) 256 (fetched ag0 (word 0 0 1 2) s) = true) ∧
    (ready (.vaccRd ag0 (word 3 3 3) .clean) (onCore core) = true ∧ ready (.vaccWr ag0 (word 3 3 3) .clean) (onCore core) = true ∧
      ((onCore core).core 0 0).busy.contains 3 = false) ∧
    (let s := onCore { core with busy := [3] }
     ready (.vaccRd ag0 (word 3 3 3) .clean) s = true ∧ ready (.vaccWr ag0 (word 3 3 3) .clean) s = true ∧ (s.core 0 0).busy.contains 3 = true) ∧
    ready (.vget ag0 (word 63 3 1)) (onCore core) = true ∧ ready (.vput ag0 (word 63 3 1)) (onCore core) = true := by
  try dsimp only
  repeat first | rw [ready_locked _ _ rfl] | rw [calm_locked _ rfl]
  all_goals decide +kernel

theorem witness_LaneComparesAndReductions :
    ready (.vcmpEq ag0 (word 0 7 1 2)) (onCore core) = true ∧ ready (.vcmpLt ag0 (word 0 1 1 2)) (onCore core) = true ∧
    ready (.vcmpLe ag0 (word 0 1 1 2)) (onCore core) = true ∧ ready (.vredSum ag0 (word 0 3 1)) (onCore core) = true ∧
    ready (.vredMax ag0 (word 0 3 1)) (onCore core) = true ∧ ready (.vredMin ag0 { word 0 3 1 with pred := 1 }) (onCore core) = true := by
  try dsimp only
  repeat first | rw [ready_locked _ _ rfl] | rw [calm_locked _ rfl]
  all_goals decide +kernel
/-- R147: with no active lane the sum is +0 and the maximum −infinity. -/
theorem test_vred_empty :
    ((after (.vredSum ag0 { word 0 3 1 with pred := 1 }) (onCore core)).regs ag0).rs 3 = 0 ∧
    ((after (.vredMax ag0 { word 0 3 1 with pred := 1 }) (onCore core)).regs ag0).rs 3 = 0xFF800000 := by decide +kernel

theorem witness_Converts :
    ready (.cvtF32Bf16 ag0 (word 64 3 1)) (onCore core) = true ∧ (word 64).imm.toNat % 128 ≤ 64 ∧
    ready (.cvtF32L4 ag0 (word 0xF40 3 1 2)) (onCore core) = true ∧ ready (.cvtQ4aF32 ag0 (word 1 3 1 2)) (onCore core) = true ∧
    ready (.cvtMxfp4F32 ag0 (word 65 3 1)) (onCore core) = true ∧ 64 < (word 65).imm.toNat % 128 := by
  try dsimp only
  repeat first | rw [ready_locked _ _ rfl] | rw [calm_locked _ rfl]
  all_goals decide +kernel
/-- R42, R149: 2,062.163818359375 becomes BF16 0x4501, the worked example of 03. -/
theorem test_cvt_bf16 :
    let k : Core := { core with v := [(64, 0x4500E29F)] }
    ((after (.cvtF32Bf16 ag0 (word 1 3 1)) (onCore k)).core 0 0).rv 3 0 = 0x4501 := by decide +kernel

/-! ## Matrix group -/

/-- An operand record at address 0: one row, one column, K = 32, panels in bank rows 8, 16, 24 and 32. -/
def record1 : Mem := [(0, 8), (2, 16), (4, 24), (6, 32), (8, 1), (10, 1), (12, 32)]

/-- A matrix instruction in the queue of tile 0. -/
def entry (k : Nat) (started red : Bool) (outs : List (Nat × W32 × Bool)) : QEntry :=
  { core := 0, job := 5, word := 16, stamp := false, pair := .q4aq4a, form := .deep, bank := 0, accumulate := false, dfmt := 0, ftz := false,
    m := 1, n := 1, k := k, red := red, taking := 0, ordinal := 0, rank := 0, panels := ⟨8, 16, 24, 32⟩, spur := none,
    started := started, outs := outs, inv := 0 }
/-- Tile 0 with a queue. -/
def queued (q : List QEntry) (halted : Option (Option Nat) := none) : State :=
  { onCore core with tiles := [(0, { cores := [(0, core)], queue := q, halted := halted })] }

theorem witness_SpecialRegisters_wait :
    let s : State := { onCore core with tiles := [(0, { cores := [(0, { core with prog := 7 })], texts := [(7, List.replicate 32 0)],
                                                        queue := [entry 32 false false []] })] }
    ready (.srd ag0 (word 0x003 3)) s = true ∧ (s.readSpecial ag0 0x003).isSome = true ∧ s.crecPending ag0 = true ∧
      ready (.cvtF32Bf16 ag0 (word 1 3 1)) s = true := by
  try dsimp only
  repeat first | rw [ready_locked _ _ rfl] | rw [calm_locked _ rfl]
  all_goals decide +kernel
theorem witness_MatrixIssue :
    (let s := onCore (core [2097088])
     ready (.mmaQ4a ag0 (word 0 0 1)) s = true ∧ 2097152 < 2097088 + 65 ∧ ready (.mmaQ2a ag0 (word 0 0 1)) s = true ∧
       ready (.mmaTern ag0 (word 0 0 1)) s = true ∧ ready (.mmaMxfp4 ag0 (word 0 0 1)) s = true) ∧
    (let s := onCore (core [1])
     ready (.mmaQ2a ag0 (word 0 0 1)) s = true ∧ ((s.core 0 0).r.rs 1).toNat % 64 ≠ 0) ∧
    (let s := onCore core record1
     ready (.mmaQ4a ag0 (word 0 3 0)) s = true ∧ (s.core 0 0).spur = none ∧
       operandRecord (s.tile 0).sram 0 = some (⟨8, 16, 24, 32⟩, 1, 1, 32) ∧ shareForm 0 false 3 1 1 = some .deep ∧
       (∀ p ∈ panelList .q4aq4a ⟨8, 16, 24, 32⟩ none 1 1 32, panelFits p.1 p.2.1 p.2.2 = true ∧
         (fetched ag0 (word 0 3 0) s).streamMeets 0 0 (1024 * p.1) (1024 * panelSpan p.2.1 p.2.2) false = false) ∧
       (s.tile 0).queue.length < 16) ∧
    ready (.mmaSpur ag0 (word 0 0 1)) (onCore (core [2097120])) = true ∧ ready (.mmaSpur ag0 (word 0 0 1)) (onCore (core [2097121])) = true ∧
    ready (.mmaSpur ag0 word) (onCore core) = true := by
  try dsimp only
  repeat first | rw [ready_locked _ _ rfl] | rw [calm_locked _ rfl]
  all_goals decide +kernel
/-- R152, R112: the instruction stands in the queue and its bank is busy. -/
theorem test_mma_issue :
    let t := after (.mmaQ4a ag0 (word 0 3 0)) (onCore core record1)
    (t.tile 0).queue.length = 1 ∧ (t.core 0 0).busy = [3] ∧ (t.regs ag0).pc = 17 := by decide +kernel

theorem witness_ArrayStarts :
    (let s := queued [entry 32 false false []]
     let e := entry 32 false false []
     (s.tile 0).halted = none ∧ (s.tile 0).queue = e :: [] ∧ e.started = false ∧ s.panelsEcc (s.physOf 0) e .clean = .clean ∧
       s.panelsEcc (s.physOf 0) e (.uncorrectable 8) = .uncorrectable 8) := by decide +kernel
theorem witness_MatrixOutputs :
    (let s := queued [entry 0 false false []]
     calm s = true ∧ (s.tile 0).halted = none ∧ (s.tile 0).queue = [entry 0 false false []]) ∧
    (let s := queued [entry 0 false true []]
     calm s = true ∧ (s.tile 0).queue = [entry 0 false true []] ∧ (entry 0 false true []).taking = 0 ∧ (s.job? 5).isSome = true) ∧
    (let e := entry 32 true false [(0, 0x3F800000, true)]
     let s := queued [e]
     calm s = true ∧ (s.tile 0).queue = [e] ∧ e.started = true ∧ e.red = false ∧
       e.outs.Pairwise (fun a b => outSlot e.form e.bank (a.1 / 256) (a.1 % 256) ≠ outSlot e.form e.bank (b.1 / 256) (b.1 % 256)) ∧
       ∀ o ∈ e.outs, (outSlot e.form e.bank (o.1 / 256) (o.1 % 256)).2 < 256) := by
  try dsimp only
  repeat first | rw [ready_locked _ _ rfl] | rw [calm_locked _ rfl]
  all_goals decide +kernel
/-- R63: K = 0 leaves the accumulator as it was. -/
theorem test_k0 :
    let s : State := { onCore core with tiles := [(0, { cores := [(0, { core with acc := [(0, 9)] })], queue := [entry 0 false true []] })] }
    let t := after (.matrixOutputWritten 0) (after (.arrayInstructionStart 0 .clean) s)
    (t.core 0 0).racc 0 0 = 9 ∧ (t.core 0 0).crec = 0 ∧ (t.tile 0).queue = [] := by decide +kernel
/-- R92: the deep form puts output (0, 0) into element 0 of the bank. -/
theorem test_output :
    let t := after (.matrixOutputWritten 0) (queued [entry 32 true false [(0, 0x3F800000, true)]])
    (t.core 0 0).racc 0 0 = 0x3F800000 ∧ (t.tile 0).queue = [] := by decide +kernel

/-- A group's panel bytes of the worked example of 03: weights 15, 3, 12, 0, then 8 × 28; activations 13, 2, 9, 11, then 8 × 28. -/
def wGroup0 : List Nat := [15, 3, 12, 0] ++ List.replicate 28 8
def aGroup0 : List Nat := [13, 2, 9, 11] ++ List.replicate 28 8
/-- R53: the group integer of the worked example is 45, and T0 = 0x3E707800 (R56). -/
theorem test_worked_group :
    dotInt (wGroup0.map (codeInt .q4a 0x3C800008)) (aGroup0.map (codeInt .q4a 0x3EAB0008)) = 45 ∧
    (scaledTerm 45 0x3EAB0008 0x3C800008).1 = 0x3E707800 := by decide +kernel
/-- R56, R59, R62: T1, the spur term and the chain of the worked example. -/
theorem test_worked_chain :
    (scaledTerm 1261 0x3FAB0007 0x3F9D0008).1 = 0x4501249D ∧ (scaledTerm (-2232) 0x3E800080 0x3C000080).1 = 0xC08B8000 ∧
    chain none [(0x3E707800, true), (0x4501249D, true), (0xC08B8000, true)] = some 0x4500E29F := by decide +kernel

/-! ## Stream group -/

/-- A descriptor: source offset 64, destination offset 128, length 4, linear, with BUSY as given. -/
def dsc (len : Nat) (busy : Bool := false) : W256 :=
  setField (setField (setField (setField 0 152 40 64) 112 40 128) 80 32 len) 0 1 (if busy then 1 else 0)
/-- A core with descriptor 15. -/
def withDsc (d : W256) (ss : List W64 := []) : Core := { core ss with d := [(15, d)] }
/-- The transfer of descriptor 15. -/
def xfer : Xfer :=
  { tile := 0, core := 0, dsc := 15, job := 5, word := 16, stamp := false, src := 0, dst := 0, halted := none, cut := false }

theorem witness_DescriptorsAndStreams_fields :
    (let s := onCore (withDsc (dsc 4) [2047, 2048])
     ready (.dscWr ag0 (word 7 15 1)) s = true ∧ dscField 7 = some (37, 11) ∧ 2047 < 2 ^ 11 ∧ dBusy ((s.core 0 0).rd 15) = false ∧
       ready (.dscWr ag0 (word 7 15 2)) s = true ∧ 2 ^ 11 ≤ 2048 ∧ ready (.dscWr ag0 (word 12 15 1)) s = true ∧
       ready (.dscRd ag0 (word 13 3 15)) s = true ∧ dscField 13 = some (0, 1) ∧ ready (.dscRd ag0 (word 14 3 15)) s = true ∧
       ready (.dscClr ag0 (word 0 15)) s = true ∧ ready (.strmWait ag0 (word 0 0 15)) s = true) ∧
    (let s := onCore (withDsc (dsc 4 true))
     ready (.dscWr ag0 (word 7 15 1)) s = true ∧ dBusy ((s.core 0 0).rd 15) = true ∧ ready (.strmWait ag0 (word 0 0 15)) s = true) := by
  try dsimp only
  repeat first | rw [ready_locked _ _ rfl] | rw [calm_locked _ rfl]
  all_goals decide +kernel
/-- R157: a value wider than the field is refused and LAST is INVALID_OPERAND. -/
theorem test_dsc_wide :
    let t := after (.dscWr ag0 (word 7 15 1)) (onCore (withDsc 0 [2048]))
    (t.regs ag0).status.setWidth 16 = stInvalidOperand ∧ (t.core 0 0).rd 15 = 0 := by decide +kernel

/-- What a check answers, and what it refuses with. -/
def answer {α β : Type} : Except α β → Option β
  | .ok b => some b
  | .error _ => none
def refusal {α β : Type} : Except α β → Option α
  | .ok _ => none
  | .error a => some a

theorem witness_DescriptorsAndStreams :
    (let s := onCore (withDsc (dsc 4 true))
     ready (.strmGo ag0 (word 0 0 15)) s = true ∧ dBusy ((s.core 0 0).rd 15) = true) ∧
    (let s := onCore (withDsc (dsc 2097089))
     ready (.strmGo ag0 (word 0 0 15)) s = true ∧ refusal (streamCheck s (some 5) 0 (dsc 2097089)) = some stInvalidOperand) ∧
    (let s := onCore (withDsc (dsc 4))
     ready (.strmGo ag0 (word 0 0 15)) s = true ∧ answer (streamCheck s (some 5) 0 (dsc 4)) = some (0, 0) ∧ dLen (dsc 4) ≠ 0) ∧
    (let s := onCore (withDsc (dsc 0))
     ready (.strmGo ag0 (word 0 0 15)) s = true ∧ answer (streamCheck s (some 5) 0 (dsc 0)) = some (0, 0) ∧ dLen (dsc 0) = 0 ∧ dFlagEn (dsc 0) = false) ∧
    (let s := { onCore (withDsc (dsc 4 true)) with host := { jobs := [progJob], xfers := [xfer] } }
     s.host.xfers.find? (fun x => x.tile == 0 && x.core == 0 && x.dsc == 15) = some xfer ∧ (s.tile 0).halted = none ∧
       dLayout (dsc 4 true) ≠ 1 ∧ s.eccOf 0 (s.physOf 0) 64 4 .clean = .clean) := by
  try dsimp only
  repeat first | rw [ready_locked _ _ rfl] | rw [calm_locked _ rfl]
  all_goals decide +kernel
/-- R158: the bytes stand at the destination, and BUSY is clear. -/
theorem test_stream :
    let s := { onCore (withDsc (dsc 4 true)) [(64, 1), (65, 2), (66, 3), (67, 4), (68, 5)] with host := { jobs := [progJob], xfers := [xfer] } }
    let t := after (.streamTransferComplete 0 0 15 .good) s
    t.sramNat 0 128 5 = 0x04030201 ∧ dBusy ((t.core 0 0).rd 15) = false ∧ t.host.xfers = [] := by decide +kernel

/-! ## Record instructions -/

/-- A drive that holds an extent of one pSLC block under handle 6, bound to the job. -/
def onExtent (ss : List W64) : State :=
  let s := onCore (core ss)
  { s with media := { extents := [(6, ⟨1, false, 1, [0], [], [], [], false, none⟩)] } }

theorem witness_RecordsIssue :
    (let s := onCore (core [7, 32, 33])
     ready (.objInfo ag0 (word 0 0 1 2)) s = true ∧ hi32 (32 : W64) = 0 ∧ recOperand (lo32 32) = some (32, none) ∧
       recOperand (lo32 33) = none ∧ ready (.objNew ag0 (word 1 0 1 2)) s = true ∧ ready (.objDrop ag0 (word 0 0 1 2)) s = true ∧
       ready (.objPin ag0 (word 0 0 1 2)) s = true ∧ ready (.objUnpin ag0 (word 0 0 1 2)) s = true ∧
       ready (.objStage ag0 (word 0 0 1 2)) s = true ∧ ready (.stageWr ag0 (word 1 0 1 2)) s = true) ∧
    (let s := onCore (core [0x100000007, 32])
     ready (.objSeal ag0 (word 1 0 1 2)) s = true ∧ hi32 (0x100000007 : W64) = 1) ∧
    (let s := onCore (core [0, 0x2000000000]) [(0, 1)]
     ready (.grpNew ag0 (word 0 0 1 2)) s = true ∧ recOperand (hi32 0x2000000000) = some (32, none) ∧
       (membersAt s 0 0).isSome = true ∧ ready (.grpFree ag0 (word 0 0 1 2)) s = true ∧ ready (.grpInfo ag0 (word 0 0 1 2)) s = true ∧
       ready (.gbar ag0 (word 0 0 1 2)) s = true) ∧
    (let s := onCore (core [2097136, 0x2000010001])
     ready (.gtopk ag0 (word 0 0 1 2)) s = true ∧ (lo32 (0x2000010001 : W64)) &&& 0xE000E000 = 0 ∧ 2097136 + 16 * 1 ≤ 2097152) ∧
    (let s := onCore (core [2097148, 0x2000000001])
     ready (.gsum ag0 (word 0 0 1 2)) s = true ∧ 2097148 + 4 * 1 ≤ 2097152) ∧
    (let s := onCore (core [2097151, 0x2000000001])
     ready (.gbcast ag0 (word 0 0 1 2)) s = true ∧ 2097151 + 1 ≤ 2097152 ∧ 0 < (s.placeOf (some 5) 0).1) ∧
    (let s := onExtent [0x6000001FF, 0x20001F0000]
     ready (.fprog ag0 (word 0 0 1 2)) s = true ∧ (lo32 (0x20001F0000 : W64)).toNat % 1024 = 0 ∧ 0x1F0000 + 65536 ≤ 2097152 ∧
       s.extent? 6 = some ⟨1, false, 1, [0], [], [], [], false, none⟩ ∧ blockUnits false = 512 ∧ (0x6000001FF : W64).toNat % 2048 = 511) ∧
    (let s := onExtent [0x600000000, 0x2000000000]
     ready (.fread ag0 (word 0 0 1 2)) s = true ∧ ready (.ferase ag0 (word 0 0 1 2)) s = true ∧ ready (.fsync ag0 (word 0 0 1 2)) s = true ∧
       ready (.fstat ag0 (word 0 0 1 2)) s = true) ∧
    (let s := onExtent [0x600000200, 0x2000000400]
     ready (.fread ag0 (word 1 0 1 2)) s = true ∧ 512 ≤ (0x600000200 : W64).toNat % 2048) := by
  try dsimp only
  repeat first | rw [ready_locked _ _ rfl] | rw [calm_locked _ rfl]
  all_goals decide +kernel

/-- A request of core 0, with a record at 64. -/
def request (kind : RecKind) (outcome : Option (W16 × W64)) : RecOp :=
  ⟨3, 0, 0, 5, 16, false, 64, none, kind, false, [], false, outcome⟩

theorem witness_RecordsComplete :
    (let s := { onCore core with host := { jobs := [progJob], recs := [request (.objInfo 7) (some (stOk, 9))] } }
     (s.host.recs.filter (fun r => r.tile == 0 && r.core == 0))[0]? = some (request (.objInfo 7) (some (stOk, 9))) ∧
       s.host.recs.Pairwise (fun a b => a.id ≠ b.id) ∧ calm s = true) ∧
    (let op := request (.objInfo 7) none
     let s := { onCore core with host := { jobs := [progJob], recs := [op] } }
     op.kind.call = none ∧ s.named? (some op.job) 7 = none ∧ ∃ x, s.soloWork op = some x ∧ x.2.2.host.recs = s.host.recs) ∧
    (let op := request (.objInfo 7) none
     let s := { onCore core with host := { jobs := [{ progJob with bound := [7] }], recs := [op] },
                                 obj := { dir := [(7, { typ := 9, owner := 1, size := 64, state := 0 })] } }
     (s.named? (some op.job) 7).map Prod.fst = some 7) := by
  refine ⟨by
    (try dsimp only); (repeat first | rw [ready_locked _ _ rfl] | rw [calm_locked _ rfl]); all_goals decide +kernel, ⟨by
    (try dsimp only); (repeat first | rw [ready_locked _ _ rfl] | rw [calm_locked _ rfl]); all_goals decide +kernel, by
    (try dsimp only); (repeat first | rw [ready_locked _ _ rfl] | rw [calm_locked _ rfl]); all_goals decide +kernel, ⟨_, rfl, by
    (try dsimp only); (repeat first | rw [ready_locked _ _ rfl] | rw [calm_locked _ rfl]); all_goals decide +kernel⟩⟩, by
    (try dsimp only); (repeat first | rw [ready_locked _ _ rfl] | rw [calm_locked _ rfl]); all_goals decide +kernel⟩
/-- R139, R140: the record's first byte is DONE, its bytes 3:2 the outcome, and VALUE stands at 8. -/
theorem test_record :
    let s := { onCore core with host := { jobs := [progJob], recs := [request (.objInfo 7) (some (stTierFull, 9))] } }
    let t := after (.recordInstructionComplete 0 0 0 0) s
    t.sramNat 0 64 2 = 1 ∧ t.sramNat 0 66 2 = 0x0204 ∧ t.sramNat 0 72 8 = 9 ∧ (t.regs ag0).status = 0x0000000102040000 ∧
    t.host.recs = [] := by decide +kernel

/-! ## Time and step groups -/

theorem witness_TimeAndStep :
    ready (.timeRd ag0 (word 0 3)) (onCore core) = true ∧
    (let s := onCore (core [0xFFFFFFF, 0x10000000])
     ready (.timeCairn ag0 (word 0xBF 0 1)) s = true ∧ (0xFFFFFFF : W64).toNat < 2 ^ 28 ∧
       ready (.timeCairn ag0 (word 0xC0 0 1)) s = true ∧ ready (.timeCairn ag0 (word 0x80 0 2)) s = true ∧ 2 ^ 28 ≤ (0x10000000 : W64).toNat) ∧
    ready (.stepEnd ag0 word) (onCore core) = true ∧ ready (.stepInfo ag0 (word 0 3)) (onCore core) = true ∧
    ready (.stepInfo ag0 (word 1 3)) (onCore core) = true ∧ ready (.stepInfo ag0 (word 2 3)) (onCore core) = true ∧
    ready (.stepInfo ag0 (word 3 3)) (onCore core) = true ∧
    (let s := onCtx { r := runRegs [1024, 64] } {}
     ready (.stageWr cx0 (word 0x20 0 1 2)) s = true ∧ recOperand (lo32 64) = some (64, none) ∧
       (match (fetched cx0 (word 0x20 0 1 2) s).stageChange 0x20 ((fetched cx0 (word 0x20 0 1 2) s).stageKey (some 5) 0x20) 1024 [] with
        | .ok _ => true
        | .error _ => false) = true) ∧
    ready (.stageRd ag0 (word 0x10001 3)) (onCore core) = true ∧ settingExists (0x10001 % 65536) = true ∧
    ready (.stageRd ag0 (word 0x104 3)) (onCore core) = true ∧ settingExists 0x104 = false := by
  try dsimp only
  repeat first | rw [ready_locked _ _ rfl] | rw [calm_locked _ rfl]
  all_goals decide +kernel
/-- R173, R201: STEP.INFO 1 gives the live period, 250,000 ns at its default. -/
theorem test_stepInfo : ((after (.stepInfo ag0 (word 1 3)) (onCore core)).regs ag0).rs 3 = 250000 := by decide +kernel

/-! ## Traverse group -/

/-- A CODEBOOK's content: DIM 32, M 8, MAXDEG 1, one shard on cluster 0, one entry layer in object 9, base records in object 8. -/
def codebook : Mem :=
  [(19, 1), (20, 1), (21, 1), (22, 32), (24, 8), (26, 1), (30, 1), (34, 1), (36, 100), (40, 200), (45, 2), (100, 9), (104, 1), (200, 8), (204, 1)]
/-- An index with its objects. -/
def withIndex (s : State) : State :=
  { s with
    obj := { dir := [(7, { typ := 3, owner := 1, size := 4096, state := 1, data := codebook }), (8, { typ := 4, owner := 1, size := 2048, state := 1 }),
                     (9, { typ := 5, owner := 1, size := 2048, state := 1, d := some ⟨true, 0, [], []⟩ })] },
    idx := { all := [(7, { tombObj := 10, moraineObj := 11, counter := 1 })] } }
/-- SEARCH parameters on the index. -/
def params : SearchP :=
  { index := 7, encoder := 0, adapter := 0, head := 0, reader := 0, k := 2, pool := 4, beam := 4, width := 1, rounds := false, penalty := 0,
    depth := 0, spantok := false, maxspan := 16, minscore := 0, labelMask := 0, query := [], tokens := [] }
/-- A search job. -/
def searchJob (p : SearchP := params) : Job := { jobOf (.search p) .admitted with bound := [7, 8, 9], vec := List.replicate 32 0 }
/-- A context of a walk. -/
def walking (c : Ctx) (w : Walk) : State := withIndex (onCtx c w [searchJob])
/-- A running context: s1, s2, … as given. -/
def ctx (ss : List W64 := []) : Ctx := { r := runRegs ss }

theorem witness_TraverseFetches :
    (let s := walking (ctx [0, 0x10000000000, 1984, 2048]) {}
     onJob 0 0 s 5 {} ∧ s.jobDesc 5 = some (readDescriptor { typ := 3, owner := 1, size := 4096, state := 1, data := codebook })) ∧
    (let s := walking (ctx [0, 0x10000000000, 1984, 2048]) {}
     let d := readDescriptor { typ := 3, owner := 1, size := 4096, state := 1, data := codebook }
     ready (.trvNode cx0 (word 0 3 1) .clean) s = true ∧ d.slotOf 0 = some ⟨8, 1, 0⟩ ∧ ready (.trvNode cx0 (word 0 3 2) .clean) s = true ∧
       2 ^ 40 ≤ (0x10000000000 : W64).toNat ∧ ready (.trvDrd cx0 (word 1 3 3)) s = true ∧ d.layer 0 1 = some (9, 1) ∧
       1984 % 64 = 0 ∧ 1984 + 64 ≤ 2048 * 1 ∧ ready (.trvDrd cx0 (word 1 3 4)) s = true ∧ 2048 * 1 < 2048 + 64 ∧
       ready (.trvTomb cx0 (word 0 3 1)) s = true ∧ ((s.jobIndex 5).bind s.index?).isSome = true) := by
  refine ⟨⟨⟨by
    (try dsimp only); (repeat first | rw [ready_locked _ _ rfl] | rw [calm_locked _ rfl]); all_goals decide +kernel, by
    (try dsimp only); (repeat first | rw [ready_locked _ _ rfl] | rw [calm_locked _ rfl]); all_goals decide +kernel⟩, rfl⟩, by
    (try dsimp only); (repeat first | rw [ready_locked _ _ rfl] | rw [calm_locked _ rfl]); all_goals decide +kernel⟩

theorem witness_TraverseWalks :
    (let s := walking (ctx [0, 7]) {}
     ready (.trvLaunch cx0 (word 20 3 1)) s = true ∧ (s.ctx 0 511).r.run = .idle ∧ s.ctxsHeld 0 < 512 ∧ ready (.trvScore cx0 (word 0 3)) s = true ∧
       (s.ctx 0 0).layer = 0 ∧ ready (.trvVisit cx0 (word 0 3 1)) s = true ∧ ready (.trvPush cx0 (word 0 3)) s = true ∧
       ready (.trvBound cx0 (word 0 3 1)) s = true ∧ ready (.trvEmit cx0 (word 0 0 1 2)) s = true ∧ (s.ctx 0 0).slot.rdNat 8 5 = 0 ∧
       ready (.trvEmit cx0 (word 0 0 2 2)) s = true) ∧
    (let w : Walk := { visited := [3], vcap := 1 }
     let s := walking (ctx [0, 7]) w
     onJob 0 0 s 5 w ∧ ready (.trvVisit cx0 (word 0 3 1)) s = true ∧ (0 : Nat) ∉ w.visited ∧ w.vcap ≤ w.visited.length) ∧
    (let w : Walk := { queue := [⟨0, 9, false⟩], le := 1, qcap := 64 }
     let v : Walk := { queue := [⟨0, 9, false⟩, ⟨1, 9, true⟩], le := 4 }
     ready (.trvPop cx0 (word 0 3)) (walking ctx v) = true ∧ v.ended = false ∧ v.best = some ⟨0, 9, false⟩ ∧ w.best = none) ∧
    (let w : Walk := { ended := true }
     ready (.trvPop cx0 (word 0 3)) (walking ctx w) = true ∧ w.ended = true) := by
  refine ⟨by
    (try dsimp only); (repeat first | rw [ready_locked _ _ rfl] | rw [calm_locked _ rfl]); all_goals decide +kernel, ⟨⟨by
    (try dsimp only); (repeat first | rw [ready_locked _ _ rfl] | rw [calm_locked _ rfl]); all_goals decide +kernel, by
    (try dsimp only); (repeat first | rw [ready_locked _ _ rfl] | rw [calm_locked _ rfl]); all_goals decide +kernel⟩, by
    (try dsimp only); (repeat first | rw [ready_locked _ _ rfl] | rw [calm_locked _ rfl]); all_goals decide +kernel⟩, by
    (try dsimp only); (repeat first | rw [ready_locked _ _ rfl] | rw [calm_locked _ rfl]); all_goals decide +kernel, by
    (try dsimp only); (repeat first | rw [ready_locked _ _ rfl] | rw [calm_locked _ rfl]); all_goals decide +kernel⟩

/-- Every context of an engine is busy. -/
def busyCtxs : SMap Ctx := (List.range 512).map (fun k => (k, ctx))
/-- An engine without a free context. -/
def fullEngine : State :=
  withIndex { onCtx ctx {} [searchJob] with
    engines := [(0, { text := List.replicate 32 0, ctxs := busyCtxs, walks := [(5, {})] })] }
theorem witness_TraverseWalks_full : ready (.trvLaunch cx0 (word 20 3 1)) fullEngine = true ∧
    ∀ x, x < 512 → (fullEngine.ctx 0 x).r.run ≠ .idle := by
  refine ⟨by
    (try dsimp only); (repeat first | rw [ready_locked _ _ rfl] | rw [calm_locked _ rfl]); all_goals decide +kernel, fun x hx => ?_⟩
  have h := find_same ctx (List.range 512) x (List.mem_range.mpr hx)
  have e : (fullEngine.engine 0).ctxs = busyCtxs := by simp [fullEngine, withIndex, State.engine, getD, find]
  rw [State.ctx, e, getD, busyCtxs, h]
  decide

/-- R258: TRV.POP takes the entry with the least distance that is not expanded. -/
theorem test_pop :
    let t := after (.trvPop cx0 (word 0 3)) (walking ctx { queue := [⟨2, 5, true⟩, ⟨1, 6, false⟩], le := 4 })
    (t.regs cx0).rp 3 = 0xFFFFFFFFFFFFFFFF ∧ (t.regs cx0).rs 3 = 0x1000600 := by decide +kernel

theorem witness_EngineEvents :
    (let c : Ctx := { r := { runRegs with run := .waiting .data false }, fetch := some (0, 9, 0, 64), dest := some (3, false, 0) }
     let s := walking c {}
     (s.ctx 0 0).r.run = .waiting .data false ∧ (s.ctx 0 0).halted = false ∧ (s.ctx 0 0).fetch = some (0, 9, 0, 64) ∧
       (s.ctx 0 0).dest = some (3, false, 0) ∧ (s.obj? 9).bind (fun o => s.objBytes o 256 0 64) = some (List.replicate 64 0)) ∧
    (let s := { walking ctx {} with host := { jobs := [searchJob], forwards := [⟨1, 1, 0, 5, ⟨0, 9, false⟩⟩] } }
     s.host.forwards.find? (fun f => f.src == 1 && f.dst == 0 && f.job == 5) = some ⟨1, 1, 0, 5, ⟨0, 9, false⟩⟩ ∧
       s.walk? 0 5 = some {}) := by decide +kernel

/-! ## The block as a drive: dies -/

/-- A drive at S8 whose PF has I/O queue pair 1, of client 1. -/
def serving : State :=
  { boot := { phase := .ready }, time := lockedTime, sec := { mbk := true },
    host := { ctrls := [(0, { en := true, rdy := true, sqs := [(1, { client := 1, cqid := 1, size := 63 })],
                              cqs := [(1, { size := 63, vector := 0, interrupts := true })] })] } }
/-- A die of a serving drive. -/
def onDie (d : Nat) (x : Die) : State := { serving with media := { dies := [(d, x)] } }
/-- A read that reaches a die at 5 ns. -/
def dread : DieRead := { block := 0, unit := 0, qlc := false, at_ := 5, serves := .drive }
/-- A program, and an erase, on a die. -/
def dprog (op : Nat) : DieWrite := { pos := 0, erase := false, qlc := false, serves := .fprog op }
def derase : DieWrite := { pos := 4095, erase := true, qlc := true, serves := .background }
/-- A QLC extent of one block, whose first word line the buffer holds. -/
def qlcExtent : Extent := { owner := 1, qlc := true, blocks := 1, slots := [0], held := [0, 1, 2, 3] }

theorem witness_FlashDies_reads :
    (let x := (onDie 511 {}).die 511
     x.failed = false ∧ x.reading = none ∧ x.reads = [] ∧ x.writing = none) ∧
    (let x := (onDie 511 { writing := some derase }).die 511
     x.failed = false ∧ x.reading = none ∧ x.reads = [] ∧ x.writing = some derase ∧ x.suspended = false ∧ x.suspendAt = none) ∧
    (let x := (onDie 0 { writing := some derase, suspendAt := some 800000 }).die 0
     x.writing = some derase ∧ x.suspendAt = some 800000 ∧ 800000 < 2 ^ 64) ∧
    (let x := (onDie 0 { writing := some derase, suspended := true, served := 8 }).die 0
     x.suspended = true ∧ x.reading = none ∧ (x.reads = [] ∨ x.served = 8)) ∧
    (let x := (onDie 0 { reading := some dread }).die 0
     x.reading = some dread ∧ x.reads = []) := by decide +kernel
theorem witness_FlashDies_writes :
    (let op := request (.fprog 6 0 0 0) none
     let s := { onDie 0 { writing := some (dprog 3) } with host := { recs := [op] } }
     (s.die 0).writing = some (dprog 3) ∧ (dprog 3).erase = false ∧ (s.die 0).suspended = false ∧ (dprog 3).serves = .fprog 3 ∧
       s.host.recs.find? (fun r => r.id == 3) = some op ∧ op.outcome = none) ∧
    (let s := onDie 0 { writing := some derase }
     (s.die 0).writing = some derase ∧ derase.erase = true ∧ (s.die 0).suspended = false ∧ derase.serves = .background ∧ (s.die 0).taken derase.pos = false ∧ s.host.recs = [] ∧ s.host.issued = [] ∧ s.ftl.closing = []) ∧
    ((onDie 511 {}).die 511).failed = false ∧
    (let s : State := { serving with media := { extents := [(6, qlcExtent)] } }
     s.extent? 6 = some qlcExtent ∧ (s.extentAt qlcExtent 0).1 = 0 ∧ (s.die 0).failed = false ∧ (∀ i, i < 4 → 2048 * 0 + 4 * 0 + i ∈ qlcExtent.held) ∧ s.movesBlock 0 (s.extentAt qlcExtent 0).2 = false ∧
       (s.die 0).pendingAt (s.extentAt qlcExtent 0).2 (fun w => w.serves == .line 6 0 0) = false) ∧
    (let s : State := { serving with media := { extents := [(6, qlcExtent)], dies := [(0, { blocks := [(0, { check := true, cut := 2 })] })] } }
     s.extent? 6 = some qlcExtent ∧ s.extentAt qlcExtent 0 = (0, 0) ∧ (s.die 0).failed = false ∧ s.host.recs = [] ∧ s.host.issued = [] ∧ ((s.die 0).blk 0).check = true ∧
       (s.die 0).reading = none ∧ (s.die 0).reads = [] ∧ (s.die 0).writing = none) := by
  decide +kernel
/-- R331: an erase is suspended at 800,000 ns at the soonest, and its run time gains 10,000 ns at the resume. -/
theorem test_suspend :
    ((after (.dieReadArrival 0 dread) (onDie 0 { writing := some derase, wLeft := 5000000 })).die 0).suspendAt = some 800000 ∧
    ((after (.dieResume 0) (onDie 0 { writing := some derase, suspended := true, wLeft := 7 })).die 0).wLeft = 10007 := by decide +kernel

/-! ## Jobs -/

/-- A host buffer that holds little-endian numbers at their offsets. -/
def buffer (n : Nat) (fields : List (Nat × Nat × Nat)) : List Byte :=
  (fields.foldl (fun (m : Mem) f => m.wrNat f.1 f.2.1 f.2.2) []).rdBytes 0 n
/-- A command of queue 1 on a namespace. -/
def ioCmd (nsid cdw10 cdw11 cdw12 : W32) (data : List Byte := []) : HostCmd :=
  ⟨0, 1, 9, 0, 0, nsid, 0, cdw10, cdw11, cdw12, 0, 0, 0, data⟩
/-- An admin command. -/
def admin (cdw10 cdw11 cdw12 : W32) (data : List Byte := []) (nsid : W32 := 0) : HostCmd :=
  ⟨0, 0, 9, 0, 0, nsid, 0, cdw10, cdw11, cdw12, 0, 0, 0, data⟩

/-- A drive with an index, a reader, a program and a namespace of one block. -/
def stocked : State :=
  let s := withIndex serving
  let reader : Obj := { typ := 8, owner := 1, size := 64, state := 1,
                        data := [(0, 0x55), (1, 0x5A), (2, 0x52), (3, 0x4F), (4, 2), (6, 32), (8, 1), (12, 32), (14, 1), (15, 1)] }
  { s with obj := { s.obj with dir := s.obj.dir ++ [(12, reader), (13, { typ := 8, owner := 1, size := 128, state := 1 })] },
           ftl := { spaces := [(1, ⟨0, false, 1⟩)] } }
/-- SEARCH with K and POOL 4,096; FILTER and EMBED of one record or item; READ_ANSWER of one passage; RUN on four cores. -/
def queries : List HostCmd :=
  [ioCmd 2 256 256 131200 (buffer 256 [(0, 4, 7), (20, 2, 4096), (22, 2, 4096), (72, 4, 128)]),
   ioCmd 2 160 192 224 (buffer 160 [(0, 4, 1), (16, 6, 1), (24, 4, 1), (32, 4, 1), (36, 4, 64), (40, 4, 144), (64, 4, 0x4C525A55), (68, 1, 1), (70, 1, 1),
     (71, 3, 0xFFFFFF), (80, 4, 8), (132, 4, 4), (136, 1, 3), (137, 1, 0xFF)]),
   ioCmd 2 224 256 144 (buffer 224 [(0, 4, 7), (15, 1, 1), (16, 4, 1), (48, 4, 64), (64, 8, 77), (90, 1, 1)]),
   ioCmd 2 96 128 144 (buffer 96 [(0, 4, 12), (6, 2, 1), (12, 2, 1), (14, 2, 1), (16, 4, 64), (20, 4, 80)]),
   ioCmd 2 64 64 128 (buffer 64 [(0, 4, 13), (6, 1, 15)])]
/-- A range of that namespace with one field and no term. -/
def oneField : RangeP := ⟨1, 0, 1, ⟨0, 0xFF, 0xFF, 0xFF, 8, [⟨0, 4, 3, 0xFF⟩]⟩, []⟩

theorem witness_QueriesBecomeJobs :
    calm stocked = true ∧
    (queryRows.zip queries).all (fun x => ioTaken x.2 stocked && x.2.nsid == stocked.host.nsCompute && (answer (x.1.parse x.2 (ioState x.2 stocked))).isSome) = true ∧
    queryRows.all (fun r => ioTaken (ioCmd 2 0 0 0) stocked && (refusal (r.parse (ioCmd 2 0 0 0) (ioState (ioCmd 2 0 0 0) stocked))).isSome) = true ∧
    ioTaken (ioCmd 5 0 0 0) stocked = true ∧ ¬ ((ioCmd 5 0 0 0).nsid = stocked.host.nsCompute ∨ stocked.host.nsChain = some (ioCmd 5 0 0 0).nsid) := by
  try dsimp only
  repeat first | rw [ready_locked _ _ rfl] | rw [calm_locked _ rfl]
  all_goals decide +kernel
theorem witness_QueriesBecomeJobs_chain :
    let s : State := { stocked with host := { stocked.host with nsChain := some 4 } }
    let c := { (queries[0]?).getD (ioCmd 0 0 0 0) with nsid := 4 }
    ioTaken c s = true ∧ s.host.nsChain = some c.nsid ∧ (answer (s.parseSearch c)).isSome = true := by decide +kernel
/-- R287, R293: the layout, the range and the mask of a FILTER. -/
theorem test_parseFilter : answer (stocked.parseFilter ((queries[1]?).getD (ioCmd 0 0 0 0))) = some (.filter oneField 1 false 1) := by decide +kernel
/-- R299: an item of form 1 with its key and its vector of DIM words. -/
theorem test_parseEmbed : answer (stocked.parseEmbed ((queries[2]?).getD (ioCmd 0 0 0 0))) =
    some (.embed 7 0 0 0 [⟨77, 0, 0, 1, [], List.replicate 32 0⟩] none false 1) := by decide +kernel

/-- The descriptor of the index. -/
def desc : IndexD := readDescriptor { typ := 3, owner := 1, size := 4096, state := 1, data := codebook }
/-- A search on the index. -/
def searching (j : Job) : State := { walking ctx {} with host := { jobs := [j] } }
/-- A candidate. -/
def cand (key : W64) (d : Nat) : Cand := ⟨key, 0, d, 0, 0, 0, 0, [], []⟩

theorem witness_Searches_calm : calm (searching searchJob) = true := by
  try dsimp only
  repeat first | rw [ready_locked _ _ rfl] | rw [calm_locked _ rfl]
  all_goals decide +kernel
theorem witness_Searches_1 :
    let p := { params with encoder := 12 }
    let j := searchJob p
    (searching j).searchOf 5 = some (j, p, desc) ∧ p.encoder ≠ 0 ∧ 0x22 ∉ j.stamped ∧ (List.replicate 32 (1 : W32)).length = desc.dim := ⟨rfl, by decide +kernel⟩
theorem witness_Searches_2 :
    let j := searchJob
    (searching j).searchOf 5 = some (j, params, desc) ∧ j.vec ≠ [] ∧ 0x23 ∉ j.stamped ∧ params.walks = true ∧ desc.clusters.Nodup := ⟨rfl, by decide +kernel⟩
theorem witness_Searches_3 :
    let p := { params with beam := 0 }
    let j := searchJob p
    (searching j).searchOf 5 = some (j, p, desc) ∧ j.vec ≠ [] ∧ 0x23 ∉ j.stamped ∧ p.walks = false := ⟨rfl, by decide +kernel⟩
theorem witness_Searches_4 :
    let j := { searchJob with stamped := [0x23] }
    let s := { searching j with engines := [(0, { walks := [(5, { ended := true })] })] }
    s.searchOf 5 = some (j, params, desc) ∧ 0x23 ∈ j.stamped ∧ j.walked = none ∧ params.walks = true ∧ s.quiet 5 desc.clusters = true := ⟨rfl, by decide +kernel⟩
theorem witness_Searches_5 :
    let j := { searchJob with stamped := [0x23] }
    (searching j).searchOf 5 = some (j, params, desc) ∧ ((((searching j).jobIndex 5).bind (searching j).index?)).isSome = true ∧ 0x23 ∈ j.stamped ∧
      j.moraine = none := ⟨rfl, by decide +kernel⟩
theorem witness_Searches_6 :
    let j := { searchJob with walked := some [cand 1 9], moraine := some [cand 1 4, cand 2 5] }
    (searching j).searchOf 5 = some (j, params, desc) ∧ j.ranked = none ∧ j.pool = none ∧ j.walked = some [cand 1 9] ∧
      j.moraine = some [cand 1 4, cand 2 5] := ⟨rfl, by decide +kernel⟩
theorem witness_Searches_7 :
    let j := { searchJob with pool := some [cand 1 9] }
    (searching j).searchOf 5 = some (j, params, desc) ∧ j.pool = some [cand 1 9] ∧ j.ranked = none ∧ j.shareOf = none ∧ j.onChain = false ∧
      (searching j).jobObj j params.head = none := ⟨rfl, by decide +kernel⟩
/-- A query that member 7 sends, and its withdrawal. -/
def sent (cancel : Bool) : FanOutQuery := ⟨7, 77, cancel, 1, 7, 32, 0, 2, 4, 4, 1, false, 0, 0, 0, 0, List.replicate 32 0⟩
theorem witness_Searches_chain :
    (let j := { searchJob with fanned := 0x80 }
     (searching j).searchOf 5 = some (j, params, desc) ∧ 7 ∈ j.unanswered) ∧
    (let q := sent false
     q.cancel = false ∧ answer ((searching searchJob).indexAt q.index) = some desc ∧ desc.dim = q.dim ∧ desc.metric = q.metric.toNat ∧
       q.vec.length = q.dim ∧ (desc.dim ≠ ({ q with dim := 64 } : FanOutQuery).dim)) ∧
    (let j := { searchJob with shareOf := some (7, 77) }
     (sent true).cancel = true ∧ (searching j).host.jobs.all (fun j => !(j.shareOf == some ((sent true).sender.val, (sent true).query.toNat) &&
       j.phase == .waiting)) = true) :=
  ⟨⟨rfl, by decide +kernel⟩, ⟨rfl, rfl, by decide +kernel⟩, by decide +kernel⟩

/-- A FILTER job on the namespace of one block. -/
def filtering : State :=
  { stocked with host := { stocked.host with jobs := [jobOf (.filter oneField 1 false 1) .admitted] } }
/-- A read of two passages, the first usable. -/
def reading (stamped : List Byte) : Job :=
  { jobOf (.readAnswer 12 false [1, 2] [3] 16 0 false) .admitted with stamped := stamped, passages := some [(8, 0), (0, 2)] }
/-- A delete of one item. -/
def embedding : Job := { jobOf (.embed 7 0 0 1 [⟨77, 0, 0, 0, [], []⟩] none false 0) .admitted with bound := [7] }

theorem witness_JobWorkEnds :
    (let j := jobOf (.filter oneField 1 false 1) .admitted
     filtering.job? 5 = some j ∧ j.kind = .filter oneField 1 false 1 ∧ j.phase = .admitted ∧ j.stop = none ∧ calm filtering = true ∧
       filtering.rangeWaits oneField = false ∧ filtering.unreadBlocks oneField [] (filtering.rangeBytes oneField []).length = 0) ∧
    (let j := reading []
     (searching j).job? 5 = some j ∧ j.kind = .readAnswer 12 false [1, 2] [3] 16 0 false ∧ j.phase = .admitted ∧ j.stop = none ∧
       calm (searching j) = true ∧ 0x29 ∉ j.stamped ∧ j.passages.isSome = true) ∧
    (let j := reading [0x29]
     let s : State := { stocked with host := { stocked.host with jobs := [{ j with bound := [12] }] } }
     let n := (s.readerRole { j with bound := [12] } 12).dim
     s.job? 5 = some { j with bound := [12] } ∧ j.phase = .admitted ∧ j.stop = none ∧ calm s = true ∧ 0x29 ∈ j.stamped ∧ 0x2A ∉ j.stamped ∧
       [(List.replicate n (0 : W32), List.replicate n (0 : W32))].length = ((j.passages.getD []).filter (fun p => p.2 == 0)).length ∧
       ∀ q ∈ [(List.replicate n (0 : W32), List.replicate n (0 : W32))], q.1.length = n ∧ q.2.length = n) ∧
    ((searching embedding).job? 5 = some embedding ∧ (searching embedding).jobDesc 5 = some desc ∧
      embedding.kind = .embed 7 0 0 1 [⟨77, 0, 0, 0, [], []⟩] none false 0 ∧ embedding.phase = .admitted ∧ calm (searching embedding) = true) :=
  ⟨by
    (try dsimp only); (repeat first | rw [ready_locked _ _ rfl] | rw [calm_locked _ rfl]); all_goals decide +kernel, by
    (try dsimp only); (repeat first | rw [ready_locked _ _ rfl] | rw [calm_locked _ rfl]); all_goals decide +kernel, by
    (try dsimp only); (repeat first | rw [ready_locked _ _ rfl] | rw [calm_locked _ rfl]); all_goals decide +kernel, by
    (try dsimp only); (repeat first | rw [ready_locked _ _ rfl] | rw [calm_locked _ rfl]); all_goals decide +kernel, rfl, by
    (try dsimp only); (repeat first | rw [ready_locked _ _ rfl] | rw [calm_locked _ rfl]); all_goals decide +kernel⟩

/-- A serving drive with one job. -/
def withJob (j : Job) : State := { serving with host := { serving.host with jobs := [j] } }
theorem witness_JobsComplete :
    (let j := jobOf (.filter oneField 1 false 1) .writing
     let s := withJob j
     s.job? 5 = some j ∧ (s.ctrl j.ctrl).d3 = false ∧ j.silent = false ∧ j.submitted = true ∧ s.pwr.exiting = false ∧ calm s = true ∧ j.phase = .writing) ∧
    (let j := jobOf (.filter oneField 1 false 1) .written
     let s := withJob j
     s.job? 5 = some j ∧ (s.ctrl j.ctrl).d3 = false ∧ j.silent = false ∧ j.phase = .written ∧ j.caught = false ∧ j.status = 0) ∧
    (let j := { jobOf (.filter oneField 1 false 1) .stopped with caught := true }
     let s := withJob j
     s.job? 5 = some j ∧ (s.ctrl j.ctrl).d3 = false ∧ j.silent = false ∧ j.phase = .stopped ∧ j.caught = true) := by
  try dsimp only
  repeat first | rw [ready_locked _ _ rfl] | rw [calm_locked _ rfl]
  all_goals decide +kernel

/-- What the clauses of Aborts ask of a job in phase `p`, for the tag that a command names, on a drive with that job alone. -/
def abortsOf (c : HostCmd) (u : State) (p : JobPhase) : Bool :=
  match u.host.jobs.find? (fun j => (j.ctrl, j.sqid, j.cid) == (c.ctrl, (c.cdw10.setWidth 16 : W16), (c.cdw10.extractLsb' 16 16 : W16)) && j.submitted) with
  | some j => u.job? j.num == some j && j.phase == p && !j.silent && !j.homeless && !u.pwr.exiting
  | none => false

theorem witness_Aborts :
    (∀ p ∈ [JobPhase.waiting, .admitted, .writing, .written],
      let c := ioCmd 2 0x00090001 0 0
      let s := withJob (jobOf (.filter oneField 1 false 1) p)
      ioTaken c s = true ∧ calm s = true ∧ c.cdw11 = 0 ∧ c.cdw12 = 0 ∧ abortsOf c (ioState c s) p = true) ∧
    (∀ p ∈ [JobPhase.waiting, .admitted, .writing, .written],
      let c := admin 0x00090001 0 0
      let s := withJob (jobOf (.filter oneField 1 false 1) p)
      adminTaken c s = true ∧ calm s = true ∧ abortsOf c s.leaveLow p = true) ∧
    (let c := ioCmd 2 0x00090001 0 0
     ioTaken c serving = true ∧ calm serving = true ∧ (ioState c serving).host.jobs = [] ∧ (ioState c serving).host.tags = []) ∧
    (let c := ioCmd 2 0x00080001 0 0
     let s : State := { serving with host := { serving.host with tags := [((0, 1, 8), 5)] } }
     ioTaken c s = true ∧ (ioState c s).host.tags.find? (fun t => t.1 == (c.ctrl, (c.cdw10.setWidth 16 : W16), (c.cdw10.extractLsb' 16 16 : W16))) =
       some ((0, 1, 8), 5)) ∧
    (let c := ioCmd 2 0x00090001 1 0
     ioTaken c serving = true ∧ (c.cdw11 ≠ 0 ∨ c.cdw15 ≠ 0)) ∧
    (let c := admin 0x00090001 0 0
     adminTaken c serving = true ∧ serving.leaveLow.host.jobs = [] ∧ serving.leaveLow.host.tags = []) := by
  refine ⟨?_, ?_, ?_⟩
  · intro p hp
    simp only [List.mem_cons, List.not_mem_nil, or_false] at hp
    rcases hp with rfl | rfl | rfl | rfl <;> exact ⟨by decide +kernel, calm_locked _ rfl, rfl, rfl, by decide +kernel⟩
  · intro p hp
    simp only [List.mem_cons, List.not_mem_nil, or_false] at hp
    rcases hp with rfl | rfl | rfl | rfl <;> exact ⟨by decide +kernel, calm_locked _ rfl, by decide +kernel⟩
  · dsimp only
    repeat first | rw [ready_locked _ _ rfl] | rw [calm_locked _ rfl]
    all_goals decide +kernel

/-! ## Time, settings and steps -/

theorem witness_TimePasses :
    (let s : State := { serving with sec := { slotWrite := some ⟨⟨3, 0, true, 1, 0x1234, 1, 4096⟩, [], 1024, none, none⟩ } }
     s.clockRuns = true ∧ s.saddleDue = false ∧ s.boot.phase ≠ .faulted ∧ s.mute = false ∧ (1024 : W64).toNat ≤ (s.time.now + 1024).toNat) ∧
    ({ serving with set := { nextSaddle := some 1023 } } : State).saddleDue = true ∧
    ({ serving with time := { lockedTime with now := 60000000000, minuteAt := 60000000000 } } : State).time.minuteAt = 60000000000 ∧
    ({ serving with time := { lockedTime with now := 60000000000, minuteAt := 60000000000 } } : State).aged lockedTime.epoch.toNat = [] ∧
    serving.time.now.toNat < serving.time.minuteAt.toNat ∧
    crossesCol 0x110 0x120 = false ∧ crossesCol 0x17 0x110 = true ∧
    (let s : State := { serving with time := { lockedTime with cols := [(512 * 0x17 + 0x110, [(5, 0, 300)])] } }
     (getD [] s.time.cols (512 * 0x17 + 0x110)).getLast? = some (5, 0, 300)) := by decide +kernel
/-- R14, R178: what crosses no col is there at once; two transfers keep their order. -/
theorem test_col :
    (getD [] (after (.colTransfer 0x110 0x120 6) (after (.colTransfer 0x110 0x120 5) serving)).time.cols (512 * 0x110 + 0x120)) =
      [(5, 0, 0), (6, 0, 0)] := by decide +kernel
/-- R180: an island 5 half-nanoseconds ahead moves back by one. -/
theorem test_steer : (({ skew := 5 } : Island).steer 0).skew = 4 ∧ (({ skew := -5 } : Island).steer 0).skew = -4 := by decide

theorem witness_SaddleCommits :
    (let s : State := { serving with set := { overrun := true, pend := [(1, 20000), (2, 10000000)], nextSaddle := some 250000 } }
     s.boot.phase = .ready ∧ s.set.held = false ∧ s.set.overrun = true ∧ s.chain.flit = none ∧ s.chain.joining = none ∧ s.chain.ending = none ∧
       s.chainSync = false ∧ s.set.pend.Pairwise (fun a b => a.1 ≠ b.1) ∧ find 1 s.set.pend = some 20000 ∧ find 3 s.set.pend = none ∧
       s.set.nextSaddle.isSome = true ∧ calm s = true) ∧
    (serving.chainSync = false ∧ serving.nextOf 3 = 0 ∧
      scalarRange 1 0 = true ∧ scalarRange 1 10000000 = true ∧ scalarRange 2 20000 = true ∧ scalarRange 2 10000000 = true) ∧
    (let s := onCore core
     s.boot.phase = .ready ∧ s.set.overrun = false ∧ s.stepRuns = true ∧ calm s = true ∧ (s.core 0 0).r.run = .running ∧ (s.tile 0).halted = none ∧ (s.core 0 0).r.job = some 5 ∧
       s.job? 5 = some progJob) := by
  try dsimp only
  repeat first | rw [ready_locked _ _ rfl] | rw [calm_locked _ rfl]
  all_goals decide +kernel
/-- R192, R195: the pending period is live after the saddle, and the next saddle is one such period on. -/
theorem test_saddle :
    let t := after (.saddle 77) { serving with set := { overrun := true, pend := [(1, 20000)], nextSaddle := some 250000 } }
    t.set.step = 1 ∧ t.liveOf 1 = 20000 ∧ t.set.nextSaddle = some 270000 ∧ t.set.lastDur = 77 := by decide +kernel

/-- A drive at position `pos` of a running chain of drives 0 and 1, with CHAIN_SYNC live. -/
def chained (pos : BitVec 3) : State :=
  { serving with set := { live := [(3, 1)] },
                 chain := { pos := pos, present := 3, inChain := true, record := some ⟨9, 2, pos, [], 4, true⟩ } }
theorem witness_SaddleFlits :
    (let s := chained 0
     s.boot.phase = .ready ∧ s.chainSync = true ∧ s.master = s.chain.pos.toNat ∧ s.chain.flit = none) ∧
    ((chained 1).boot.phase = .ready ∧ (chained 1).needsFlit = true ∧ (chained 1).set.held = false) ∧
    (let s : State := { chained 1 with set := { live := [(3, 1)], held := true, nextSaddle := some 1000 } }
     s.set.held = true ∧ s.chain.flit = none ∧ calm s = true ∧
       (let u : State := { s with time := { lockedTime with now := 1001001 } }
        u.boot.phase = .ready ∧ u.set.held = true ∧ (u.set.nextSaddle.getD u.time.now + 1000000).toNat < u.time.now.toNat)) ∧
    (let s := chained 0
     let ch : StagedChange := ⟨1, 0, 20000, []⟩
     s.chain.present.getLsbD 1 = true ∧ (1 : Nat) ≠ s.chain.pos.toNat ∧ s.toMaster ch.num.toNat ch.key ch.members = true ∧
       (answer (s.stageChange ch.num.toNat ch.key ch.value ch.members)).isSome = true ∧
       refusal (s.stageChange 1 0 1 []) = some stInvalidField) := by decide +kernel

/-! ## Settings, doorbells and the ledger -/

/-- LEDGER IMPORT whose mask starts with 8 set bits. -/
def importCmd : HostCmd := { admin 1 0 0 with data := List.replicate 8192 0 ++ [0xFF] }
theorem witness_HostSettings :
    ((serving.sq? 0 1).isSome = true ∧ 4096 + 8 * 1 < (if (0 : Fin 33) = 0 then 0x4000 else 0x2000)) ∧
    (let c := admin 0x20 65535 0
     adminTaken c serving = true ∧ serving.chainSync = false ∧ c.cdw10.toNat < 0x100 ∧ c.cdw15 = 0 ∧
       (scalarDefault 0x20).isSome = true ∧ pair64 c.cdw13 c.cdw14 = 0 ∧ scalarRange 0x20 (pair64 c.cdw11 c.cdw12).toNat = true) ∧
    (let c := admin 0x20 0 0
     adminTaken c serving = true ∧ (scalarDefault 0x20).isSome = true ∧ scalarRange 0x20 (pair64 c.cdw11 c.cdw12).toNat = false) ∧
    (let c := admin 0x30001 0 0
     adminTaken c serving = true ∧ c.cdw10.getLsbD 16 = true ∧ c.cdw10.toNat < 2 ^ 18 ∧ (scalarDefault (c.cdw10.toNat % 65536)).isSome = true) ∧
    (adminTaken (admin 1 0 0) serving = true ∧ (admin 1 0 0).cdw10.getLsbD 16 = false) ∧
    (let c := admin 1 0 0
     adminTaken c serving = true ∧ c.cdw10.toNat < 65536 ∧ c.cdw11.toNat = (0 : Fin 33).val ∧
       (serving.sq? 0 (c.cdw10.setWidth 16)).map (fun q => q.frozen) = some false) ∧
    (let s : State := { serving with host := { ctrls := [(0, { rdy := true, sqs := [(1, { client := 1, cqid := 1, size := 63, frozen := true })] })],
                                               deferred := [⟨0, 1, 1, 0, 9, 0, 1, 2, false, false⟩] } }
     adminTaken (admin 1 0 0) s = true ∧ (s.sq? 0 1).map (fun q => q.frozen) = some true ∧
       s.host.deferred.zipIdx.any (fun e => !e.1.read && ((e.1.early && decide (s.host.defWritten.toNat - s.host.deferred.length + e.2 < 0)) ||
         (e.1.report == 2 && e.1.ctrl == 0 && e.1.sqid == 1))) = true) ∧
    (let s : State := { serving with host := { ctrls := [(0, { rdy := true, sqs := [(1, { client := 1, cqid := 1, size := 63, frozen := true })] })] } }
     adminTaken (admin 1 0 0) s = true ∧ (s.sq? 0 1).map (fun q => q.frozen) = some true ∧
       s.host.deferred.any (fun e => !e.read && (e.early || (e.report == 2 && e.ctrl == 0 && e.sqid == 1))) = false) ∧
    (adminTaken (admin 0 0 0) serving = true ∧ (admin 0 0 0).cdw10 = 0) ∧
    (adminTaken importCmd serving = true ∧ importCmd.cdw10 = 1) := by decide +kernel
theorem byte_after (c : HostCmd) (xs ys : List Byte) (h : c.data = xs ++ ys) : c.byte xs.length = (ys[0]?).getD 0 := by
  rw [HostCmd.byte, h, List.getElem?_append_right (Nat.le_refl _), Nat.sub_self]
theorem witness_HostSettings_import : importCmd.nat 8192 64 ≠ 0 := by
  have h := byte_after importCmd (List.replicate 8192 0) [0xFF] rfl
  rw [List.length_replicate] at h
  rw [HostCmd.nat, HostCmd.bytes, show 64 = 63 + 1 from rfl, List.range_succ_eq_map, List.map_cons, leNat, Nat.add_zero, h]
  intro e
  have := Nat.le_add_right (([0xFF] : List Byte)[0]?.getD 0).toNat (256 * leNat ((List.map Nat.succ (List.range 63)).map (fun i => importCmd.byte (8192 + i))))
  rw [e] at this
  exact absurd this (by decide)

/-! ## Objects -/

/-- The head of an OBJECT_SEAL: name "a", type 1, COPIES 2, 5 bytes, and its content. -/
def sealCmd : HostCmd := admin 0 0 0 (buffer 69 [(0, 1, 0x61), (40, 8, 5), (48, 1, 1), (49, 1, 1), (50, 1, 1), (51, 1, 2), (64, 5, 0x0504030201)])
/-- A stocked drive with a job that is bound to object 8, and no index. -/
def bound8 : State :=
  { stocked with host := { stocked.host with jobs := [{ jobOf (.filter oneField 1 false 1) .admitted with bound := [8] }] }, idx := {} }

theorem witness_ObjectsSealed :
    (let c := sealCmd
     let s := stocked
     let most := unitsOf (padTo 16 5) * 2
     adminTaken c s = true ∧ calm s = true ∧ nameOf (c.bytes 0 32) = some [0x61] ∧ c.zero 52 12 = true ∧ c.nat 49 1 = 1 ∧ c.w32 32 = 0 ∧ c.nat 48 1 = 1 ∧
       c.nat 51 1 = 2 ∧ c.nat 40 8 = 5 ∧ typeListed 1 = true ∧ c.nat 50 1 ≤ 1 ∧
       s.obj.dir.any (fun x => x.2.name == [0x61]) = false ∧ s.obj.dir.length < 4194304 ∧ s.takeHandle.isSome = true ∧ s.ftl.readOnly = false ∧
       s.usedUnits + 2048 * (most + 2 * unitsOf (160 + 16 * 5)) ≤ userUnits ∧ (∀ ch, ch < 32 → s.channelTakes ch = true) ∧ s.charged (s.clientOf c) 2 + 65536 * most ≤ s.quota (s.clientOf c) 2) ∧
    (adminTaken (admin 0 0 0) stocked = true ∧ stocked.live? 0 = none ∧ stocked.obj? 0 = none) ∧
    (adminTaken (admin 8 0 0) stocked = true ∧ (stocked.live? 8).isSome = true ∧ (stocked.obj? 8).isSome = true ∧ stocked.boundTo 8 = false) ∧
    (adminTaken (admin 8 0 0) bound8 = true ∧ (bound8.live? 8).isSome = true ∧ bound8.boundTo 8 = true ∧ bound8.idx.all = []) := by
  try dsimp only
  repeat first | rw [ready_locked _ _ rfl] | rw [calm_locked _ rfl]
  all_goals decide +kernel

/-- An admin command with dword 13. -/
def admin13 (cdw10 cdw11 cdw12 cdw13 : W32) : HostCmd := { admin cdw10 cdw11 cdw12 with cdw13 := cdw13 }
/-- Object 8 of the stocked drive, and with a Tier D copy. -/
def base8 : Obj := { typ := 4, owner := 1, size := 2048, state := 1 }
def onTierD (pinned : Bool) : State :=
  { stocked with obj := { stocked.obj with dir := put 8 { base8 with d := some ⟨pinned, 0, [], []⟩ } stocked.obj.dir } }

theorem witness_ObjectsPlaced :
    (let c := admin 8 0 (2046 * 65536)
     let s := stocked
     adminTaken c s = true ∧ s.live? c.cdw10 = some base8 ∧ base8.s = none ∧ base8.case_ ≠ 3 ∧
       (s.unit? (c.cdw12.setWidth 16)).map (fun ui =>
         let rows := partRows base8.size ui.total false
         let new : SCopy := ⟨c.cdw12.setWidth 16, ui.tiles, false, 2046, rows, true, s.time.now, s.tilesBefore ui, ui.total⟩
         ui.tiles == [0] && 2046 + rows == 2048 && s.rowsFree 0 2046 (new.heldBy base8.size 0) 8 &&
           (s.setObj 8 base8).withinQuota base8 0 (1024 * new.allRows base8.size)) = some true) ∧
    (let c := admin 8 1 0
     let o : Obj := { base8 with d := some ⟨false, 0, [], []⟩ }
     adminTaken c (onTierD false) = true ∧ (onTierD false).live? c.cdw10 = some o ∧ (onTierD false).withinQuota o 1 65536 = true) ∧
    (let c := admin 8 1 0
     adminTaken c stocked = true ∧ stocked.live? c.cdw10 = some base8 ∧ stocked.withinQuota base8 1 65536 = true ∧ base8.d = none ∧
       stocked.tierDUsed + 1 ≤ stocked.tierDCap) ∧
    (adminTaken (admin 8 2 0) stocked = true ∧ adminTaken (admin 8 3 0) stocked = true ∧ adminTaken (admin 8 5 0) stocked = true) ∧
    (let c := admin13 8 4 0 (2293760 - 1)
     let o : Obj := { base8 with d := some ⟨true, 0, [], []⟩ }
     adminTaken c (onTierD true) = true ∧ (onTierD true).live? c.cdw10 = some o ∧ c.cdw13.toNat + unitsOf o.size ≤ windowUnits ∧
       (onTierD true).windowFree 8 c.cdw13.toNat (unitsOf o.size) = true) := by decide +kernel

/-! ## Extents, programs and the memory namespace -/

/-- A drive with an extent of client 0. -/
def withExtent (jobs : List Job) : State :=
  { serving with host := { serving.host with jobs := jobs }, media := { extents := [(6, { owner := 0, qlc := false, blocks := 1, slots := [0] })] } }
theorem witness_ExtentsProgramsAndMemory_extents :
    (let c := admin 4 2 0
     let u := serving.leaveLow
     adminTaken c serving = true ∧ u.ftl.readOnly = false ∧ u.usedUnits + 2048 * 2 ≤ userUnits ∧ (∀ i, i < 2 → (u.die (dieOfBlock i)).failed = false) ∧
       u.media.extents.length = 0 ∧
       (u.takeHandle.bind (fun x => x.2.allotBlocks x.1.toNat true (List.range 2))).map (fun x => ((List.range 2).zip x.1).all (fun (i, j) =>
         !((x.2.die (dieOfBlock i)).blk ((x.2.die (dieOfBlock i)).ringPos j)).erasing)) = some true ∧
       (let s : State := { serving with media := { dies := [(0, { winW := 1, slots := [(0, none)], blocks := [(0, { erased := false })] })] } }
        (s.takeHandle.bind (fun x => x.2.allotBlocks x.1.toNat true (List.range 1))).map (fun x => (x.1, ((x.2.die 0).blk 0).erasing)) = some ([0], true))) ∧
    (let c := admin 1 0 6
     adminTaken c (withExtent []) = true ∧ ((withExtent []).extent? 6).map (fun e => e.owner) = some 0 ∧ (withExtent []).clientOf c = 0 ∧
       (withExtent []).extentBound 6 = false) ∧
    (let c := admin 1 0 6
     let s := withExtent [{ jobOf (.filter oneField 1 false 1) .admitted with bound := [6] }]
     adminTaken c s = true ∧ (s.extent? 6).map (fun e => e.owner) = some (s.clientOf c) ∧ s.extentBound 6 = true) ∧
    (let s : State := { withExtent [] with media := { extents := [(6, qlcExtent)] } }
     adminTaken (admin 1 0 6) s = true ∧ (s.extent? 6).map (fun e => e.owner) = some 1 ∧ s.clientOf (admin 1 0 6) = 0) := by decide +kernel
theorem witness_ExtentsProgramsAndMemory_programs :
    (let c := admin 63 8 0 [] 2
     let n := unitsOf (padTo 16 8)
     adminTaken c stocked = true ∧ c.nsid = stocked.host.nsCompute ∧ c.cdw10.getLsbD 24 = false ∧ find 63 stocked.host.programs = none ∧
       textOk (textWords { typ := 8, owner := stocked.clientOf c, size := 8, state := 0, copies := 1, data := memOf (c.bytes 0 8) }) = true ∧
       stocked.takeHandle.isSome = true ∧ stocked.usedUnits + 2048 * (n + unitsOf (160 + 16 * 8)) ≤ userUnits ∧ (∀ ch, ch < 32 → stocked.channelTakes ch = true) ∧
       stocked.charged (stocked.clientOf c) 2 + 65536 * n ≤ stocked.quota (stocked.clientOf c) 2) ∧
    (let s : State := { stocked with host := { stocked.host with programs := [(5, (13, false))] } }
     let c := admin 0x10005 0 0 [] 2
     adminTaken c s = true ∧ c.nsid = s.host.nsCompute ∧ c.cdw10.toNat / 65536 % 16 ≤ 1 ∧ find 5 s.host.programs = some (13, false)) ∧
    (let s : State := { stocked with host := { stocked.host with programs := [(5, (13, true))] } }
     let c := { ioCmd 2 56 128 0 with cdw2to5 := 5 }
     ioTaken c s = true ∧ calm s = true ∧ c.nsid = s.host.nsCompute ∧ c.cdw2to5.toNat / 65536 % 65536 = 0 ∧ c.cdw10.toNat ≤ 56 ∧
       128 ≤ c.cdw11.toNat ∧ find 5 s.host.programs = some (13, true) ∧
       (answer ((ioState c s).programAt 13)).isSome = true ∧ ((ioState c s).unit? 0x8000).isSome = true ∧
       (ioState c { s with chain := { pos := 3, present := 8, inChain := true } }).unit? 0x8000 = none) := by
  try dsimp only
  repeat first | rw [ready_locked _ _ rfl] | rw [calm_locked _ rfl]
  all_goals decide +kernel
theorem witness_ExtentsProgramsAndMemory_memory :
    (let o : Obj := { base8 with d := some ⟨true, 0, [], []⟩, window := some 3, state := 0 }
     let s : State := { stocked with obj := { dir := [(8, o), (9, { base8 with window := some 4 })] } }
     let c := ioCmd 3 (3 * 65536 + 2000) 0 48
     ioTaken c s = true ∧ c.nsid = s.host.nsMemory ∧ s.obj? 8 = some o ∧ slbaOf c = 65536 * 3 + 2000 ∧ 2000 + 48 ≤ o.size ∧
       (∀ e ∈ s.obj.dir, e ≠ (8, o) → ∀ x ∈ e.2.window, x + unitsOf e.2.size ≤ 3 ∨ 3 + unitsOf o.size ≤ x)) ∧
    (let o : Obj := { base8 with d := some ⟨true, 0, [], []⟩, window := some 3 }
     let s : State := { stocked with obj := { dir := [(8, o)] } }
     ioTaken (ioCmd 3 (3 * 65536) 0 1) s = true ∧ s.obj? 8 = some o ∧ o.state ≠ 0) := by decide +kernel
/-- R394: bytes written through the window read back. -/
theorem test_memoryWrite :
    let o : Obj := { base8 with d := some ⟨true, 0, [], []⟩, window := some 3, state := 0 }
    let s : State := { stocked with obj := { dir := [(8, o)] } }
    ((after (.memoryWrite (ioCmd 3 (3 * 65536 + 7) 0 2 [0xAA, 0xBB])) s).obj? 8).map (fun o => o.data.rdBytes 6 4) = some [0, 0xAA, 0xBB, 0] := by
  decide +kernel

/-! ## Queues, controllers and features -/

theorem witness_QueuesAndControllers :
    (let c := admin 0x3FFF0002 1 0
     adminTaken c serving = true ∧ 2 ≤ serving.pairsOf 0 ∧ c.cdw10.toNat / 65536 = 0x3FFF ∧ find 2 (serving.ctrl 0).cqs = none ∧
       (serving.ctrl 0).cqs.length < serving.pairsOf 0 ∧ (0 : W16).toNat < serving.vectorsOf 0) ∧
    (let c := admin 0x10002 0x10001 0
     adminTaken c serving = true ∧ find 2 (serving.ctrl 0).sqs = none ∧ (serving.ctrl 0).sqs.length < serving.pairsOf 0 ∧
       c.cdw11.getLsbD 0 = true ∧ (find 1 (serving.ctrl 0).cqs).isSome = true) ∧
    (adminTaken (admin 1 0 0) serving = true ∧ (serving.sq? 0 1).map (fun q => q.deleting) = some none ∧ serving.host.jobs = [] ∧
      (serving.ctrl 0).sqs.Pairwise (fun a b => a.1 ≠ b.1)) ∧
    (let j := jobOf (.filter oneField 1 false 1) .admitted
     (withJob j).host.jobs = [j] ∧ j.ctrl = 0 ∧ j.sqid = 1 ∧ j.submitted = true ∧ j.phase = .admitted) ∧
    (let c := admin 0xC1 0 0x3F0001
     adminTaken c serving = true ∧ c.cdw12.toNat < 4194304 ∧ (serving.sq? 0 (c.cdw12.setWidth 16)).isSome = true) ∧
    (let c := admin 0x200008 256 0
     adminTaken c serving = true ∧ c.cdw10.toNat % 16 = 8 ∧ c.cdw10.toNat / 256 % 8 = 0 ∧ c.cdw10.toNat / 65536 = (32 : Fin 33).val ∧
       (serving.host.ctrls.filter (fun y => y.1 != 0 && y.1 != 32)) = []) ∧
    (let k := serving.ctrl 32
     k.en = false ∧ k.disabling = false ∧ k.cfs = false ∧ serving.boot.phase ≠ .off ∧ serving.boot.phase ≠ .shutDown ∧
       serving.boot.phase ≠ .recovery) ∧
    ((serving.ctrl 0).en = true ∧ (serving.ctrl 0).cfs = false ∧ ∀ j ∈ serving.host.jobs, j.ctrl ≠ 0) := by decide +kernel

theorem witness_HostFeatures :
    (adminTaken (admin 2 4 0) serving = true ∧ adminTaken (admin 0x0E 0 0) serving = true ∧ serving.time.hostStamp = none) ∧
    ({ serving with time := { serving.time with hostStamp := some (60000, 0) } } : State).time.hostStamp = some (60000, 0) ∧
    (adminTaken (admin 1 0 0) serving = true ∧ (serving.ctrl 0).selfTest = false ∧ adminTaken (admin 15 0 0) serving = true) ∧
    (let c := { admin 0x000300C1 0 16 with cdw13 := 0 }
     adminTaken c serving = true ∧ (pair64 c.cdw12 c.cdw13).toNat = 16 * 1) ∧
    (adminTaken (admin 0x100F00C2 0 0) serving = true ∧ adminTaken (admin 0xC3 0 0) serving = true ∧ adminTaken (admin 0 0 0) serving = true ∧
      adminTaken (admin 1 0 0) serving = true) := by decide +kernel
/-- R181: two minutes between two timestamps with an epoch that stood still add two minutes. -/
theorem test_timestamp :
    let s : State := { serving with time := { serving.time with hostStamp := some (60000, 0) } }
    (after (.timestamp (admin 0x0E 0 0 (buffer 8 [(0, 6, 180000)]))) s).time.epoch = 2 := by decide +kernel

/-- A manifest of one 4 KiB piece. -/
def manifest : Manifest := ⟨3, 0, true, 1, 0x1234, 1, 4096⟩
theorem witness_ErasesAndFirmware :
    (let c := admin 0x201 0 0 [] 1
     adminTaken c stocked = true ∧ c.cdw10.toNat / 512 % 8 ≤ 2 ∧ c.cdw10.toNat % 16 ≤ 1 ∧ stocked.space? c.nsid = some ⟨0, false, 1⟩ ∧
       0 < stocked.slotsFree ∧ stocked.ftl.spaces.Pairwise (fun a b => a.1 ≠ b.1)) ∧
    (adminTaken (admin 4 0 0) stocked = true ∧ stocked.ftl.readOnly = false ∧ stocked.ftl.spaces.length ≤ stocked.slotsFree) ∧
    (let c := admin 1023 ((125829120 - 4096) / 4) 0
     adminTaken c serving = true ∧ 4 * (c.cdw10.toNat + 1) = 4096 ∧ 4 * c.cdw11.toNat % 4096 = 0 ∧ 4 * c.cdw11.toNat + 4096 = imageMax) ∧
    (let s : State := { serving with sec := { pieces := [0] } }
     adminTaken (admin 8 0 0) s = true ∧ manifest.bytes ≠ 0 ∧ manifest.bytes.toNat ≤ imageMax ∧ s.imageError manifest = 0 ∧
       s.imageError { manifest with sigValid := false } ≠ 0 ∧ s.sec.slotWrite = none ∧
       ({ s with sec := { s.sec with slotWrite := some ⟨manifest, [], 9, none, none⟩ } } : State).sec.slotWrite.isSome = true) ∧
    (∀ i, 4096 * i < manifest.bytes.toNat → i ∈ [0]) := by
  refine ⟨by decide +kernel, by decide +kernel, by decide +kernel, by decide +kernel, fun i h => ?_⟩
  have : manifest.bytes.toNat = 4096 := by decide
  exact List.mem_singleton.mpr (by omega)

/-! ## Mapped namespaces -/

/-- A unit whose slot 0 is lost. -/
def lostUnit : FUnit := { kind := .data, nsx := 0, lua := 0, seq := 1, lost := 1 }
/-- The stocked drive, whose only block reads as lost. -/
def lostBlock : State := { stocked with ftl := { stocked.ftl with map := [(0, ⟨2, 0⟩)], buf := [(0, lostUnit)] } }
theorem witness_BlocksReadBack :
    (let c := ioCmd 1 0 0 0
     ioTaken c stocked = true ∧ stocked.space? c.nsid = some ⟨0, false, 1⟩ ∧ stocked.sec.mbk = true ∧ slbaOf c + nlbOf c ≤ 1 ∧ stocked.mapWaits ⟨0, false, 1⟩ (slbaOf c) (nlbOf c) = false ∧
       nlbOf c * (⟨0, false, 1⟩ : Nspace).blockBytes ≤ 2097152 ∧ (stocked.readBlock ⟨0, false, 1⟩ 0).isSome = true ∧
       (∀ p ∈ (⟨0, false, 1⟩ : Nspace).parts 0 1, (stocked.mapEnt 0 p.1).state ≠ 2) ∧
       stocked.roomFor (((⟨0, false, 1⟩ : Nspace).parts 0 1).length + 1) = true ∧ stocked.ftl.waiting = []) ∧
    (let s : State := { stocked with ftl := { stocked.ftl with waiting := [ioCmd 1 0 0 0] } }
     ioTaken (ioCmd 1 0 0 0) s = true ∧ s.ftl.waiting ≠ []) ∧
    (let c := ioCmd 1 0 0 0
     ioTaken c lostBlock = true ∧ lostBlock.space? c.nsid = some ⟨0, false, 1⟩ ∧ lostBlock.readBlock ⟨0, false, 1⟩ 0 = none) ∧
    ioTaken (ioCmd 1 0 0 0) { stocked with ftl := { stocked.ftl with readOnly := true } } = true ∧
    (let c := ioCmd 1 0 4 0 (buffer 16 [(4, 4, 1)])
     ioTaken c stocked = true ∧ c.cdw11.getLsbD 2 = true ∧ c.nat 8 8 + c.nat 4 4 ≤ 1) ∧
    (let c := admin 0 0 0 (buffer 27 [(0, 8, 1), (26, 1, 1)])
     adminTaken c stocked = true ∧ (c.byte 26).toNat % 16 ≤ 1 ∧ c.nat 0 8 = 1 ∧ stocked.ftl.spaces.length < 256 ∧ stocked.usedUnits + 1 ≤ userUnits) ∧
    (adminTaken (admin 1 0 0 [] 1) stocked = true ∧ 0 < stocked.slotsFree) ∧
    (let c := admin 2 0 0 (buffer 8 [(0, 8, 5)]) 1
     adminTaken c stocked = true ∧ c.nat 0 8 = 5 ∧ stocked.space? c.nsid = some ⟨0, false, 1⟩ ∧
       stocked.usedUnits + ({ nsx := 0, big := false, size := 5 } : Nspace).units - 1 ≤ userUnits) := by decide +kernel
/-- R361, R363: a written block of 4 KiB stands in the lowest buffer slot as slot 0 of unit 0. -/
theorem test_write :
    let t := after (.write (ioCmd 1 0 0 0 [1, 2, 3])) stocked
    t.ftl.buf.map (fun e => (e.1, e.2.nsx, e.2.lua, e.2.valid)) = [(0, 0, 0, 1)] ∧ t.mapEnt 0 0 = ⟨2, 0⟩ := by decide +kernel

/-- A buffered image with slot 0 alone. -/
def image (old : MapEnt) : FUnit := { kind := .data, nsx := 0, lua := 0, seq := 2, valid := 1, data := [(0, 9)], old := old }
/-- A drive with an open block at the last unit of its lines on die 1, a closed block to refresh on die 0, and one unit in it. -/
def openAndClosed : State :=
  { stocked with media := { dies := [(0, { blocks := [(3, { use := .closed, refresh := true, erased := false, wp := 2048 })] }),
                                     (1, { blocks := [(4, { use := .open_, erased := false, wp := 2046 })] })] },
                 ftl := { stocked.ftl with map := [(0, ⟨1, puaOf 0 3 0⟩)], units := [(puaOf 0 3 0, { kind := .data, nsx := 0, lua := 0, seq := 1, data := [(4096, 7)] })],
                                           buf := [(5, { kind := .data, nsx := 0, lua := 1, seq := 3 })] } }
/-- That drive with a write running on die 1. -/
def writing1 (f : WriteFor) (erase : Bool) (s : State) : State := s.updDie 1 (fun x => { x with writing := some ⟨4, erase, true, f⟩ })
/-- The buffered unit of that drive, and the unit of its closed block. -/
def unit5 : FUnit := { kind := .data, nsx := 0, lua := 1, seq := 3 }
def unit0 : FUnit := { kind := .data, nsx := 0, lua := 0, seq := 1, data := [(4096, 7)] }
/-- A drive whose window moves are due, with a window of one block on die 0. -/
def windowed (use : BlkUse) : State :=
  { serving with media := { sinceMove := 1024, dies := [(0, { winS := 4095, winW := 1, blocks := [(4095, { use := use, erased := false, wp := 7 })] })] } }
theorem witness_UnitsMove_units :
    (let b := image ⟨0, 0⟩
     let s : State := { stocked with ftl := { buf := [(16383, b)] } }
     find 16383 s.ftl.buf = some b ∧ b.kind = .data ∧ b.valid ≠ 0xFFFF ∧ ¬ (b.old.state = 1 ∨ b.old.state = 3) ∧ s.ftl.closing = []) ∧
    (let b := image ⟨1, puaOf 0 3 0⟩
     let s : State := { openAndClosed with ftl := { openAndClosed.ftl with buf := [(0, b)] } }
     find 0 s.ftl.buf = some b ∧ b.old.state = 1 ∧ (s.flashView b.old).bad = 0) ∧
    (let s := openAndClosed
     ([5] : List Nat).Nodup ∧ (∀ i ∈ [5], (find i s.ftl.buf).map (fun u => u.valid) = some 0xFFFF ∧ s.slotQueued i = false) ∧ s.takesUnits 1 4 1 = true ∧
       (s.die 1).idle = true ∧ ((s.die 1).blk 4).use = .open_ ∧ s.inTurn 1 = true ∧ s.mute = false) ∧
    (let s := writing1 (.units [(unit5, ⟨2, 5⟩)] none false) false openAndClosed
     let x := s.die 1
     x.writing = some ⟨4, false, true, .units [(unit5, ⟨2, 5⟩)] none false⟩ ∧ x.suspended = false ∧ (x.blk 4).use = .open_ ∧ (x.blk 4).qlc = true ∧ (x.blk 4).wp + 1 ≤ 2047 ∧ s.ftl.waiting = [] ∧
       s.ftl.zeroing = [] ∧ s.ftl.closing = [] ∧ s.host.recs = [] ∧ s.host.issued = [] ∧ find 5 s.ftl.buf = some unit5 ∧ (3 : Nat) ≠ 4096 * 1 + 4) ∧
    (let s := openAndClosed
     let cs := (s.mergeFrom 0 3 []).copies 0 3 []
     s.isVictim 0 3 = true ∧ s.uncollected 0 3 = true ∧ s.copiesQueued 3 = false ∧ cs.length = 1 ∧ (s.die 1).failed = false ∧ (s.die 1).idle = true ∧
       (s.die 1).inWindow 4 = false ∧ ((s.die 1).blk 4).use = .open_ ∧ ((s.die 1).blk 4).wp + cs.length ≤ 2047 ∧ s.mute = false) := by decide +kernel
theorem witness_UnitsMove_blocks :
    (let s := (writing1 (.victim false) true openAndClosed).updBlk 1 4 (fun b => { b with use := .closed })
     let x := s.die 1
     x.writing = some ⟨4, true, true, .victim false⟩ ∧ x.suspended = false ∧ x.failed = false ∧ (x.blk 4).use = .closed) ∧
    (let s := openAndClosed
     (s.die 0).failed = false ∧ ((s.die 0).blk 3).use = .closed ∧ find (4096 * 0 + 3) s.media.patrolled = none) ∧
    (let s : State := { openAndClosed with time := { openAndClosed.time with epoch := 10080 }, media := { openAndClosed.media with patrolled := [(3, 0)] } }
     find (4096 * 0 + 3) s.media.patrolled = some 0 ∧ getD 0 s.media.patrolled 3 + 10080 ≤ s.time.epoch.toNat) ∧
    serving.media.sinceMove < (serving.liveOf 0x20).toNat ∧
    (let s := windowed .free
     let x := s.die 0
     s.ready = true ∧ (s.liveOf 0x20).toNat ≤ s.media.sinceMove ∧ s.media.moves % 512 = 0 ∧ s.media.move = none ∧ x.failed = false ∧ x.winW ≠ 0 ∧
       (x.blk ((x.winS + x.winW) % 4096)).use = .free ∧ (x.blk (x.winS % 4096)).use = .free) ∧
    (let x := (windowed .sealed).die 0
     (x.blk 4095).use = .sealed ∧ (x.blk 4095).erasing = false ∧ (x.blk 0).erasing = false ∧ (x.blk 4095).check = false ∧ x.idle = true) ∧
    (let m : WindowMove := ⟨1, 3, 4, 7, 4, 1024, false⟩
     let s : State := writing1 (.moveLine 3 false) false { openAndClosed with media := { openAndClosed.media with move := some m } }
     let s := s.updDie 1 (fun x => { x with winS := 3, winW := 1 })
     (s.die 1).writing = some ⟨4, false, true, .moveLine 3 false⟩ ∧ s.media.move = some m ∧ m.units ≤ m.done + 3 ∧ (s.die 1).winW ≠ 0) := by decide +kernel
/-- R367: the copy of the victim's one unit stands in the open block, the map follows it, and the victim is erased. -/
theorem test_collect :
    let t := after (.dieProgramDone 1 true) (after (.garbageCollection 0 3 1 4 [] false false) openAndClosed)
    (t.mapEnt 0 0).at_ = puaOf 1 4 2046 ∧ ((t.die 0).writing.map (fun w => w.serves)) = some (.victim false) ∧
      ((after (.dieEraseDone 0 true) t).die 0).blk 3 = { wear := 10 } := by decide +kernel
/-- R369: when the program of the copy fails, the map stays with the source. -/
theorem test_copy_fails :
    let t := after (.dieProgramDone 1 false) (after (.garbageCollection 0 3 1 4 [] false false) openAndClosed)
    (t.mapEnt 0 0).at_ = puaOf 0 3 0 ∧ ((t.die 0).blk 3).use = .closed ∧ (t.die 1).retired = 1 := by decide +kernel
/-- R351: after the target's erase, the four units of the block's first line are read before the line is programmed. -/
theorem test_window_move :
    let t := after (.dieEraseDone 0 true) (after (.windowMove false) (windowed .sealed))
    (t.die 0).reads.length = 3 ∧ (t.die 0).writes = [⟨0, false, true, .moveLine 4 false⟩] ∧ t.media.move.map (fun m => m.units) = some 7 := by decide +kernel

/-! ## Objects, memories and links by themselves -/

/-- An IMPAIRED object of case 1, served by Tier D, with its digest. -/
def impaired (bad : List Nat) : Obj :=
  { base8 with data := [(0, 7)], digest := digestOf (Mem.rdBytes [(0, 7)] 0 2048), state := 2, case_ := 1, stored := 2048, copies := 1, d := some ⟨false, 0, bad, []⟩ }
/-- A serving drive with one object. -/
def holding (o : Obj) : State := { serving with obj := { dir := [(8, o)], trained := 3 } }
/-- An object with one pinned Tier S copy that a reset lost, or one in place with a Tier D copy. -/
def lostCopies : Obj := { base8 with f := some { stored := 2048 }, wantS := some ⟨0, [0], false, 2046, 2, true, 0, 0, 1⟩, wantD := some true }
def inSram : Obj := { base8 with data := [(1024, 9)], s := some ⟨0, [0], false, 4, 2, true, 0, 0, 1⟩, d := some ⟨false, 0, [], []⟩ }

theorem witness_ObjectsKept :
    (let s := holding (impaired [])
     s.boot.phase = .ready ∧ s.obj? 8 = some (impaired []) ∧ s.wholeInD 8 (impaired []) = true ∧ s.ftl.readOnly = false ∧ s.usedUnits + 2048 * (1 * (unitsOf 2048 + (impaired []).tableUnits)) ≤ userUnits ∧
       (∀ ch, ch < 32 → s.channelTakes ch = true)) ∧
    digestOf ((impaired []).data.rdBytes 0 (impaired []).size) = (impaired []).digest ∧
    (holding (impaired [0])).obj? 8 = some (impaired [0]) ∧
    (let o : Obj := { impaired [] with case_ := 2 }
     (holding o).obj? 8 = some o ∧ (holding o).secondGood o = false) ∧
    (let f : FCopy := { stored := 2048, places := [(0, 0)] }
     let o : Obj := { base8 with f := some f, copies := 1 }
     let s : State := { holding o with media := { sealBlocks := [(0, ⟨true, [(8, 0, 0)]⟩)] } }
     s.obj? 8 = some o ∧ o.state = 1 ∧ s.sec.mbk = true ∧ o.numbered f.stored 0 = (0, 0, false) ∧ s.unitReads f 0 0 = true ∧ f.place? 0 0 = some 0 ∧ s.movesFrom 0 = true) ∧
    (let s := holding lostCopies
     s.obj? 8 = some lostCopies ∧ s.boot.again = none ∧ lostCopies.case_ ≠ 3 ∧ (∀ t ∈ [0], (s.tile t).lost = false ∧ s.rowsFree t 2046 ((⟨0, [0], false, 2046, 2, true, 0, 0, 1⟩ : SCopy).heldBy 2048 t) 8 = true) ∧
       lostCopies.d = none ∧ s.tierDUsed + unitsOf lostCopies.size ≤ s.tierDCap) := by
  exact ⟨⟨rfl, rfl, rfl, rfl, by decide +kernel⟩, rfl, rfl, ⟨rfl, rfl⟩, by decide +kernel, by decide +kernel⟩

/-- A row of no codes and no stored vector. -/
def row0 : Row := ⟨0, 0, false, 0, 0, 0, [], [], [], []⟩
/-- The index of the stocked drive with 65,537 such rows. -/
def longIndex : IndexSt :=
  { tombObj := 10, moraineObj := 11, counter := 1, rows := (0, row0) :: (List.replicate 65535 (1, row0)) ++ [(65536, row0)] }
def longState : State := { stocked with idx := { all := [(7, longIndex)] } }
theorem flatMap_length {α β : Type} (f : α → List β) (a : α) (n : Nat) : ((List.replicate n a).flatMap f).length = n * (f a).length := by
  induction n with
  | zero => simp
  | succ n ih => rw [List.replicate_succ, List.flatMap_cons, List.length_append, ih, Nat.succ_mul, Nat.add_comm]
theorem witness_ObjectsKept_moraine :
    longState.index? 7 = some longIndex ∧ longState.indexD? 7 = some desc ∧ (longState.obj? 7).isSome = true ∧
    longIndex.rows.filter (fun r => decide (longIndex.sealedTo ≤ r.1)) = (0, row0) :: List.replicate 65535 (1, row0) ++ [(65536, row0)] ∧
    (List.replicate 65535 (1, row0)).length = 65535 ∧ desc.moraineRows < ((0, row0) :: List.replicate 65535 (1, row0) ++ [(65536, row0)]).length ∧
    (∀ ch, ch < 32 → longState.channelTakes ch = true) ∧ longState.obj.dir.length < 4194304 ∧ longState.takeHandle.isSome = true ∧ longState.ftl.readOnly = false ∧
    let n := (segmentBytes desc (((0, row0) :: List.replicate 65535 (1, row0)).map Prod.snd)).length
    longState.usedUnits + 2048 * (unitsOf (padTo 16 n) + unitsOf (160 + 16 * n)) ≤ userUnits := by
  refine ⟨rfl, rfl, by decide +kernel, List.filter_eq_self.mpr (fun _ _ => decide_eq_true (Nat.zero_le _)), List.length_replicate, ?_,
    by decide +kernel, by decide +kernel, by decide +kernel, rfl, ?_⟩
  · rw [List.length_append, List.length_cons, List.length_replicate]
    decide +kernel
  · have e : ((0, row0) :: List.replicate 65535 (1, row0)).map Prod.snd = List.replicate 65536 row0 := by
      rw [List.map_cons, List.map_replicate, ← List.replicate_succ]
    rw [e, segmentBytes, List.length_append, List.length_append, flatMap_length, flatMap_length, flatMap_length]
    decide +kernel

theorem witness_MemoryWalks :
    (let s : State := { serving with set := { live := [(0x10, 0)] } }
     rateSetting 1 = some 0x10 ∧ s.liveOf 0x10 = 0) ∧
    (let s : State := { serving with ecc := { kinds := [(3, { pos := 128 })] } }
     s.boot.phase = .ready ∧ rateSetting 3 = some 0x12 ∧ s.liveOf 0x12 ≠ 0 ∧ s.obj.retiredUnits = [] ∧
       s.eccOf 3 (s.lineAt 3 128).1 (s.lineAt 3 128).2.1 64 .clean = .clean ∧ (s.eccKind 3).pos.toNat + 64 < passBytes 3) ∧
    (let s : State := { serving with ecc := { kinds := [(2, { pos := 154618822592 })] } }
     rateSetting 2 = some 0x11 ∧ s.liveOf 0x11 ≠ 0 ∧ s.eccOf 2 (s.lineAt 2 154618822592).1 (s.lineAt 2 154618822592).2.1 64 .clean = .clean ∧
       passBytes 2 ≤ (s.eccKind 2).pos.toNat + 64) ∧
    (serving.eccKind 5).sinceCe = 0 ∧
    (let s : State := { serving with ecc := { kinds := [(0, { sinceCe := 0x2000000 })], bad := [⟨0, 0, 8⟩, ⟨3, 0, 64⟩] } }
     (s.eccKind 0).sinceCe ≠ 0 ∧ (s.eccKind 0).ceAt = none ∧ s.ecc.bad.find? (fun x => x.kind == 3) = some ⟨3, 0, 64⟩) := by decide +kernel

/-- The object whose Tier D copy lies in a retired unit. -/
theorem witness_UnitsFail_moved :
    let c : DCopy := ⟨true, 0, [], []⟩
    let o : Obj := { base8 with d := some c }
    let u := c.loc 8 0
    let s : State := { holding o with obj := { dir := [(8, o)], halted := [(1, 15)], haltUnits := [(31, u)] } }
    (1, 15) ∈ s.obj.halted ∧ find (16 * 1 + 15) s.obj.haltUnits = some u ∧ s.ownerInD (65536 * u) = some (8, o, 0) ∧ s.obj? 8 = some o ∧
      o.d = some c ∧ o.f = none ∧ s.restores { o with f := some { stored := 2048, bad := [(0, 0)] }, direct := true } 0 = false := by
  refine ⟨by decide, rfl, ?_, rfl, rfl, rfl, by decide +kernel⟩
  simp only [State.ownerInD, List.findSome?_cons]
  rw [show unitsOf ({ base8 with d := some ⟨true, 0, [], []⟩ } : Obj).size = 1 from by decide, Nat.mul_div_cancel_left _ (by decide : 0 < 65536),
    show List.range 1 = [0] from rfl]
  have h : ((⟨true, 0, [], []⟩ : DCopy).loc (BitVec.ofNat 32 8) 0 == (⟨true, 0, [], []⟩ : DCopy).loc 8 0) = true := beq_self_eq_true _
  simp only [List.find?, h]
  rfl
theorem witness_UnitsFail :
    ((1, 15) ∉ serving.obj.halted) ∧
    (let s : State := { serving with obj := { halted := [(1, 15)], haltUnits := [(31, 1179647)] } }
     (1, 15) ∈ s.obj.halted ∧ find (16 * 1 + 15) s.obj.haltUnits = some 1179647) ∧
    (let s : State := { holding inSram with tiles := [(0, { halted := some (some 5120) })] }
     (s.tile 0).halted = some (some 5120) ∧ (s.rowCopy 0 5120).map (fun x => (x.1, x.2.map (fun b => (b.length, b.head?)))) = some (5120, some (1024, some 9))) ∧
    (let s : State := (queued [entry 32 false false []]).haltTile 0 0 64
     (s.tile 0).halted = some (some 64) ∧ s.rowCopy 0 64 = none ∧ 0 ∈ s.heldCores 0) ∧
    ((serving.tile 255).lost = false ∧ (serving.tile 255).spare = none ∧ serving.spareOf 255 = some 268) ∧
    (let s : State := { serving with boot := { phase := .ready, failedTiles := [64, 65, 66, 67] } }
     s.boot.phase = .ready ∧ (s.tile 0).lost = false ∧ s.spareOf 0 = none) ∧
    (serving.boot.phase ≠ .off ∧ serving.boot.phase ≠ .faulted ∧ serving.boot.phase ≠ .shutDown) := by decide +kernel

/-- A serving drive whose port 1 has the lanes given. -/
def withPort (x : Port) : State := { serving with link := { ports := [(0, { lanes := 0xFF }), (1, x)] } }
theorem witness_LinksChange :
    ((withPort { lanes := 0x7F }).port 1).lanes.getLsbD 7 = false ∧ ((withPort { lanes := 0xFF }).port 1).lanes = 0xFF ∧
    (let x := (withPort { lanes := 0x7F }).port 1
     x.lanes.getLsbD 6 = true ∧ x.lanes ≠ 0xFF) ∧
    ((withPort { wrapped := true }).port 1).wrapped = true ∧
    (let s := withPort { lanes := 0x01 }
     (s.port 1).lanes ≠ 0 ∧ (7 : Fin 8).val ≠ s.ringPos.toNat ∧ (0 : Fin 8).val = s.ringPos.toNat ∧ s.chain.record = none) ∧
    (0x3FFFFFF : BitVec 26).toNat ∉ serving.link.mesh ∧
    (let op := request (.gbar 0) none
     let s : State := { serving with host := { jobs := [progJob], recs := [op] } }
     s.host.recs.Pairwise (fun a b => a.id ≠ b.id) ∧ progJob.phase = .admitted ∧ progJob.hasMember [0] none = true ∧ op.job = progJob.num ∧
       op.outcome = none ∧ op.kind.call.isSome = true) ∧
    (let op := request (.gtopk 0 1 1 0) none
     let s : State := { serving with host := { jobs := [progJob], recs := [op] } }
     s.job? op.job = some progJob ∧ (0, some op) ∈ s.callOps progJob op) ∧
    serving.boot.phase = .ready := by decide +kernel

/-! ## Chains and bring-up -/

/-- What a drive of the ring answers. -/
def probe : DriveProbe := ⟨5, true, false, 0, 250000, true⟩
/-- A drive that has probed for a chain of eight. -/
def probed : State := { serving with chain := { probing := some (admin 0 8 0, 8) } }
theorem witness_ChainMembership :
    (adminTaken (admin 0 8 0) serving = true ∧ serving.chain.record = none ∧ serving.chain.probing = none) ∧
    (adminTaken (admin 0 2 0) (chained 0) = true ∧ (chained 0).chain.record ≠ none ∧ (chained 0).chain.record.map (fun r => r.valid) = some true ∧
      (chained 0).chain.ending = none ∧ adminTaken (admin 1 0 0) (chained 0) = true ∧ adminTaken (admin 2 0 0) (chained 0) = true) ∧
    (let s : State := { chained 0 with sec := { slot := some (manifest, []) } }
     adminTaken (admin 3 0 0) s = true ∧ s.sec.slot ≠ none ∧ s.chain.sending = none ∧ adminTaken (admin 4 0 0) s = true) ∧
    (probed.chain.probing = some (admin 0 8 0, 8) ∧ probed.chain.record = none ∧ (List.replicate 7 probe).length + 1 = 8 ∧ probed.liveOf 1 ≠ 0 ∧
      (∀ d ∈ List.replicate 7 probe, d.cabled = true ∧ d.atS8 = true ∧ d.holdsRecord = false ∧ d.penlaVersion = probed.sec.penlaVersion ∧ d.stepPeriod ≠ 0)) ∧
    (List.replicate 6 probe).length + 1 ≠ 8 ∧
    (let s : State := { serving with chain := { probing := some (admin 0 2 0, 2), record := some ⟨9, 2, 1, [5, 6], 4, false⟩ } }
     (s.chain.record.map (fun r => r.valid)) = some false ∧ s.chain.probing = some (admin 0 2 0, 2)) ∧
    (serving.boot.phase = .ready ∧ serving.chain.record = none ∧ serving.chain.probing = none ∧ serving.liveOf 1 ≠ 0) ∧
    (let s : State := { serving with chain := { record := some ⟨9, 2, 1, [5, 6], 4, true⟩ } }
     s.boot.phase = .ready ∧ s.outside = true) ∧
    (let s := chained 1
     s.chain.inChain = true ∧ ({ s with chain := { s.chain with present := 3 } } : State).master = s.master) ∧
    (let s := chained 1
     let s : State := { s with chain := { s.chain with present := 2 } }
     s.chain.inChain = true ∧ ({ s with chain := { s.chain with present := 3 } } : State).master ≠ s.master ∧
       ({ s with chain := { s.chain with present := 3 } } : State).master ≠ s.chain.pos.toNat) ∧
    (let r : ChainRec := ⟨9, 2, 0, [5, 6], 4, true⟩
     let s : State := { withPort { lanes := 1 } with chain := { record := some r, inChain := true } }
     s.chain.record = some r ∧ s.chain.inChain = true ∧ r.digests[1]? = some 6 ∧ (s.port 1).lanes ≠ 0 ∧ s.chain.present.getLsbD 1 = false) := by decide +kernel

/-- The states of witness_ChainMembership in which cairns are stamped are calm. -/
theorem witness_ChainMembership_calm :
    calm { serving with chain := { probing := some (admin 0 2 0, 2), record := some ⟨9, 2, 1, [5, 6], 4, false⟩ } } = true ∧ calm serving = true ∧
      calm { chained 1 with chain := { (chained 1).chain with present := 2 } } = true :=
  ⟨calm_locked _ rfl, calm_locked _ rfl, calm_locked _ rfl⟩

/-- A drive in a phase of bring-up. -/
def inPhase (p : BootPhase) : State := { boot := { phase := p }, time := lockedTime }
theorem witness_BringUp :
    (inPhase .off).boot.phase = .off ∧ (inPhase .awaiting).boot.phase = .awaiting ∧
    ((inPhase (.stage 1)).boot.phase = .stage 1 ∧ (inPhase (.stage 1)).slotCause ⟨true, true, manifest⟩ = 0 ∧
      (inPhase (.stage 1)).slotCause ⟨false, true, manifest⟩ ≠ 0 ∧ (inPhase (.stage 1)).slotCause ⟨true, false, manifest⟩ ≠ 0 ∧
      ({ inPhase (.stage 1) with sec := { slotCut := true } } : State).slotCause ⟨true, true, manifest⟩ = 2) ∧
    (inPhase (.stage 2)).boot.phase = .stage 2 ∧
    (let x : Training := ⟨0x7FFFFFFF, [0], 3, true, 0, false, 0xFF, 0⟩
     (inPhase (.stage 3)).boot.phase = .stage 3 ∧ x.dramOk = 3 ∧ x.mapOk = true ∧ x.unreachable = false) ∧
    (let u : State := { inPhase (.stage 4) with boot := { (inPhase (.stage 4)).boot with s4Failed := [0, 1, 2, 3] } }
     u.boot.phase = .stage 4 ∧ calm u = true ∧ ∀ d, d < 4 → 64 ≤ (u.passing d).length) ∧
    (let b : Broadcast := ⟨100, 3, [], false⟩
     (inPhase (.stage 5)).boot.phase = .stage 5 ∧ calm (inPhase (.stage 5)) = true ∧ b.failedCores = [] ∧ b.engineFails = false) ∧
    ((inPhase (.stage 6)).boot.phase = .stage 6 ∧ calm (inPhase (.stage 6)) = true ∧ (inPhase (.stage 6)).mapPath ≠ 2 ∧
      ({ inPhase (.stage 6) with ftl := { clean := false } } : State).mapPath = 2) ∧
    (inPhase (.stage 7)).boot.phase = .stage 7 ∧ calm (inPhase (.stage 7)) = true ∧ (inPhase (.stage 8)).boot.phase = .stage 8 ∧ (inPhase (.stage 8)).chain.joining = none := by decide +kernel
/-- R442: from reset, S0 with 12 V starts S1. -/
theorem test_powerOn : (after (.coldPowerOn ⟨true, true, true, true⟩) State.reset).boot.phase = .stage 1 := by decide +kernel

/-! ## Resets, recovery and power -/

theorem witness_ResetsHappen :
    (serving.boot.phase ≠ .off ∧ serving.boot.phase ≠ .shutDown ∧ serving.boot.phase ≠ .faulted ∧ serving.mayRecover .bar2 = true ∧ serving.boot.phase = .ready) ∧
    serving.wedged = false ∧ (∀ j ∈ serving.host.jobs, j.ctrl ≠ (31 : Fin 32).succ) ∧
    (let s := serving
     s.reg.busy = false ∧ (s.unit? 0).map (fun u => u.tiles) = some [0] ∧ gidLevel 0 ≠ 3 ∧ gidLevel 0 ≠ 2 ∧ s.host.xfers = []) ∧
    (let s := serving
     (s.unit? 0x8000).isSome = true ∧ gidLevel 0x8000 = 2 ∧ gidIndex 0x8000 = s.ownPos.toNat ∧ ((s.unit? 0x8000).map (fun u => decide u.tiles.Nodup)) = some true) ∧
    (gidLevel 0xC000 = 3 ∧ serving.unit? 0x4FFF = none) := by decide +kernel

theorem witness_PowerLossAndRecovery :
    (let s : State := { serving with ftl := { clean := false }, sec := { slotWrite := some ⟨manifest, [], 9, none, none⟩ } }
     s.sec.slotWrite ≠ none ∧ s.boot.phase ≠ .off ∧ s.boot.phase ≠ .shutDown ∧ s.ftl.flushed = none ∧ s.ftl.clean = false) ∧
    (let s : State := { serving with pwr := { bank := 75 } }
     ∃ x ∈ s.sensors, x.2.2 ≤ x.1) ∧
    ((serving.ctrl 0).rdy = true ∧ serving.ftl.buf = []) ∧
    (let s : State := { inPhase .recovery with rcv := { imgLen := 4096, received := [0], owner := some .mi } }
     s.boot.phase = .recovery ∧ s.mayRecover .mi = true ∧ s.sec.slotWrite = none ∧ s.recoveryError manifest = 0 ∧ s.recoveryError { manifest with keyDigest := 1 } ≠ 0) ∧
    (0xFF0 : BitVec 12).toNat % 8 = 0 ∧ (0xFF0 : BitVec 12) ≠ 0xFF8 := by decide +kernel
/-- R455: a loss of power cuts the writing of the slot, and the boot ROM then finds no image. -/
theorem test_slot_cut :
    let s : State := { serving with sec := { slotWrite := some ⟨manifest, [], 9, none, none⟩ } }
    (after .powerLoss s).slotCause ⟨true, true, manifest⟩ = 2 := by decide +kernel
/-- R479: 9.8 mF hold the drive for 28.0 ms and give 16,384 slots; 8.0 mF for 22.9 ms and 4,096 slots. -/
theorem test_holdup :
    ((after (.holdup 9800) serving).pwr.th, (after (.holdup 9800) serving).ftl.slots) = (280, 16384) ∧
    ((after (.holdup 8000) serving).pwr.th, (after (.holdup 8000) serving).ftl.slots) = (229, 4096) := by decide +kernel

/-! ## Registers, sensors and power states -/

theorem witness_RegistersAnswer :
    (let s : State := { serving with time := { lockedTime with written := 1, log := [⟨5, false, 0⟩] } }
     s.boot.phase = .ready ∧ s.ringEntry s.time.readAt.toNat = some 0) ∧
    (1 : W64).getLsbD 0 = true ∧ serving.ecc.memsel.toNat < 6 ∧
    ({ serving with ecc := { memsel := 5 } } : State).ecc.memsel.toNat < 6 ∧
    (serving.chainSync = false ∧ scalarRange 1 (0 : W32).toNat = true ∧ scalarRange 2 (20000 : W32).toNat = true ∧ serving.nextOf 3 = 0) ∧
    scalarRange 1 (19999 : W32).toNat = false ∧ miReadable 0x700000 = true ∧ miReadable 0x704FF8 = true ∧ miReadable 0x6FFFF8 = false ∧ miReadable 0x705000 = false ∧ serving.mayRecover .mi = true := by decide +kernel

theorem witness_PowerSensorsAndStates :
    (serving.boot.phase = .ready ∧ (holding base8).obj.trained = 3) ∧
    (let s : State := { serving with media := { chans := [(31, { trained := true })] } }
     (s.chanOf 511).trained = true ∧ (s.die 511).failed = false) ∧
    (let s : State := { serving with pwr := { dram := 90, therm := 125 } }
     (∃ x ∈ s.sensors, x.2.1 ≤ x.1) ∧ 100 < s.pwr.therm) ∧
    (let s : State := { serving with pwr := { bank := 60, therm := 275 } }
     (∀ x ∈ s.sensors, x.1 + 5 ≤ x.2.1) ∧ s.pwr.therm < 300) ∧
    (serving.sec.prod = true ∧ serving.sec.revoked.getLsbD 3 = false) ∧
    ({ serving with sec := { revoked := 8 } } : State).sec.revoked.getLsbD 3 = true ∧
    (let s : State := { serving with pwr := { entering := some 4 } }
     s.pwr.entering = some 4 ∧ s.boot.phase = .ready ∧ s.host.jobs = [] ∧ s.ftl.buf = []) ∧
    (serving.pwr.ps < 3 ∧ serving.pwr.entering = none ∧ serving.host.jobs = []) ∧
    (let s : State := { serving with pwr := { ps := 4, lastOp := 2 } }
     (s.pwr.exiting = true ∨ 3 ≤ s.pwr.ps) ∧ s.pwr.lastOp < 3 ∧ ∀ c, (s.ctrl c).d3 = false) ∧
    (serving.boot.phase ≠ .off ∧ serving.boot.phase ≠ .shutDown ∧ serving.pwr.exiting = false) := by decide +kernel

end Sys2Proof.Tests
end

section
/-! The byte memory (R8): what a write of several bytes changes. -/
namespace Sys2Proof.Machine

/-- A write leaves every address outside its range as it was. -/
theorem Mem.rd_wrBytes_outside (m : Mem) {x a : Nat} (bs : List Byte) (h : x < a ∨ a + bs.length ≤ x) : (m.wrBytes a bs).rd x = m.rd x := by
  induction bs generalizing m a with
  | nil => rfl
  | cons b bs ih =>
    rw [List.length_cons] at h
    rw [Mem.wrBytes, ih _ (by omega), Mem.rd_wr_other m (by omega)]

/-- The bytes written at an address read back from it. -/
@[simp] theorem Mem.rdBytes_wrBytes (m : Mem) (a : Nat) (bs : List Byte) : (m.wrBytes a bs).rdBytes a bs.length = bs := by
  induction bs generalizing m a with
  | nil => rfl
  | cons b bs ih =>
    rw [List.length_cons, Mem.rdBytes, Mem.wrBytes, ih, Mem.rd_wrBytes_outside _ bs (.inl (Nat.lt_succ_self a)), Mem.rd_wr_same]

/-- Settles O9, by the laws of a write of several bytes, each an induction on the bytes. -/
theorem memoryWritesCanonical : Obligations.MemoryWritesCanonical := by
  intro m a bs h
  exact ⟨Mem.wf_wrBytes a bs h, Mem.rdBytes_wrBytes m a bs, fun x hx => Mem.rd_wrBytes_outside m bs hx⟩

end Sys2Proof.Machine
end

section
/-! A saddle that stalls: the obligation's premises leave the logical tile map free, so a tile may stand at the index of another island. -/
namespace Sys2Proof.Machine

/-- An action that stamps a cairn which has to wait comes to nothing yet (R180, R188). -/
theorem State.orStall_of_lt {s t : State} (h : s.time.stalled.length < t.time.stalled.length) : s.orStall t = s := by
  simp [State.orStall, h]

/-- The saddle at a scheduled instant, after the budget has ended, of a drive that waits for no flit. -/
theorem execSaddle_scheduled {s : State} {tn : W64} (dur : BitVec 24) (hr : s.ready = true) (hs : s.canStamp (srcControl 0) = true)
    (hh : s.set.held = false) (ho : s.set.overrun = true) (hn : s.set.nextSaddle = some tn) (hc : s.chainSync = false) :
    execSaddle dur s = .next (s.orStall ((s.reach tn).saddle tn dur)) := by
  have ended : (s.reach tn).set.overrun = true := ho
  have flit : (s.reach tn).needsFlit = false := by simp only [State.needsFlit, show (s.reach tn).chainSync = false from hc, Bool.false_and]
  simp [execSaddle, hr, hs, hh, hn, ended, flit]

/-- A drive at S8 at the instant of its saddle. Its failed tile 0 is to move to spare 64, and the tile map has it at physical index 0x170, the source of
control core 0: resetting the tile's old island takes the lock of the island that stamps the rest of the saddle's cairns. -/
def tileAtControlCore : State :=
  { boot := { phase := .ready }, time := { islands := islandIds.map (fun k => (k, { locked := true })), logUp := true },
    set := { overrun := true, nextSaddle := some 250000 },
    tiles := [(0, { halted := some none, spare := some 64, phys := some 0x170 })] }

theorem calm_tileAtControlCore : calm tileAtControlCore = true := by decide +kernel

/-- GROUP_RESET and what follows it find the island of control core 0 unlocked, and wait. -/
theorem saddle_tileAtControlCore_stalls :
    tileAtControlCore.time.stalled.length < ((tileAtControlCore.reach 250000).saddle 250000 0).time.stalled.length := by decide +kernel

/-- So the saddle as a whole comes to nothing yet. -/
theorem saddle_tileAtControlCore_waits : exec (.saddle 0) tileAtControlCore = .next tileAtControlCore :=
  (execSaddle_scheduled 0 rfl (by decide +kernel) rfl rfl rfl rfl).trans (congrArg _ (State.orStall_of_lt saddle_tileAtControlCore_stalls))

/-- Refutes O39: calm islands at the start do not keep the saddle from stalling (R180), for a failed tile that the saddle replaces has its old island
reset, and no premise keeps that island apart from the ones that stamp afterwards. The step number of `tileAtControlCore` does not rise. -/
theorem not_saddleCommits : ¬ Obligations.SaddleCommits := by
  rintro ⟨⟨saddle, -⟩, -⟩
  obtain ⟨t, run, step, -⟩ := saddle 0 tileAtControlCore rfl rfl rfl rfl rfl rfl rfl .nil (.inl rfl) calm_tileAtControlCore
  rw [saddle_tileAtControlCore_waits] at run
  cases run
  exact absurd step (by decide)

end Sys2Proof.Machine
end

section
/-! The registers of BAR2 and BAR0, and the management path (00 R11, R12; 07 R189, R197, R199; 11 R327; 13 R385; 14 R422; 16 R487, R488). -/
namespace Sys2Proof.Machine

/-! ## What S8 lets a register path do -/

theorem State.presents_of_ready {s : State} (h : s.boot.phase = .ready) : s.presents = true := by simp [State.presents, h]
theorem State.answers_of_ready {s : State} (h : s.boot.phase = .ready) : s.answers = true := by simp [State.answers, h]

/-! ## The cairn-log region (R189) -/

theorem execCldataRead_low {s : State} {i : Nat} (h : s.boot.phase = .ready) (hi : s.ringEntry s.time.readAt.toNat = some i) :
    execCldataRead false s = .next { s with reg := { s.reg with read := some ((s.logEntry i).setWidth 64) } } := by
  simp [execCldataRead, State.presents_of_ready h, hi, halfOf]

/-- The log after CLDATA has returned the high half of entry `i`: that entry alone is marked read. -/
def State.logSeen (s : State) (i : Nat) : List LogEntry :=
  s.time.log.zipIdx.map (fun (x : LogEntry × Nat) => if x.2 + 1 + i = s.time.written.toNat then { x.1 with seen := true } else x.1)

theorem execCldataRead_high {s : State} {i : Nat} (h : s.boot.phase = .ready) (hi : s.ringEntry s.time.readAt.toNat = some i) :
    execCldataRead true s = .next { s with reg := { s.reg with read := some ((s.logEntry i).extractLsb' 64 64) },
                                           time := { s.time with log := s.logSeen i, readAt := s.time.readAt + 1 } } := by
  simp [execCldataRead, State.presents_of_ready h, hi, halfOf, State.logSeen]

/-- Marking an entry read keeps the bits of every entry. -/
theorem State.bits_logSeen (s : State) (i : Nat) : (s.logSeen i).map (fun e => e.bits) = s.time.log.map (fun e => e.bits) := by
  have mark (x : LogEntry × Nat) :
      (if x.2 + 1 + i = s.time.written.toNat then { x.1 with seen := true } else x.1 : LogEntry).bits = x.1.bits := by split <;> rfl
  calc (s.logSeen i).map (fun e => e.bits)
      = s.time.log.zipIdx.map (fun x => x.1.bits) := by simp only [State.logSeen, List.map_map, Function.comp_def, mark]
    _ = (s.time.log.zipIdx.map Prod.fst).map (fun e => e.bits) := by rw [List.map_map]; rfl
    _ = s.time.log.map (fun e => e.bits) := by rw [List.zipIdx_map_fst]

/-! ## Staging a scalar setting (R199) -/

/-- A value of a scalar setting stands in the staged copy. -/
def State.stageScalar (s : State) (num : Nat) (value : W64) : State := { s with set := { s.set with pend := put num value s.set.pend } }

@[simp] theorem State.stageScalar_nextOf_same (s : State) (num : Nat) (value : W64) : (s.stageScalar num value).nextOf num = value := by
  simp [State.nextOf, State.stageScalar]
theorem State.stageScalar_nextOf_other (s : State) {n num : Nat} (h : n ≠ num) (value : W64) : (s.stageScalar num value).nextOf n = s.nextOf n := by
  simp [State.nextOf, State.stageScalar, State.liveOf, find_put_other h]
@[simp] theorem State.stageScalar_liveOf (s : State) (n num : Nat) (value : W64) : (s.stageScalar num value).liveOf n = s.liveOf n := rfl
@[simp] theorem State.stageScalar_refused (s : State) (num : Nat) (value : W64) : (s.stageScalar num value).set.refused = s.set.refused := rfl

/-- Outside chain-synchronous steps every change is staged in the drive itself (R202). -/
theorem State.stageChange_local {s : State} (h : s.chainSync = false) (num : Nat) (key value : W64) (members : List W16) :
    s.stageChange num key value members = s.stageLocal num key value members := by
  simp [State.stageChange, State.toMaster, h]

/-- STEP_PERIOD in its range is staged, unless it is 0 where CHAIN_SYNC would be 1 (R199, R201). -/
theorem State.stageLocal_period {s : State} {value : W64} (hr : scalarRange 1 value.toNat = true) (hp : pairOk value (s.nextOf 3) = true) :
    s.stageLocal 1 0 value [] = .ok (0, s.stageScalar 1 value) := by
  simp [State.stageLocal, State.stageScalar, scalarDefault, hr, hp]
/-- STEP_LIMIT in its range is staged (R201). -/
theorem State.stageLocal_limit {s : State} {value : W64} (hr : scalarRange 2 value.toNat = true) :
    s.stageLocal 2 0 value [] = .ok (0, s.stageScalar 2 value) := by
  simp [State.stageLocal, State.stageScalar, scalarDefault, hr]
/-- STEP_PERIOD out of its range is refused (R199). -/
theorem State.stageLocal_period_refused {s : State} {value : W64} (hr : scalarRange 1 value.toNat = false) :
    s.stageLocal 1 0 value [] = .error stInvalidField := by
  simp [State.stageLocal, hr]

@[simp] theorem lo32_append (hi lo : W32) : lo32 (hi ++ lo) = lo := BitVec.setWidth_append_eq_right
@[simp] theorem hi32_append (hi lo : W32) : hi32 (hi ++ lo) = hi := BitVec.extractLsb'_append_eq_left
/-- A 32-bit value and its zero extension lie in the same ranges. -/
theorem scalarRange_setWidth (n : Nat) (x : W32) : scalarRange n (x.setWidth 64).toNat = scalarRange n x.toNat := by
  rw [BitVec.toNat_setWidth_of_le (by decide)]

theorem pairOk_iff (period sync : W64) : pairOk period sync = true ↔ ¬ (period = 0 ∧ sync ≠ 0) := by
  rw [pairOk, Bool.not_eq_true', ← Bool.not_eq_true, Bool.and_eq_true, beq_iff_eq, bne_iff_ne]

/-- A period and a limit in their ranges are both staged (R197, R199). -/
theorem State.writeStepctl_staged {s : State} {lo hi : W32} (hc : s.chainSync = false) (h1 : scalarRange 1 lo.toNat = true)
    (h2 : scalarRange 2 hi.toNat = true) (hp : ¬ (lo = 0 ∧ s.nextOf 3 ≠ 0)) :
    s.writeStepctl (hi ++ lo) true true = (s.stageScalar 1 (lo.setWidth 64)).stageScalar 2 (hi.setWidth 64) := by
  have zero : lo.setWidth 64 = 0 ↔ lo = 0 := by constructor <;> intro h <;> bv_omega
  have period := State.stageLocal_period (s := s) (value := lo.setWidth 64) ((scalarRange_setWidth 1 lo).trans h1)
    ((pairOk_iff _ _).mpr (by rwa [zero]))
  have limit := State.stageLocal_limit (s := s.stageScalar 1 (lo.setWidth 64)) (value := hi.setWidth 64) ((scalarRange_setWidth 2 hi).trans h2)
  simp only [State.writeStepctl, if_true, Bool.not_true, Bool.false_eq_true, if_false, lo32_append, hi32_append, State.stageChange_local hc, period,
    State.stageChange_local (s := s.stageScalar 1 (lo.setWidth 64)) hc, limit]

/-- A period out of its range refuses the whole write (R199). -/
theorem State.writeStepctl_refused {s : State} {lo : W32} (hi : W32) (hc : s.chainSync = false) (h1 : scalarRange 1 lo.toNat = false) :
    s.writeStepctl (hi ++ lo) true true = s.refuseStage 1 := by
  have period := State.stageLocal_period_refused (s := s) (value := lo.setWidth 64) ((scalarRange_setWidth 1 lo).trans h1)
  simp only [State.writeStepctl, if_true, lo32_append, State.stageChange_local hc, period]

theorem execStepctlWrite_presented {s : State} (h : s.presents = true) (v : W64) (lo hi : Bool) :
    execStepctlWrite v lo hi s = .next (s.writeStepctl v lo hi) := by
  simp [execStepctlWrite, h]

/-! ## Counters that a 1 clears (R327, R422) -/

theorem execChclr_clears {s : State} {v : W64} (h : s.presents = true) (hv : v.getLsbD 0 = true) :
    execChclr v s = .next { s with media := { s.media with
      chans := put s.media.chsel.toNat { trained := (getD {} s.media.chans s.media.chsel.toNat).trained } s.media.chans } } := by
  simp only [execChclr, State.writeChclr, h, hv, Bool.not_true, Bool.false_eq_true, if_true, if_false]

theorem execEccclr_clears {s : State} {v : W64} (h : s.presents = true) (hv : v.getLsbD 0 = true) (hk : s.ecc.memsel.toNat < 6) :
    execEccclr v s = .next (s.setEccKind s.ecc.memsel.toNat { s.eccKind s.ecc.memsel.toNat with ce := 0, ue := 0 }) := by
  have implemented : decide (6 ≤ s.ecc.memsel.toNat) = false := decide_eq_false (Nat.not_le.mpr hk)
  simp only [execEccclr, State.writeEccclr, h, hv, implemented, Bool.not_true, Bool.or_false, Bool.false_eq_true, if_true, if_false]

/-! ## BAR2 through the host and through NVMe-MI (R11, R488) -/

theorem execRegisterWrite_ready {s : State} (h : s.boot.phase = .ready) (off : W32) (v : W64) :
    execRegisterWrite off v s = .next (s.writeBar2 off.toNat v) := by
  simp [execRegisterWrite, State.presents_of_ready h]

theorem execRegisterRead_readable {s : State} (h : s.boot.phase = .ready) {off : W32} (hr : miReadable off.toNat = true) :
    execRegisterRead off s = .next (({ s with reg := { s.reg with read := some (s.readBar2 off.toNat) } } : State).respond
      (miOk :: leBytes 8 (s.readBar2 off.toNat).toNat)) := by
  simp [execRegisterRead, State.answers_of_ready h, hr]

theorem execRegisterRead_invalid {s : State} (h : s.boot.phase = .ready) {off : W32} (hr : miReadable off.toNat = false) :
    execRegisterRead off s = .next (s.respond [miInvalid]) := by
  simp [execRegisterRead, State.answers_of_ready h, hr]

/-- A write of RCVCTL with its low half 0, ENTER, RESET and COMMIT among it, is one of IMGLEN and CHUNK (R456). -/
theorem State.writeRcvctl_imglen (s : State) (p : MgmtPath) (len : W32) :
    s.writeRcvctl p (len ++ (0 : W32)) = s.writeImglen p (len ++ (0 : W32)) := by
  have low (i : Nat) (hi : i < 32) : (len ++ (0 : W32)).getLsbD i = false := by
    rw [BitVec.getLsbD_append, if_pos hi]
    exact BitVec.getLsbD_zero
  simp only [State.writeRcvctl, low 0 (by decide), low 1 (by decide), low 2 (by decide), Bool.false_eq_true, if_false, Bool.false_and]

@[simp] theorem State.writeImglen_host (s : State) (p : MgmtPath) (v : W64) : (s.writeImglen p v).host = s.host := by
  unfold State.writeImglen
  split <;> rfl

theorem State.writeImglen_imgLen {s : State} {p : MgmtPath} (ha : s.answers = true) (hm : s.mayRecover p = true) (v : W64) :
    (s.writeImglen p v).rcv.imgLen = hi32 v := by
  simp [State.writeImglen, ha, hm]

theorem execMiRegisterWrite_rcvctl {s : State} (h : s.boot.phase = .ready) (len : W32) :
    execMiRegisterWrite 0x700100 (len ++ (0 : W32)) s = .next ((s.respond [miOk]).writeImglen .mi (len ++ (0 : W32))) := by
  rw [← State.writeRcvctl_imglen]
  simp [execMiRegisterWrite, State.answers_of_ready h, State.writeMgmt]

theorem execMiRegisterWrite_invalid {s : State} (h : s.boot.phase = .ready) (v : W64) :
    execMiRegisterWrite 0x300000 v s = .next (s.respond [miInvalid]) := by
  simp [execMiRegisterWrite, State.answers_of_ready h]

theorem execBasicManagementCommand_answered {s : State} (h : s.answers = true) :
    execBasicManagementCommand s = .next (({ s with freeCtr := s.freeCtr + 1 } : State).respond ((List.range 32).map (Config.basicByte s.freeCtr))) := by
  simp [execBasicManagementCommand, State.draw, h]

/-! ## BAR0 (R385, R386) -/

theorem State.readBar0_cap (s : State) (c : Fin 33) :
    (s.readBar0 c 0).toNat = 0x3FFF + 2 ^ 16 + 120 * 2 ^ 24 ∧ (s.readBar0 c 4).toNat = 2 ^ 4 + 2 ^ 11 + 4 * 2 ^ 20 := by
  constructor <;> simp [State.readBar0] <;> decide

/-- CSTS.RDY and CSTS.CFS. -/
theorem State.readBar0_csts (s : State) (c : Fin 33) :
    (s.readBar0 c 0x1C).getLsbD 0 = (s.ctrl c).rdy ∧ (s.readBar0 c 0x1C).getLsbD 1 = (s.ctrl c).cfs := by
  have word : s.readBar0 c 0x1C =
      lo32 (regOf [bitAt 0 (s.ctrl c).rdy, bitAt 1 (s.ctrl c).cfs, fieldAt 2 2 (if (s.ctrl c).shst then 2 else 0)]) := by simp [State.readBar0]
  rw [word]
  generalize (s.ctrl c).rdy = r, (s.ctrl c).cfs = f, (s.ctrl c).shst = d
  revert r f d
  decide

theorem State.readBar0_cc_en (s : State) (c : Fin 33) : (s.readBar0 c 0x14).getLsbD 0 = (s.ctrl c).en := by
  have word : s.readBar0 c 0x14 = (Config.bar0Word s.freeCtr c.val 0x14 &&& 0xFFFFFFFE) ||| (if (s.ctrl c).en then 1 else 0) := by
    simp [State.readBar0]
  rw [word]
  cases (s.ctrl c).en <;> simp

/-- Past the queues' registers and before the vector table nothing is implemented, and a word reads 0. -/
theorem State.readBar0_unimplemented (s : State) (c : Fin 33) {off : Nat} (h1 : 0x38 ≤ off) (h2 : off < if c = 0 then 0x4000 else 0x2000) :
    s.readBar0 c off = 0 := by
  simp only [State.readBar0]
  split at h2
  all_goals
    simp only [*, if_true, if_false]
    repeat rw [if_neg (by omega)]

/-! ## The obligation -/

/-- Settles O58: each clause is what one register's access comes to at S8. -/
theorem registersAnswer : Obligations.RegistersAnswer := by
  intro s h
  have hp := State.presents_of_ready h
  have ha := State.answers_of_ready h
  refine ⟨fun i hi => ?_, fun value hv => ?_, fun value hv hk => ?_, fun lo hi hc h1 h2 hn => ?_, fun lo hi hc h1 => ?_, fun v => ?_,
    fun off hr => ?_, fun off hr => execRegisterRead_invalid h hr, fun v => ⟨execMiRegisterWrite_invalid h v, ?_⟩, ?_, fun c => ?_⟩
  · exact ⟨_, _, execCldataRead_low h hi, rfl, rfl, execCldataRead_high h hi, rfl, rfl, s.bits_logSeen i⟩
  · exact ⟨_, execChclr_clears hp hv, getD_put_same _ _ _ _, fun c hc => getD_put_other _ hc _ _⟩
  · exact execEccclr_clears hp hv hk
  · refine ⟨_, (execStepctlWrite_presented hp _ true true).trans (congrArg _ (State.writeStepctl_staged hc h1 h2 hn)), ?_, ?_, by simp, by simp⟩
    · rw [State.stageScalar_nextOf_other _ (by decide), State.stageScalar_nextOf_same]
    · exact State.stageScalar_nextOf_same _ _ _
  · refine ⟨_, (execStepctlWrite_presented hp _ true true).trans (congrArg _ (State.writeStepctl_refused hi hc h1)), ?_, ?_, ?_⟩ <;>
      simp [State.refuseStage]
  · refine ⟨?_, ?_, ?_, ?_, ?_, ?_⟩ <;> exact execRegisterWrite_ready h _ v
  · exact ⟨_, execRegisterRead_readable h hr, rfl, rfl⟩
  · exact ⟨_, execMiRegisterWrite_rcvctl h (hi32 v), by simp [State.respond, miOk], fun hm =>
      (State.writeImglen_imgLen (s := s.respond [miOk]) ha hm _).trans (hi32_append _ _)⟩
  · exact ⟨_, _, execBasicManagementCommand_answered ha, rfl, by simp⟩
  · obtain ⟨low, high⟩ := s.readBar0_cap c
    obtain ⟨rdy, cfs⟩ := s.readBar0_csts c
    exact ⟨low, high, rdy, cfs, s.readBar0_cc_en c, fun off h1 h2 => s.readBar0_unimplemented c h1 h2⟩

end Sys2Proof.Machine
end

section
/-! A calm drive takes every cairn at once (R180, R188), so an instruction that is ready comes to its own effect. -/
namespace Sys2Proof.Machine

/-! ## Stamps of a calm drive -/

/-- Whether a drive is calm depends on its time alone. -/
theorem calm_congr {s t : State} (h : t.time = s.time) : calm t = calm s := by rw [calm, calm, h]

theorem State.canStamp_of_calm {s : State} (h : calm s = true) (src : BitVec 9) : s.canStamp src = true := by
  rw [calm, Bool.and_eq_true, List.all_eq_true] at h
  obtain ⟨up, locked⟩ := h
  have queue : s.time.queued src = 0 := by rw [TimeSt.queued, if_pos up]
  have takes : ((s.island src).locked || !isIsland src.toNat) = true := by
    cases h : isIsland src.toNat with
    | false => rw [Bool.not_false, Bool.or_true]
    | true =>
      have lt : src.toNat < 0x180 := by
        refine Nat.lt_of_not_le fun ge => ?_
        simp only [isIsland, Bool.or_eq_true, Bool.and_eq_true, decide_eq_true_eq, beq_iff_eq] at h
        omega
      have mem : src.toNat ∈ islandIds := List.mem_filter.mpr ⟨List.mem_range.mpr lt, h⟩
      rw [State.island, locked _ mem, Bool.true_or]
  rw [State.canStamp, takes, queue]
  rfl

@[simp] theorem TimeSt.stalled_logCairn (t : TimeSt) (b : W128) (a : List W128) : (t.logCairn b a).stalled = t.stalled := by
  unfold TimeSt.logCairn
  split <;> rfl
@[simp] theorem TimeSt.logUp_logCairn (t : TimeSt) (b : W128) (a : List W128) : (t.logCairn b a).logUp = t.logUp := by
  unfold TimeSt.logCairn
  split <;> rfl
@[simp] theorem TimeSt.islands_logCairn (t : TimeSt) (b : W128) (a : List W128) : (t.logCairn b a).islands = t.islands := by
  unfold TimeSt.logCairn
  split <;> rfl

/-- A cairn that is stamped makes nothing wait. -/
theorem State.stalled_stampTimed (s : State) (time : W64) (src : BitVec 9) (k : Byte) (d : BitVec 28) (a : List W128) :
    (s.stampTimed time src k d a).2.time.stalled = s.time.stalled := by
  simp only [State.stampTimed]
  split <;> simp only [TimeSt.errCairn, TimeSt.stalled_logCairn]

/-- A cairn that is stamped unlocks no island. -/
theorem State.calm_stampTimed {s : State} (h : calm s = true) (time : W64) (src : BitVec 9) (k : Byte) (d : BitVec 28) (a : List W128) :
    calm (s.stampTimed time src k d a).2 = true := by
  rw [calm, Bool.and_eq_true, List.all_eq_true] at h ⊢
  obtain ⟨up, locked⟩ := h
  have kept (seq : BitVec 16) (last : W64) (n : Nat) (hn : n ∈ islandIds) :
      (getD {} (put src.toNat { s.island src with seq := seq, last := last } s.time.islands) n).locked = true := by
    rw [getD_put]
    split
    · next e => subst e; exact locked _ hn
    · exact locked n hn
  simp only [State.stampTimed]
  constructor
  · split <;> simp only [TimeSt.errCairn, TimeSt.logUp_logCairn, up]
  · intro n hn
    split <;> simpa only [TimeSt.errCairn, TimeSt.islands_logCairn] using kept _ _ n hn

theorem State.stampAt_of_calm {s : State} (h : calm s = true) (src : BitVec 9) (k : Byte) (d : BitVec 28) (a : List W128) :
    s.stampAt src k d a = (s.stampNow src k d a).2 := by
  rw [State.stampAt, State.stampOf, if_pos (State.canStamp_of_calm h src), State.stampNow]
theorem State.stalled_stampAt {s : State} (h : calm s = true) (src : BitVec 9) (k : Byte) (d : BitVec 28) (a : List W128) :
    (s.stampAt src k d a).time.stalled = s.time.stalled := by
  rw [State.stampAt_of_calm h]
  exact State.stalled_stampTimed _ _ _ _ _ _
theorem State.calm_stampAt {s : State} (h : calm s = true) (src : BitVec 9) (k : Byte) (d : BitVec 28) (a : List W128) :
    calm (s.stampAt src k d a) = true := by
  rw [State.stampAt_of_calm h]
  exact State.calm_stampTimed h _ _ _ _ _
theorem State.stalled_stampIf {s : State} (h : calm s = true) (b : Bool) (ag : Agent) (pc : W64) :
    (s.stampIf b ag pc).time.stalled = s.time.stalled := by
  unfold State.stampIf
  split
  · exact State.stalled_stampAt h _ _ _ _
  · rfl
theorem State.calm_stampIf {s : State} (h : calm s = true) (b : Bool) (ag : Agent) (pc : W64) : calm (s.stampIf b ag pc) = true := by
  unfold State.stampIf
  split
  · exact State.calm_stampAt h _ _ _ _
  · exact h

/-! ## What becomes of an instruction on a calm drive -/

theorem State.stalled_takeTrap {s : State} (h : calm s = true) (ag : Agent) (v : Nat) (x : W64) (b : Bool) :
    (s.takeTrap ag v x b).time.stalled = s.time.stalled := by
  have stamped (r : Regs) (src : BitVec 9) (d : BitVec 28) (a : List W128) :
      ((s.setRegs ag r).stampAt src 0x31 d a).time.stalled = s.time.stalled :=
    (State.stalled_stampAt ((calm_congr (State.setRegs_time _ _ _)).trans h) _ _ _ _).trans
      (congrArg TimeSt.stalled (State.setRegs_time _ _ _))
  simp only [State.takeTrap]
  split
  · rw [State.updJobQ_time, stamped]
  · exact stamped _ _ _ _

theorem State.stalled_refused {s : State} (h : calm s = true) (ag : Agent) (w : IWord) (code : W16) :
    (s.refused ag w code).time.stalled = s.time.stalled := by
  have time (r : Regs) : (s.setRegs ag r).time = s.time := State.setRegs_time _ _ _
  have still (r : Regs) : calm (s.setRegs ag r) = true := (calm_congr (time r)).trans h
  have stamped (r : Regs) : ((s.setRegs ag r).stampIf w.stamp ag (s.regs ag).pc).time.stalled = s.time.stalled := by
    rw [State.stalled_stampIf (still r), time]
  simp only [State.refused]
  split
  · rw [State.stalled_takeTrap (State.calm_stampIf (still _) _ _ _), stamped]
  · rw [State.updRegs_time, stamped]

@[simp] theorem State.awaits_time (s : State) (ag : Agent) (ds : List Nat) : (s.awaits ag ds).time = s.time := by cases ag <;> rfl

/-- Finishing an instruction whose own effect leaves the drive's time as it was makes nothing wait. -/
theorem stalled_finish {s : State} (h : calm s = true) (o : Op) (ag : Agent) (w : IWord) (a : Act) (ha : (a.left s).time = s.time) :
    (finish o ag w s a).time.stalled = s.time.stalled := by
  have stamped {u : State} (hu : u.time = s.time) (pc : W64) : (u.stampIf w.stamp ag pc).time.stalled = s.time.stalled := by
    rw [State.stalled_stampIf ((calm_congr hu).trans h), hu]
  cases a with
  | done u | jump u _ =>
    exact stamped (by rw [State.updRegs_time, State.accepted_time]; exact ha) _
  | stopped u => exact stamped ha _
  | async u | park u _ => simp only [finish, State.updRegs_time, State.accepted_time]; exact congrArg _ ha
  | await u ds => simp only [finish, State.awaits_time]; exact congrArg _ ha
  | hold => rfl
  | trap v x => exact State.stalled_takeTrap h _ _ _ _
  | trapIn u v x => exact (State.stalled_takeTrap ((calm_congr ha).trans h) _ _ _ _).trans (congrArg _ ha)
  | refuse code => exact State.stalled_refused h _ _ _

/-! ## The fetch: it records an error of the instruction store and changes nothing else (R420) -/

@[simp] theorem fetched_time (ag : Agent) (w : IWord) (s : State) : (fetched ag w s).time = s.time := by
  unfold fetched
  split <;> rfl
@[simp] theorem fetched_host (ag : Agent) (w : IWord) (s : State) : (fetched ag w s).host = s.host := by
  unfold fetched
  split <;> rfl
@[simp] theorem fetched_tiles (ag : Agent) (w : IWord) (s : State) : (fetched ag w s).tiles = s.tiles := by
  unfold fetched
  split <;> rfl

@[simp] theorem crecPending_fetched (g : Agent) (w : IWord) (s : State) (ag : Agent) : (fetched g w s).crecPending ag = s.crecPending ag := by
  cases ag with
  | core t c => rw [State.crecPending, State.tile, fetched_tiles, ← State.tile]; rfl
  | ctx e k => rfl

/-! ## The issue -/

/-- The issue of an instruction that is ready (R110, R121, R180): what its own effect comes to after the fetch, when that effect stamps nothing. -/
theorem issue_of_ready {i : Instr} {ag : Agent} {w : IWord} {o : Op} {s : State} (body : State → Act) (hi : opOf i = some (ag, w, o))
    (hr : ready i s = true) (hb : ∀ u, ((body u).left u).time = u.time) :
    s.issue o ag w body = finish o ag w (fetched ag w s) (body (fetched ag w s)) := by
  simp only [ready, hi, Bool.and_eq_true] at hr
  obtain ⟨⟨⟨fetch, legal⟩, pred⟩, still⟩ := hr
  have after : calm (fetched ag w s) = true := (calm_congr (fetched_time ag w s)).trans still
  refine State.issue_effect body fetch legal pred (Nat.le_of_eq ?_)
  rw [stalled_finish after o ag w _ (hb _), fetched_time]

/-! ## What finishing an instruction adds to its effect -/

@[simp] theorem State.core_setRegs_same (s : State) (t : Fin 256) (c : Fin 4) (r : Regs) :
    (s.setRegs (.core t c) r).core t.val c.val = { s.core t.val c.val with r := r } := State.core_setCore_same _ _ _ _
@[simp] theorem State.setRegs_sram (s : State) (ag : Agent) (r : Regs) (n : Nat) : ((s.setRegs ag r).tile n).sram = (s.tile n).sram := by
  cases ag with
  | core t c => exact State.setCore_sram _ _ _ _ _
  | ctx e k => rfl

/-- The tiles and the cores depend on the map of the tiles alone. -/
theorem State.tile_congr {s t : State} (h : t.tiles = s.tiles) (n : Nat) : t.tile n = s.tile n := by rw [State.tile, State.tile, h]
theorem State.core_congr {s t : State} (h : t.tiles = s.tiles) (n c : Nat) : t.core n c = s.core n c := by
  rw [State.core, State.core, State.tile_congr h]

/-- A write of a core that keeps its scalar side changes no agent's scalar side. -/
theorem State.regs_setCore_of_r {s : State} {t c : Nat} {k : Core} (h : k.r = (s.core t c).r) (b : Agent) : (s.setCore t c k).regs b = s.regs b := by
  cases b with
  | core u d =>
    by_cases e : u.val = t ∧ d.val = c
    · obtain ⟨rfl, rfl⟩ := e
      rw [State.regs, State.core_setCore_same, h, State.regs]
    · rw [State.regs, State.core_setCore_other s (by omega), State.regs]
  | ctx e k => rfl

/-- The jobs depend on the host side alone. -/
theorem State.job?_congr {s t : State} (h : t.host = s.host) (n : Nat) : t.job? n = s.job? n := by rw [State.job?, State.job?, h]

/-- What a counter block has taken depends on the jobs alone. -/
theorem counted_of_hosts {job : Option Nat} {ct : Counts} {s u s' u' : State} (h : Claims.counted job ct s u) (hs : s'.host = s.host)
    (hu : u'.host = u.host) : Claims.counted job ct s' u' := by
  intro n j hj find
  rw [State.job?_congr hs] at find
  rw [State.job?_congr hu]
  exact h n j hj find

theorem counted_count (s : State) (job : Option Nat) (ct : Counts) : Claims.counted job ct s (s.count job ct) := by
  intro n j hj find
  have counts := State.job?_updJob_same s n (fun j => { j with counts := j.counts.add ct }) (fun _ => rfl)
  rw [hj, State.count, State.updJob?, counts, find]
  rfl

/-- An accepted instruction writes at most its agent's scalar side (R123). -/
theorem State.accepted_eq_setRegs (s : State) (o : Op) (ag : Agent) : s.accepted o ag = s ∨ ∃ r, s.accepted o ag = s.setRegs ag r := by
  unfold State.accepted
  split
  · exact .inr ⟨_, rfl⟩
  · exact .inl rfl

variable (o : Op) (ag : Agent) (w : IWord) (s u : State)

@[simp] theorem finish_done_host : (finish o ag w s (.done u)).host = u.host := by
  simp only [finish, State.stampIf_host, State.updRegs_host, State.accepted_host]

theorem sameSram_finish_done : sameSram u (finish o ag w s (.done u)) := by
  intro n a
  rw [finish, State.tile_congr (State.stampIf_tiles _ _ _ _), State.updRegs, State.setRegs_sram]
  obtain h | ⟨r, h⟩ := u.accepted_eq_setRegs o ag
  · rw [h]
  · rw [h, State.setRegs_sram]

theorem sameOthers_finish_done : sameOthers ag u (finish o ag w s (.done u)) := by
  intro b hb
  rw [finish, State.regs_stampIf, State.regs_updRegs_other _ hb]
  obtain h | ⟨r, h⟩ := u.accepted_eq_setRegs o ag
  · rw [h]
  · rw [h, State.regs_setRegs_other _ hb]

/-- An instruction of a core that is done changes the core's scalar side alone. -/
theorem core_finish_done (t : Fin 256) (c : Fin 4) :
    ∃ r, (finish o (.core t c) w s (.done u)).core t.val c.val = { u.core t.val c.val with r := r } := by
  rw [finish, State.core_congr (State.stampIf_tiles _ _ _ _), State.updRegs, State.core_setRegs_same]
  obtain h | ⟨r, h⟩ := u.accepted_eq_setRegs o (.core t c)
  · exact ⟨_, by rw [h]⟩
  · exact ⟨_, by rw [h, State.core_setRegs_same]⟩

end Sys2Proof.Machine
end

section
/-! A core's registers after a write: the lanes of a vector register, an extreme register, and a half of SRSTATE (R49, R71, R106). -/
namespace Sys2Proof.Machine

@[simp] theorem Core.rv_wv_same (k : Core) (n : BitVec 5) (l : Nat) (x : W32) : (k.wv n l x).rv n l = x := getD_putD_same _ _ _ _
theorem Core.rv_wv_other (k : Core) {m n : BitVec 5} {i l : Nat} (h : 64 * m.toNat + i ≠ 64 * n.toNat + l) (x : W32) :
    (k.wv n l x).rv m i = k.rv m i := getD_putD_other _ h _ _

/-- Two lanes below 64 of different registers are different lanes of the file. -/
theorem lane_ne {m n : BitVec 5} (h : m ≠ n) {i l : Nat} (hi : i < 64) (hl : l < 64) : 64 * m.toNat + i ≠ 64 * n.toNat + l := by
  have : m.toNat ≠ n.toNat := fun e => h (BitVec.eq_of_toNat_eq e)
  omega

theorem Core.rv_wvs_other (k : Core) {m n : BitVec 5} (h : m ≠ n) {ws : List (Nat × W32)} (hw : ∀ e ∈ ws, e.1 < 64) {i : Nat} (hi : i < 64) :
    (k.wvs n ws).rv m i = k.rv m i := by
  induction ws generalizing k with
  | nil => rfl
  | cons e ws ih =>
    obtain ⟨l, x⟩ := e
    obtain ⟨hl, hw⟩ := List.forall_mem_cons.mp hw
    rw [Core.wvs, ih _ hw, Core.rv_wv_other _ (lane_ne h hi hl)]

/-- Writes of a register's lanes change the vector registers alone. -/
theorem Core.wvs_eq (k : Core) (n : BitVec 5) (ws : List (Nat × W32)) : k.wvs n ws = { k with v := (k.wvs n ws).v } := by
  induction ws generalizing k with
  | nil => rfl
  | cons e ws ih => exact ih (k.wv n e.1 e.2)

/-- The lanes from `i` on, each with its element of a list. -/
def lanesFrom (i : Nat) (xs : List W32) : List (Nat × W32) := (xs.zipIdx i).map (fun x => (x.2, x.1))

theorem mem_lanesFrom {i : Nat} {xs : List W32} {e : Nat × W32} (h : e ∈ lanesFrom i xs) : e.1 < i + xs.length := by
  obtain ⟨x, hx, rfl⟩ := List.mem_map.mp h
  exact (List.mem_zipIdx hx).2.1

/-- A register after a list has been written to its lanes from `i` on. -/
theorem Core.rv_wvs_lanesFrom (k : Core) (n : BitVec 5) (i : Nat) (xs : List W32) (l : Nat) :
    (k.wvs n (lanesFrom i xs)).rv n l = if i ≤ l then (xs[l - i]?).getD (k.rv n l) else k.rv n l := by
  induction xs generalizing k i with
  | nil => split <;> rfl
  | cons x xs ih =>
    have step : k.wvs n (lanesFrom i (x :: xs)) = (k.wv n i x).wvs n (lanesFrom (i + 1) xs) := rfl
    rw [step, ih]
    rcases Nat.lt_trichotomy l i with h | rfl | h
    · rw [if_neg (by omega), if_neg (by omega), Core.rv_wv_other _ (by omega)]
    · rw [if_neg (Nat.not_succ_le_self l), if_pos (Nat.le_refl l), Core.rv_wv_same, Nat.sub_self, List.getElem?_cons_zero, Option.getD_some]
    · rw [if_pos (by omega), if_pos (by omega), Core.rv_wv_other _ (by omega), show l - i = l - (i + 1) + 1 by omega, List.getElem?_cons_succ]

@[simp] theorem length_lanesOf (x : Nat) : (lanesOf x).length = 64 := by rw [lanesOf, List.length_map, List.length_range]

@[simp] theorem Core.rext_wext_same (k : Core) (n : Nat) (x : W128) : (k.wext n x).rext n = x := getD_putD_same _ _ _ _
theorem Core.rext_wext_other (k : Core) {m n : Nat} (h : m ≠ n) (x : W128) : (k.wext n x).rext m = k.rext m := getD_putD_other _ h _ _

theorem low_setHalf_low (x : W128) (v : W64) : (setHalf x 0 v).extractLsb' 0 64 = v := BitVec.extractLsb'_append_eq_right
theorem high_setHalf_low (x : W128) (v : W64) : (setHalf x 0 v).extractLsb' 64 64 = x.extractLsb' 64 64 := BitVec.extractLsb'_append_eq_left

end Sys2Proof.Machine
end

section
/-! The convert group (06 R149 to R151): the converts are one instruction, each over its own function of the core. -/
namespace Sys2Proof.Machine

/-- What a convert gives: the destination's packed lanes, the FP32 elements that an extreme register observes, and its counts. -/
structure Cvt where
  out : Nat
  seen : List W32
  counts : Counts

/-- What a narrowing convert gives in a core (R149, R151). -/
def cvtNarrowed (f : Core → List W32 → W64 → List (Option Nat) → Nat × Counts) (w : IWord) (k : Core) : Cvt :=
  let xs := (List.range (cvtCnt w)).map (k.rv w.srcA)
  let r := f k xs (k.r.rs w.srcB) (cvtDraws k (cvtSr w) (cvtCnt w))
  ⟨r.1, xs, r.2⟩

/-- What a widening convert gives in a core (R149, R151). -/
def cvtWidened (f : Core → Nat → W64 → Nat → List W32 × Counts) (w : IWord) (k : Core) : Cvt :=
  let r := f k (packLanes (lanes64.map (k.rv w.srcA))) (k.r.rs w.srcB) (cvtCnt w)
  ⟨packLanes r.1, r.1, r.2⟩

/-- A core after a convert that gave `x` (R47, R49, R73, R151). -/
def Core.took (k : Core) (w : IWord) (x : Cvt) : Core :=
  { k with
    v := (k.wvs w.dst (lanesFrom 0 (lanesOf x.out))).v
    crec := crecOf x.counts
    ext := if cvtExtEn w then (k.wext (cvtExt w) (extObserveAll (k.rext (cvtExt w)) x.seen)).ext else k.ext
    srstate := if cvtSr w then setHalf k.srstate 0 (k.srstate.extractLsb' 0 64 + BitVec.ofNat 64 (cvtCnt w)) else k.srstate }

/-- A drive after a convert of a core that gave `x`: the core and the program's counter block (R48) have taken it. -/
def State.cvtTook (s : State) (t : Fin 256) (c : Fin 4) (w : IWord) (x : Cvt) : State :=
  (s.setCore t.val c.val ((s.core t.val c.val).took w x)).count (s.core t.val c.val).r.job x.counts.stop20

theorem cvtDone_eq (t : Fin 256) (c : Fin 4) (w : IWord) (x : Cvt) (s : State) :
    cvtDone t c w x.out x.seen x.counts s = .done (s.cvtTook t c w x) := by
  have lanes : (lanesOf x.out).zipIdx.map (fun (x, l) => (l, x)) = lanesFrom 0 (lanesOf x.out) := rfl
  simp only [cvtDone, State.cvtTook, Core.took, lanes]
  rw [Core.wvs_eq]
  generalize (Core.wvs _ _ _).v = v
  cases cvtExtEn w <;> cases cvtSr w <;> rfl

/-- The effect of a convert (R110, R150) that gives `f` of its core. -/
def cvtAct (f : Core → Cvt) (t : Fin 256) (c : Fin 4) (w : IWord) (s : State) : Act :=
  if 64 < cvtCnt w then .refuse stInvalidOperand
  else if s.crecPending (.core t c) then .await s [16]
  else .done (s.cvtTook t c w (f (s.core t.val c.val)))

theorem cvtNarrow_eq (f : Core → List W32 → W64 → List (Option Nat) → Nat × Counts) (t : Fin 256) (c : Fin 4) (w : IWord) :
    cvtNarrow f (.core t c) w = cvtAct (cvtNarrowed f w) t c w := by
  funext s
  rw [cvtAct, ← cvtDone_eq]
  rfl

theorem cvtWiden_eq (f : Core → Nat → W64 → Nat → List W32 × Counts) (t : Fin 256) (c : Fin 4) (w : IWord) :
    cvtWiden f (.core t c) w = cvtAct (cvtWidened f w) t c w := by
  funext s
  rw [cvtAct, ← cvtDone_eq]
  rfl

/-- A convert stamps nothing of its own. -/
theorem cvtAct_left_time (f : Core → Cvt) (t : Fin 256) (c : Fin 4) (w : IWord) (s : State) : ((cvtAct f t c w s).left s).time = s.time := by
  unfold cvtAct
  split
  · rfl
  · split
    · rfl
    · exact State.count_time _ _ _

/-! ## What a convert leaves -/

@[simp] theorem Core.r_took (k : Core) (w : IWord) (x : Cvt) : (k.took w x).r = k.r := by rw [Core.took]
@[simp] theorem Core.acc_took (k : Core) (w : IWord) (x : Cvt) : (k.took w x).acc = k.acc := by rw [Core.took]
@[simp] theorem Core.d_took (k : Core) (w : IWord) (x : Cvt) : (k.took w x).d = k.d := by rw [Core.took]
@[simp] theorem Core.actl_took (k : Core) (w : IWord) (x : Cvt) : (k.took w x).actl = k.actl := by rw [Core.took]
@[simp] theorem Core.crec_took (k : Core) (w : IWord) (x : Cvt) : (k.took w x).crec = crecOf x.counts := by rw [Core.took]

theorem Core.rv_took (k : Core) (w : IWord) (x : Cvt) (n : BitVec 5) (l : Nat) :
    (k.took w x).rv n l = (k.wvs w.dst (lanesFrom 0 (lanesOf x.out))).rv n l := by rw [Core.rv, Core.rv, Core.took]

/-- R73: with ROUND the SR counter passes the elements. -/
theorem Core.srstate_took (k : Core) (w : IWord) (x : Cvt) :
    (k.took w x).srstate = if cvtSr w then setHalf k.srstate 0 (k.srstate.extractLsb' 0 64 + BitVec.ofNat 64 (cvtCnt w)) else k.srstate := rfl

/-- R49: with EXTEN the extreme register that IMM names observes the elements. -/
theorem Core.rext_took (k : Core) (w : IWord) (x : Cvt) (e : Nat) :
    (k.took w x).rext e = if cvtExtEn w ∧ e = cvtExt w then extObserveAll (k.rext e) x.seen else k.rext e := by
  have ext : (k.took w x).ext = if cvtExtEn w then (k.wext (cvtExt w) (extObserveAll (k.rext (cvtExt w)) x.seen)).ext else k.ext := rfl
  rw [Core.rext, ext]
  cases cvtExtEn w with
  | false =>
    rw [if_neg Bool.false_ne_true, if_neg fun h => Bool.false_ne_true h.1]
    rfl
  | true =>
    by_cases he : e = cvtExt w
    · subst he
      rw [if_pos rfl, if_pos ⟨rfl, rfl⟩]
      exact k.rext_wext_same _ _
    · rw [if_pos rfl, if_neg fun h => he h.2]
      exact k.rext_wext_other he _

/-- The core that a convert leaves (R47, R49, R73, R151). -/
theorem converted_took (k : Core) (w : IWord) (x : Cvt) : Claims.converted w x.out x.seen x.counts k (k.took w x) := by
  refine ⟨fun l _ => ?_, fun n l hn hl => ?_, k.crec_took w x, k.rext_took w x, ?_, ?_, k.acc_took w x, k.d_took w x, k.actl_took w x⟩
  · rw [Core.rv_took, Core.rv_wvs_lanesFrom, if_pos (Nat.zero_le l), Nat.sub_zero]
  · have inside : ∀ e ∈ lanesFrom 0 (lanesOf x.out), e.1 < 64 := fun e he => by
      have := mem_lanesFrom he
      rwa [length_lanesOf, Nat.zero_add] at this
    rw [Core.rv_took, k.rv_wvs_other hn inside hl]
  · rw [Core.srstate_took]
    split
    · exact high_setHalf_low _ _
    · rfl
  · rw [Core.srstate_took, apply_ite (BitVec.extractLsb' 0 64), low_setHalf_low]
    rfl

/-- A later change of the scalar side of a core keeps what a convert left in the rest of it. -/
theorem converted_withRegs {w : IWord} {out : Nat} {seen : List W32} {ct : Counts} {k k' : Core} (h : Claims.converted w out seen ct k k') (r : Regs) :
    Claims.converted w out seen ct k { k' with r := r } := h

@[simp] theorem core_cvtTook (s : State) (t : Fin 256) (c : Fin 4) (w : IWord) (x : Cvt) :
    (s.cvtTook t c w x).core t.val c.val = (s.core t.val c.val).took w x := by
  rw [State.cvtTook, State.core_congr (State.count_tiles _ _ _), State.core_setCore_same]

/-- A convert counts into the counter block of its program (R48). -/
theorem counted_cvtTook (s : State) (t : Fin 256) (c : Fin 4) (w : IWord) (x : Cvt) :
    Claims.counted (s.core t.val c.val).r.job x.counts.stop20 s (s.cvtTook t c w x) :=
  counted_of_hosts (counted_count (s.setCore t.val c.val ((s.core t.val c.val).took w x)) _ _) rfl rfl

theorem sameSram_cvtTook (s : State) (t : Fin 256) (c : Fin 4) (w : IWord) (x : Cvt) : sameSram s (s.cvtTook t c w x) := by
  intro n a
  rw [State.cvtTook, State.tile_congr (State.count_tiles _ _ _), State.setCore_sram]

/-- A convert changes no agent's scalar side. -/
theorem regs_cvtTook (s : State) (t : Fin 256) (c : Fin 4) (w : IWord) (x : Cvt) (b : Agent) : (s.cvtTook t c w x).regs b = s.regs b := by
  rw [State.cvtTook, State.count, State.regs_updJobQ, State.regs_setCore_of_r (Core.r_took _ _ _)]

/-! ## Each instruction of the group -/

/-- The instruction is the convert of core `c` of tile `t` with word `w` that gives `f` of the core. -/
def IsCvt (i : Instr) (t : Fin 256) (c : Fin 4) (w : IWord) (f : Core → Cvt) : Prop :=
  ∃ o, opOf i = some (.core t c, w, o) ∧ ∀ s, exec i s = .next (s.issue o (.core t c) w (cvtAct f t c w))

theorem isCvt_narrow {row : Claims.NarrowRow} (h : row ∈ Claims.narrowRows) (t : Fin 256) (c : Fin 4) (w : IWord) :
    IsCvt (row.make (.core t c) w) t c w (cvtNarrowed row.pack w) := by
  rw [IsCvt, ← cvtNarrow_eq]
  simp only [Claims.narrowRows, List.mem_cons, List.not_mem_nil, or_false] at h
  rcases h with rfl | rfl | rfl | rfl | rfl | rfl | rfl | rfl | rfl <;> exact ⟨_, rfl, fun _ => rfl⟩

theorem isCvt_widen {row : Claims.WidenRow} (h : row ∈ Claims.widenRows) (t : Fin 256) (c : Fin 4) (w : IWord) :
    IsCvt (row.make (.core t c) w) t c w (cvtWidened row.open_ w) := by
  rw [IsCvt, ← cvtWiden_eq]
  simp only [Claims.widenRows, List.mem_cons, List.not_mem_nil, or_false] at h
  rcases h with rfl | rfl | rfl | rfl | rfl | rfl | rfl | rfl | rfl <;> exact ⟨_, rfl, fun _ => rfl⟩

section
variable {i : Instr} {t : Fin 256} {c : Fin 4} {w : IWord} {f : Core → Cvt} {s : State}

/-- A convert that is ready comes to its own effect after the fetch. -/
theorem IsCvt.exec_ready (h : IsCvt i t c w f) (hr : ready i s = true) :
    ∃ o, exec i s = .next (finish o (.core t c) w (fetched (.core t c) w s) (cvtAct f t c w (fetched (.core t c) w s))) := by
  obtain ⟨o, op, run⟩ := h
  exact ⟨o, (run s).trans (congrArg _ (issue_of_ready _ op hr (cvtAct_left_time f t c w)))⟩

/-- R150: a CNT above 64 is refused. -/
theorem IsCvt.refused (h : IsCvt i t c w f) (hr : ready i s = true) (hn : 64 < cvtCnt w) :
    exec i s = .next ((fetched (.core t c) w s).refused (.core t c) w stInvalidOperand) := by
  obtain ⟨o, run⟩ := h.exec_ready hr
  rw [run, cvtAct, if_pos hn]
  rfl

/-- R110: a convert waits for the matrix instructions that still have to write the counter record. -/
theorem IsCvt.waits (h : IsCvt i t c w f) (hr : ready i s = true) (hn : cvtCnt w ≤ 64) (hp : s.crecPending (.core t c) = true) :
    exec i s = .next ((fetched (.core t c) w s).awaits (.core t c) [16]) := by
  obtain ⟨o, run⟩ := h.exec_ready hr
  rw [run, cvtAct, if_neg (Nat.not_lt.mpr hn), if_pos (by rw [crecPending_fetched, hp])]
  rfl

/-- R151: a convert that is ready, whose CNT is at most 64 and that waits for no matrix instruction, is done with the result of its core. -/
theorem IsCvt.done (h : IsCvt i t c w f) (hr : ready i s = true) (hn : cvtCnt w ≤ 64) (hp : s.crecPending (.core t c) = false) :
    let k := s.core t.val c.val
    let x := f k
    ∃ u, exec i s = .next u ∧ Claims.converted w x.out x.seen x.counts k (u.core t.val c.val) ∧
      Claims.counted k.r.job x.counts.stop20 s u ∧ sameOthers (.core t c) s u ∧ sameSram s u := by
  intro k x
  obtain ⟨o, run⟩ := h.exec_ready hr
  have tiles : (fetched (.core t c) w s).tiles = s.tiles := fetched_tiles _ _ _
  have host : (fetched (.core t c) w s).host = s.host := fetched_host _ _ _
  have regs (b : Agent) : (fetched (.core t c) w s).regs b = s.regs b := regs_fetched _ _ _ _
  have core : (fetched (.core t c) w s).core t.val c.val = k := State.core_congr tiles _ _
  rw [cvtAct, if_neg (Nat.not_lt.mpr hn), if_neg (by rw [crecPending_fetched, hp]; decide), core] at run
  generalize fetched (.core t c) w s = g at run tiles host regs core
  have counts := counted_cvtTook g t c w x
  obtain ⟨r, final⟩ := core_finish_done o w g (g.cvtTook t c w x) t c
  refine ⟨_, run, ?_, ?_, fun b hb => ?_, fun n a => ?_⟩
  · rw [final, core_cvtTook, core]
    exact converted_withRegs (converted_took k w x) r
  · rw [core] at counts
    exact counted_of_hosts counts host.symm (finish_done_host _ _ _ _ _)
  · rw [sameOthers_finish_done o _ w g _ b hb, regs_cvtTook, regs]
  · rw [sameSram_finish_done o _ w g _ n a, sameSram_cvtTook g t c w x n a, State.tile_congr tiles]

end

/-- Settles O21: each row is a convert over its core (`isCvt_narrow`, `isCvt_widen`), and what a convert comes to is `IsCvt.done`, `IsCvt.refused` or
`IsCvt.waits`. -/
theorem converts : Obligations.Converts := by
  intro tile c w s
  refine ⟨fun row h hr hn hp => (isCvt_narrow h tile c w).done hr hn hp, fun row h hr hn hp => (isCvt_widen h tile c w).done hr hn hp,
    fun i hi hr => ?_⟩
  have cvt : ∃ f, IsCvt i tile c w f := by
    rcases List.mem_append.mp hi with hi | hi <;> obtain ⟨row, h, rfl⟩ := List.mem_map.mp hi
    · exact ⟨_, isCvt_narrow h tile c w⟩
    · exact ⟨_, isCvt_widen h tile c w⟩
  obtain ⟨f, cvt⟩ := cvt
  exact ⟨cvt.refused hr, cvt.waits hr⟩

end Sys2Proof.Machine
end

section
/-! The outputs of a matrix instruction (03 R47, R63, R64, R66; 04 R92, R93). -/
namespace Sys2Proof.Machine

/-! ## Elements of the accumulator banks (R92) -/

@[simp] theorem Core.racc_wacc_same (k : Core) (b x : Nat) (v : W32) : (k.wacc b x v).racc b x = v := getD_putD_same _ _ _ _

/-- Two elements below 256 that differ in bank or in place are different elements of the file. -/
theorem Core.racc_wacc_other (k : Core) {p p' : Nat × Nat} (h : p ≠ p') (hp : p.2 < 256) (hp' : p'.2 < 256) (v : W32) :
    (k.wacc p.1 p.2 v).racc p'.1 p'.2 = k.racc p'.1 p'.2 := by
  have place : 256 * p'.1 + p'.2 ≠ 256 * p.1 + p.2 := fun e => h (Prod.ext (by omega) (by omega))
  exact getD_putD_other _ place _ _

/-! ## What an entry writes -/

/-- Bank and element of an output of the entry (R92). -/
def QEntry.slotOf (e : QEntry) (o : Nat × W32 × Bool) : Nat × Nat := outSlot e.form e.bank (o.1 / 256) (o.1 % 256)
/-- An output in the entry's destination format, and what it counts (R64). -/
def QEntry.valueOf (e : QEntry) (o : Nat × W32 × Bool) : W32 × Ev := outputOf e.dfmt e.ftz o.2.1 o.2.2
/-- What the entry's counter record counts (R47). -/
def QEntry.counts (e : QEntry) : Counts := (countEvs (e.outs.map (fun o => (e.valueOf o).2))).bump .inv e.inv

/-- A core after some of an entry's outputs have been written. -/
def Core.withOutputs (k : Core) (e : QEntry) (os : List (Nat × W32 × Bool)) : Core :=
  os.foldl (fun k o => k.wacc (e.slotOf o).1 (e.slotOf o).2 (e.valueOf o).1) k

theorem Core.withOutputs_cons (k : Core) (e : QEntry) (o : Nat × W32 × Bool) (os : List (Nat × W32 × Bool)) :
    k.withOutputs e (o :: os) = (k.wacc (e.slotOf o).1 (e.slotOf o).2 (e.valueOf o).1).withOutputs e os := rfl

/-- Outputs change the accumulator alone. -/
theorem Core.withOutputs_eq (k : Core) (e : QEntry) (os : List (Nat × W32 × Bool)) :
    k.withOutputs e os = { k with acc := (k.withOutputs e os).acc } := by
  induction os generalizing k with
  | nil => rfl
  | cons o os ih => exact ih (k.wacc (e.slotOf o).1 (e.slotOf o).2 (e.valueOf o).1)

section
variable {e : QEntry} {os : List (Nat × W32 × Bool)}

/-- R92: an element that takes no output is left unchanged. -/
theorem Core.racc_withOutputs_other (k : Core) (inside : ∀ o ∈ os, (e.slotOf o).2 < 256) {p : Nat × Nat} (hp : p.2 < 256)
    (h : ∀ o ∈ os, e.slotOf o ≠ p) : (k.withOutputs e os).racc p.1 p.2 = k.racc p.1 p.2 := by
  induction os generalizing k with
  | nil => rfl
  | cons o os ih =>
    obtain ⟨ho, h⟩ := List.forall_mem_cons.mp h
    obtain ⟨lt, inside⟩ := List.forall_mem_cons.mp inside
    rw [Core.withOutputs_cons, ih _ inside h, Core.racc_wacc_other _ ho lt hp]

/-- R92: outputs of different elements all stand in their elements. -/
theorem Core.racc_withOutputs_mem (k : Core) (inside : ∀ o ∈ os, (e.slotOf o).2 < 256)
    (apart : os.Pairwise (fun a b => e.slotOf a ≠ e.slotOf b)) {o : Nat × W32 × Bool} (ho : o ∈ os) :
    (k.withOutputs e os).racc (e.slotOf o).1 (e.slotOf o).2 = (e.valueOf o).1 := by
  induction os generalizing k with
  | nil => exact absurd ho List.not_mem_nil
  | cons o' os ih =>
    obtain ⟨first, apart'⟩ := List.pairwise_cons.mp apart
    obtain ⟨lt, inside'⟩ := List.forall_mem_cons.mp inside
    rw [Core.withOutputs_cons]
    rcases List.mem_cons.mp ho with rfl | ho
    · rw [Core.racc_withOutputs_other _ inside' lt (fun a ha => (first a ha).symm), Core.racc_wacc_same]
    · exact ih _ inside' apart' ho

end

/-- A core after an entry's last output (R47, R92, R93): its outputs and its record stand, its banks are free, and no wait names it. -/
def Core.written (k : Core) (e : QEntry) : Core :=
  { k with
    acc := (k.withOutputs e e.outs).acc
    crec := crecOf e.counts
    busy := freeBanks k.busy (if e.m = 0 ∨ e.n = 0 then [] else banksOf e.form e.bank e.m)
    awaits := k.awaits.map (fun (p, ds) => (p, ds.filter (fun d => d != 16))) }

/-- A drive after the last output of the entry at the head of a tile's queue: its core has it, and the queue goes on (R93, R112). -/
def State.entryWritten (s : State) (t : Nat) (e : QEntry) (q : List QEntry) : State :=
  let u := s.setCore t e.core ((s.core t e.core).written e)
  u.setTile t { u.tile t with queue := q, spurOn := !e.started && (u.tile t).spurOn }

section
variable (s : State) (e : QEntry) (q : List QEntry)

@[simp] theorem State.entryWritten_time (t : Nat) : (s.entryWritten t e q).time = s.time := rfl

@[simp] theorem State.queue_entryWritten (t : Nat) : ((s.entryWritten t e q).tile t).queue = q := by
  rw [State.entryWritten, State.tile_setTile_same]

@[simp] theorem State.core_entryWritten (t : Nat) : (s.entryWritten t e q).core t e.core = (s.core t e.core).written e := by
  rw [State.core, State.entryWritten, State.tile_setTile_same, ← State.core, State.core_setCore_same]

@[simp] theorem State.entryWritten_sram (t n : Nat) : ((s.entryWritten t e q).tile n).sram = (s.tile n).sram := by
  rw [State.entryWritten]
  by_cases h : n = t
  · rw [h, State.tile_setTile_same, State.setCore_sram]
  · rw [State.tile_setTile_other _ h, State.setCore_sram]

/-- A write of an entry with STATUS OK: the entry, its counts in the program's counter block (R48), and its cairn (R131). -/
theorem State.writeEntry_ok (tile : Fin 256) :
    s.writeEntry tile e q stOk =
      ((s.entryWritten tile.val e q).count (some e.job) e.counts.stop20).stampIf e.stamp (.core tile (Fin.ofNat 4 e.core))
        (BitVec.ofNat 64 e.word) := by
  have outputs (k : Core) : (e.outs.map (fun (i, x, fin) => (i, outputOf e.dfmt e.ftz x fin))).foldl (fun k (r : Nat × W32 × Ev) =>
      let (b, el) := outSlot e.form e.bank (r.1 / 256) (r.1 % 256)
      k.wacc b el r.2.1) k = { k with acc := (k.withOutputs e e.outs).acc } := by
    rw [List.foldl_map, ← Core.withOutputs_eq]
    rfl
  have counts : e.outs.map ((fun r => r.2.2) ∘ fun (i, x, fin) => (i, outputOf e.dfmt e.ftz x fin)) = e.outs.map (fun o => (e.valueOf o).2) := rfl
  have good : stOk = 0 := rfl
  have outcome (r : Regs) : r.outcome 0 = r := rfl
  simp only [State.writeEntry, good, if_true, outputs, outcome, List.map_map, counts]
  rfl

variable (tile : Fin 256)

theorem State.writeEntry_tiles : (s.writeEntry tile e q stOk).tiles = (s.entryWritten tile.val e q).tiles := by
  rw [State.writeEntry_ok, State.stampIf_tiles, State.count_tiles]

theorem State.core_writeEntry : (s.writeEntry tile e q stOk).core tile.val e.core = (s.core tile.val e.core).written e := by
  rw [State.core_congr (s.writeEntry_tiles e q tile), State.core_entryWritten]

theorem State.queue_writeEntry : ((s.writeEntry tile e q stOk).tile tile.val).queue = q := by
  rw [State.tile_congr (s.writeEntry_tiles e q tile), State.queue_entryWritten]

theorem State.sameSram_writeEntry : sameSram s (s.writeEntry tile e q stOk) := by
  intro n a
  rw [State.tile_congr (s.writeEntry_tiles e q tile), State.entryWritten_sram]

variable {s} in
/-- The cairn of an entry's completion waits for nothing on a calm drive (R131, R180). -/
theorem State.stalled_writeEntry (h : calm s = true) : (s.writeEntry tile e q stOk).time.stalled = s.time.stalled := by
  have time : ((s.entryWritten tile.val e q).count (some e.job) e.counts.stop20).time = s.time := by
    rw [State.count_time, State.entryWritten_time]
  rw [State.writeEntry_ok, State.stalled_stampIf ((calm_congr time).trans h), time]

end

/-! ## The last output of the entry at the head of the queue -/

section
variable {s : State} {tile : Fin 256} {e : QEntry} {q : List QEntry}

/-- R93: without a reduction to complete, the started entry at the head of the queue is written. -/
theorem execMatrixOutputWritten_unsplit (quiet : calm s = true) (queue : (s.tile tile.val).queue = e :: q) (started : e.started = true)
    (red : e.red = false) : execMatrixOutputWritten tile s = .next (s.writeEntry tile e q stOk) := by
  have still := State.orStall_of_le (Nat.le_of_eq (congrArg List.length (State.stalled_writeEntry e q tile quiet)))
  simp [execMatrixOutputWritten, queue, started, red, still]

/-- R66, R136: under RED the entry takes the tree values that its job's members give it, and is written with them. -/
theorem execMatrixOutputWritten_red {j : Job} {u : State} {f : QEntry} {p : List QEntry} (quiet : calm s = true)
    (queue : (s.tile tile.val).queue = e :: q) (started : e.started = true) (red : e.red = true) (job : s.job? e.job = some j)
    (give : redGive s j e tile.val = some u) (time : u.time = s.time) (head : (u.tile tile.val).queue = f :: p) :
    execMatrixOutputWritten tile s = .next (u.writeEntry tile f p stOk) := by
  have stalled : (u.writeEntry tile f p stOk).time.stalled = s.time.stalled :=
    (State.stalled_writeEntry f p tile ((calm_congr time).trans quiet)).trans (congrArg TimeSt.stalled time)
  have still := State.orStall_of_le (Nat.le_of_eq (congrArg List.length stalled))
  simp [execMatrixOutputWritten, queue, started, red, job, give, head, still]

end

/-! ## An entry that forms no values (R63) -/

/-- Time, and the cores and the SRAM of every tile, are the same in two states. -/
structure KeepsCores (s u : State) : Prop where
  time : u.time = s.time
  cores (n : Nat) : (u.tile n).cores = (s.tile n).cores
  sram (n : Nat) : (u.tile n).sram = (s.tile n).sram

theorem KeepsCores.refl (s : State) : KeepsCores s s := ⟨rfl, fun _ => rfl, fun _ => rfl⟩
theorem KeepsCores.trans {s u v : State} (h : KeepsCores s u) (h' : KeepsCores u v) : KeepsCores s v :=
  ⟨h'.time.trans h.time, fun n => (h'.cores n).trans (h.cores n), fun n => (h'.sram n).trans (h.sram n)⟩
theorem KeepsCores.of_tiles {s u : State} (time : u.time = s.time) (tiles : u.tiles = s.tiles) : KeepsCores s u :=
  ⟨time, fun n => congrArg Tile.cores (State.tile_congr tiles n), fun n => congrArg Tile.sram (State.tile_congr tiles n)⟩
theorem KeepsCores.setTile (s : State) {t : Nat} {x : Tile} (cores : x.cores = (s.tile t).cores) (sram : x.sram = (s.tile t).sram) :
    KeepsCores s (s.setTile t x) := by
  refine ⟨rfl, fun n => ?_, fun n => ?_⟩ <;> by_cases h : n = t
  · rw [h, State.tile_setTile_same, cores]
  · rw [State.tile_setTile_other _ h]
  · rw [h, State.tile_setTile_same, sram]
  · rw [State.tile_setTile_other _ h]

theorem KeepsCores.core {s u : State} (h : KeepsCores s u) (t c : Nat) : u.core t c = s.core t c := by rw [State.core, h.cores, State.core]
theorem KeepsCores.sameSram {s u : State} (h : KeepsCores s u) : sameSram s u := fun n a => by rw [h.sram]

/-- An entry of core `c` that has formed no values and that no reduction gives any. -/
structure QEntry.Blank (e : QEntry) (c : Nat) : Prop where
  core : e.core = c
  outs : e.outs = []
  inv : e.inv = 0
  taking : e.red = true → e.taking = 0

/-- A blank entry stands at the head of the queue of tile `t`. -/
def HeadBlank (s : State) (t c : Nat) : Prop := ∃ f p, (s.tile t).queue = f :: p ∧ f.Blank c

theorem HeadBlank.congr {s u : State} {t c : Nat} (h : HeadBlank s t c) (tiles : u.tiles = s.tiles) : HeadBlank u t c := by
  rwa [HeadBlank, State.tile_congr tiles]

/-- The array's start of an entry with K = 0 forms no values (R63). -/
theorem execArrayInstructionStart_empty {s : State} {tile : Fin 256} {e : QEntry} {q : List QEntry} (m : EccHit)
    (halted : (s.tile tile.val).halted = none) (queue : (s.tile tile.val).queue = e :: q) (started : e.started = false) (k : e.k = 0) :
    ∃ t, execArrayInstructionStart tile m s = .next t ∧
      (t.tile tile.val).queue = { e with started := true, outs := [], inv := 0 } :: q ∧ t.host = s.host ∧ KeepsCores s t := by
  have drawn : s.draw.2.tile tile.val = s.tile tile.val := State.tile_congr rfl _
  have keeps : KeepsCores s s.draw.2 := .of_tiles rfl rfl
  have clean : s.panelsEcc (s.physOf tile.val) e m = .clean := by simp only [State.panelsEcc, k, if_true]
  have outs (sram : Mem) (c : Core) : entryOuts sram c e = [] := by simp only [entryOuts, k, if_true]
  simp only [execArrayInstructionStart, halted, queue, started, clean, k, outs, if_true, Bool.false_eq_true, if_false]
  refine ⟨_, rfl, ?_, rfl, keeps.trans (.setTile _ rfl rfl)⟩
  rw [State.tile_setTile_same]

/-- The tree values of a RED call change the members' queues alone. -/
theorem keepsCores_spreadRed (s : State) (e : QEntry) (outs : List (Nat × W32 × Bool)) (ts : List Nat) : KeepsCores s (spreadRed s e outs ts) := by
  induction ts generalizing s with
  | nil => exact .refl s
  | cons t ts ih =>
    refine .trans (.setTile s ?_ ?_) (ih _) <;> rfl

/-- R63, R136: the tree values of a call in which no member takes part leave a blank entry blank. -/
theorem headBlank_spreadRed {s : State} {t c : Nat} (h : HeadBlank s t c) (e : QEntry) (outs : List (Nat × W32 × Bool)) (ts : List Nat) :
    HeadBlank (spreadRed s e outs ts) t c := by
  induction ts generalizing s with
  | nil => exact h
  | cons t' ts ih =>
    refine ih ?_
    obtain ⟨f, p, queue, blank⟩ := h
    by_cases ht : t = t'
    · subst ht
      rw [HeadBlank, State.tile_setTile_same, queue, List.map_cons]
      refine ⟨_, _, rfl, ?_⟩
      split
      · next call =>
        have red : f.red = true := by simp only [Bool.and_eq_true] at call; exact call.1.1.1
        exact ⟨blank.core, if_pos (blank.taking red), blank.inv, fun h => absurd h Bool.false_ne_true⟩
      · exact blank
    · rw [HeadBlank, State.tile_setTile_other _ ht]
      exact ⟨f, p, queue, blank⟩

/-- R65: a reduction in which no member takes part waits for no partials. -/
theorem redOuts_of_taking_zero (s : State) (j : Job) {e : QEntry} (h : e.taking = 0) : ∃ o, redOuts s j e = some o := by
  simp [redOuts, h]

/-- R63, R66: a RED call in which no member takes part gives its values at once, and a blank entry stays blank. -/
theorem redGive_of_taking_zero (s : State) (j : Job) {e : QEntry} (h : e.taking = 0) (t : Nat) :
    ∃ u, redGive s j e t = some u ∧ KeepsCores s u ∧ ∀ c, HeadBlank s t c → HeadBlank u t c := by
  unfold redGive
  split
  · exact ⟨_, rfl, keepsCores_spreadRed _ _ _ _, fun c blank => headBlank_spreadRed blank _ _ _⟩
  · obtain ⟨o, outs⟩ := redOuts_of_taking_zero s j h
    rw [outs, Option.map_some]
    refine ⟨_, rfl, ?_⟩
    dsimp only
    generalize filed : (if (lateTiles s j e).isEmpty then s else _) = v
    have same : v.time = s.time ∧ v.tiles = s.tiles := by rw [← filed]; split <;> exact ⟨rfl, rfl⟩
    obtain ⟨time, tiles⟩ := same
    exact ⟨(KeepsCores.of_tiles time tiles).trans (keepsCores_spreadRed _ _ _ _),
      fun c blank => headBlank_spreadRed (blank.congr tiles) _ _ _⟩

/-- R63: a started entry that is blank is written, split or not, from a state with the same cores. -/
theorem execMatrixOutputWritten_blank {s : State} {tile : Fin 256} {e : QEntry} {q : List QEntry} {c : Nat} (quiet : calm s = true)
    (queue : (s.tile tile.val).queue = e :: q) (started : e.started = true) (blank : e.Blank c)
    (job : e.red = true → (s.job? e.job).isSome = true) :
    ∃ u f p, execMatrixOutputWritten tile s = .next (u.writeEntry tile f p stOk) ∧ KeepsCores s u ∧ f.Blank c := by
  cases red : e.red with
  | false => exact ⟨s, e, q, execMatrixOutputWritten_unsplit quiet queue started red, .refl s, blank⟩
  | true =>
    obtain ⟨j, hj⟩ := Option.isSome_iff_exists.mp (job red)
    obtain ⟨u, give, keeps, heads⟩ := redGive_of_taking_zero s j (blank.taking red) tile.val
    obtain ⟨f, p, head, blank⟩ := heads c ⟨e, q, queue, blank⟩
    exact ⟨u, f, p, execMatrixOutputWritten_red quiet queue started red hj give keeps.time head, keeps, blank⟩

/-- R63: a blank entry writes no output. -/
theorem Core.acc_written_blank (k : Core) {e : QEntry} {c : Nat} (h : e.Blank c) : (k.written e).acc = k.acc := by
  rw [Core.written, h.outs]
  rfl
/-- R63: the counter record of a blank entry is all zeros. -/
theorem Core.crec_written_blank (k : Core) {e : QEntry} {c : Nat} (h : e.Blank c) : (k.written e).crec = 0 := by
  have zeros : crecOf (({} : Counts).bump .inv 0) = 0 := by decide
  rw [Core.written, QEntry.counts, h.outs, h.inv]
  exact zeros

/-- Settles O24: with K = 0 the entry is blank from its start on (`execArrayInstructionStart_empty`) until it is written, through a reduction too
(`execMatrixOutputWritten_blank`); otherwise `State.core_writeEntry` says what its write leaves. -/
theorem matrixOutputs : Obligations.MatrixOutputs := by
  constructor
  · intro tile m s e q quiet halted queue started k _ red
    obtain ⟨t, start, head, host, keeps⟩ := execArrayInstructionStart_empty m halted queue started k
    have job (h : e.red = true) : (t.job? e.job).isSome = true := by rw [State.job?_congr host]; exact (red h).2
    obtain ⟨u, f, p, write, keeps', blank⟩ :=
      execMatrixOutputWritten_blank ((calm_congr keeps.time).trans quiet) head rfl ⟨rfl, rfl, rfl, fun h => (red h).1⟩ job
    have core : (u.writeEntry tile f p stOk).core tile.val e.core = (s.core tile.val e.core).written f := by
      have written := u.core_writeEntry f p tile
      rwa [blank.core, (keeps.trans keeps').core] at written
    refine ⟨t, _, start, write, ?_, ?_, fun n a => ?_⟩
    · rw [core, Core.acc_written_blank _ blank]
    · rw [core, Core.crec_written_blank _ blank]
    · rw [u.sameSram_writeEntry f p tile n a, (keeps.trans keeps').sameSram n a]
  · intro tile s e q slot k quiet queue started red _ apart inside
    refine ⟨_, execMatrixOutputWritten_unsplit quiet queue started red, s.queue_writeEntry e q tile, ?_⟩
    rw [State.core_writeEntry]
    exact ⟨fun o ho => k.racc_withOutputs_mem inside apart ho, fun b x hx other => k.racc_withOutputs_other (p := (b, x)) inside hx other,
      rfl, rfl, rfl, rfl, s.sameSram_writeEntry e q tile⟩

end Sys2Proof.Machine
end
